-- ==== Sys2Proof/Word.lean ====
section
/-! DEFINITION. The word types of the LJ2M and the numbers that name its parts. -/

namespace Sys2Proof

/-- A byte, on the wire and in the array. -/
abbrev Byte := BitVec 8

/-- A two-byte field. -/
abbrev Word16 := BitVec 16

/-- A four-byte field. -/
abbrev Word32 := BitVec 32

/-- A stream, numbered 0 to 7 (R26). -/
abbrev StreamId := Fin 8

/-- A data segment (R91): number `k` here is the segment with index `k + 2`, so that every value names one of the
510 data segments 2 to 511 and none names an anchor segment. -/
abbrev DataSeg := Fin 510

/-- An anchor segment, 0 or 1 (R91). -/
abbrev AnchorSeg := Fin 2

/-- The index of a data segment in the array (R91). -/
abbrev DataSeg.index (k : DataSeg) : Nat := k.val + 2

end Sys2Proof
end

