-- ==== Sys2Proof/Config.lean ====
section
/-! DEFINITION. The fixed quantities of the part (00_scope, "Fixed quantities"), the factory identity, and the values the
spec leaves open. -/

namespace Sys2Proof.Config

/-- Size of the array (R91). -/
def arrayBytes : Nat := 2097152

/-- Size of a segment (R91). -/
def segmentBytes : Nat := 4096

/-- Size of a segment header (R92). -/
def headerBytes : Nat := 32

/-- Size of the record area of a data segment (R91). -/
def recordArea : Nat := 4064

/-- Longest payload of a record (R49). -/
def maxPayload : Nat := 1012

/-- Bytes of the staging buffer (R51). -/
def stagingBytes : Nat := 2048

/-- Entries of the staging buffer (R51). -/
def stagingEntries : Nat := 16

/-- Depth of a mark stack (R85). -/
def markDepth : Nat := 4

/-- Units of an anchor segment (R131). -/
def anchorUnits : Nat := 128

/-- Erase pulses in one erase, at most (R110, R131). -/
def erasePulses : Nat := 12

/-- Program pulses in one program sequence, at most (R110). -/
def programPulses : Nat := 4

/-- The erase count that retires a segment (R104). -/
def wearOut : Nat := 120000

/-- The last sequence of an epoch (R36). -/
def lastSequence : Nat := 0xFFFFFFFE

/-- The greatest 32-bit number: the last epoch (R38), the saturated overrun count (R59). -/
def max32 : Nat := 0xFFFFFFFF

/-- The greatest anchor erase count (R142). -/
def maxAnchorErases : Nat := 0xFFFFFE

/-- Bytes of a vault page (R181). -/
def vaultPageBytes : Nat := 128

/-- The unique identifier, "written at the factory; different for every part" (R184): a constant with no body, so that
no proof depends on one part's value (log 23). -/
opaque uniqueId : BitVec 64

/-- FREE VALUE (log 12): the last sequence the recovery scan enters for an OPEN segment that it does not scan because its
epoch is not the anchored one (R149, R151). Arguments: the draw and the segment. -/
opaque unstatedLast : Nat → Nat → BitVec 32

/-- FREE VALUE (log 12): the bytes used the recovery scan enters for a segment whose header supplies none (R149). Read
modulo 4065, the range that R105 sets. Arguments: the draw and the segment. -/
opaque unstatedUsed : Nat → Nat → Nat

end Sys2Proof.Config
end

