-- ==== Sys2Proof/Syntax.lean ====
section
/-! DEFINITION. The commands: one constructor for each row of spec/opcode_table.json, in the table's order, with the bytes
a frame carries or the physical outcome of a job step as operands. -/

namespace Sys2Proof

/-- What the cells do in the pulses of one program sequence (R110): for each pulse, and in it for each byte of the item
that the pulse programs, in order, the bits that resist that pulse. A byte or a pulse that is not listed takes
completely, so `[]` is a sequence without any resistance (log 3). -/
abbrev Pulses := List (List Byte)

/-- What an erase pulse leaves (R110): the bytes that do not read FFh after it, by their offset in the segment or the
vault page. Every byte not listed reads FFh, so `[]` is a pulse that passes (log 4). -/
abbrev Residue := List (Nat × Byte)

/-- How far a power loss or a soft reset lets the step in progress get (R155, R159; log 5). -/
structure Cut where
  /-- the pulses applied to the item being programmed; `[]` before the first -/
  pulses : Pulses
  /-- `some r` where an erase pulse had begun, with what it leaves; `none` before it -/
  residue : Option Residue
  /-- whether an interrupted VAULT LOCK leaves its cell programmed (R183) -/
  lockCell : Bool
  deriving DecidableEq, Repr

/-- The output commands with their argument bytes (R9), for the row VERDICT. -/
inductive OutputCommand where
  | queryStatus
  | readEvents
  | deviceInfo
  | streamInfo (stream mask : Byte)
  | segmentInfo (index : Word16)
  | fetch (stream form : Byte) (operand : Word32) (count : Byte)
  | readGuard
  | vaultRead (page offset : Byte)
  | identify
  | descriptor
  deriving DecidableEq, Repr

/-- The commands (spec/opcode_table.json). A row named after a frame command is the SEL high that ends its frame (R12); an
operand `bytes` is how many whole bytes that frame carried (log 7), and `guardHigh` the level of the GUARD pin at that
moment (R176, log 8). -/
inductive Instr where
  | nullFrame
  | discardedFrame (bytes : Nat)
  | unknownCommand (bytes : Nat)
  | ignoredFrame
  | arm
  | disarm
  | queryStatus (bytes : Nat)
  | readEvents (bytes : Nat)
  | clearEvents (mask : Word16)
  | setEventEnable (enable : Word16)
  | deviceInfo (bytes : Nat)
  | configureStream (stream policy : Byte) (quota highWater backlog : Word16) (guardHigh : Bool)
  | openStream (stream : Byte) (guardHigh : Bool)
  | closeStream (stream : Byte) (guardHigh : Bool)
  | resetStream (stream : Byte) (guardHigh : Bool)
  | streamInfo (stream mask : Byte) (bytes : Nat)
  | segmentInfo (index : Word16) (bytes : Nat)
  | append (stream tag : Byte) (length : Word16) (payload : List Byte)
  | sync
  | fetch (stream form : Byte) (operand : Word32) (count : Byte) (bytes : Nat)
  | ack (stream : Byte) (sequence : Word32)
  | pushMark (stream : Byte)
  | popMark (stream : Byte)
  | rewind (stream mode : Byte)
  | suspend
  | resume
  | deviceConfig (lowWater : Byte) (guardHigh : Bool)
  | format (guardHigh : Bool)
  | readGuard (bytes : Nat)
  | writeGuard (mode locks inhibit : Byte) (guardHigh : Bool)
  | vaultRead (page offset : Byte) (bytes : Nat)
  | vaultWrite (page offset length : Byte) (data : List Byte)
  | vaultErase (page : Byte)
  | vaultLock (page : Byte)
  | doze
  | wake
  | resetEnable
  | reset (cut : Cut)
  | identify (bytes : Nat)
  | descriptor (bytes : Nat)
  | powerOn
  | powerLoss (cut : Cut)
  | recoveryComplete
  | wakePhaseEnd
  | commitSealStep (pulses : Pulses)
  | commitFreeStageStep (pulses : Pulses)
  | commitOpenStep (pulses : Pulses)
  | commitOpenRetireStep (pulses : Pulses)
  | commitRecordStep (pulses : Pulses)
  | commitCloseStep (pulses : Pulses)
  | reclaimErasePulse (residue : Residue)
  | reclaimFreeStageStep (pulses : Pulses)
  | reclaimRetireStep (pulses : Pulses)
  | ledgerImageUnitStep (pulses : Pulses)
  | ledgerNoteStep (pulses : Pulses)
  | ledgerAnchorErasePulse (residue : Residue)
  | vaultWriteByteStep (pulses : List Byte)
  | vaultErasePulse (residue : Residue)
  | vaultLockStep (programmed : Bool)
  | formatErasePulse (residue : Residue)
  | formatFreeStageStep (pulses : Pulses)
  | formatRetireStep (pulses : Pulses)
  | formatAnchorErasePulse (residue : Residue)
  | formatImageUnitStep (pulses : Pulses)
  | statusCapture
  | verdict (command : OutputCommand)
  deriving DecidableEq, Repr

namespace OutputCommand

/-- The number of argument bytes of an output command (the command table of chapter 1). -/
def argBytes : OutputCommand → Nat
  | .queryStatus => 0
  | .readEvents => 0
  | .deviceInfo => 0
  | .streamInfo _ _ => 2
  | .segmentInfo _ => 2
  | .fetch _ _ _ _ => 7
  | .readGuard => 0
  | .vaultRead _ _ => 2
  | .identify => 0
  | .descriptor => 0

end OutputCommand

end Sys2Proof
end

