-- ==== Sys2Proof/Decode.lean ====
section
/-! DEFINITION. The table's rows carry no bits, so no word spells a command; and the frame format of chapter 1: the command
table, the row that a frame's bytes stand for, and the bytes of a row's frame. -/

namespace Sys2Proof

/-- The command that a word spells by the table's bits. No row of spec/opcode_table.json gives bits, so no word spells one. -/
def decodeTableWord (_nbits _w : Nat) : Option Instr := none

/-! ### The command table (chapter 1) -/

/-- The 36 assigned commands. -/
inductive Command where
  | arm | disarm | queryStatus | readEvents | clearEvents | setEventEnable | deviceInfo | configureStream | openStream
  | closeStream | resetStream | streamInfo | segmentInfo | append | sync | fetch | ack | pushMark | popMark | rewind
  | suspend | resume | deviceConfig | format | readGuard | writeGuard | vaultRead | vaultWrite | vaultErase | vaultLock
  | doze | wake | resetEnable | reset | identify | descriptor
  deriving DecidableEq, Repr

/-- The code of a command. -/
def Command.code : Command → Byte
  | .arm => 0x1A
  | .disarm => 0x1B
  | .queryStatus => 0x1C
  | .readEvents => 0x2C
  | .clearEvents => 0x2D
  | .setEventEnable => 0x2E
  | .deviceInfo => 0x2F
  | .configureStream => 0x41
  | .openStream => 0x42
  | .closeStream => 0x43
  | .resetStream => 0x44
  | .streamInfo => 0x48
  | .segmentInfo => 0x49
  | .append => 0x56
  | .sync => 0x57
  | .fetch => 0x63
  | .ack => 0x64
  | .pushMark => 0x6C
  | .popMark => 0x6D
  | .rewind => 0x6E
  | .suspend => 0x73
  | .resume => 0x74
  | .deviceConfig => 0x79
  | .format => 0x7F
  | .readGuard => 0x8A
  | .writeGuard => 0x8B
  | .vaultRead => 0x8C
  | .vaultWrite => 0x8D
  | .vaultErase => 0x8E
  | .vaultLock => 0x8F
  | .doze => 0xD1
  | .wake => 0xD2
  | .resetEnable => 0xE5
  | .reset => 0xE6
  | .identify => 0xF3
  | .descriptor => 0xF4

/-- Every assigned command. -/
def Command.all : List Command :=
  [.arm, .disarm, .queryStatus, .readEvents, .clearEvents, .setEventEnable, .deviceInfo, .configureStream, .openStream,
   .closeStream, .resetStream, .streamInfo, .segmentInfo, .append, .sync, .fetch, .ack, .pushMark, .popMark, .rewind,
   .suspend, .resume, .deviceConfig, .format, .readGuard, .writeGuard, .vaultRead, .vaultWrite, .vaultErase, .vaultLock,
   .doze, .wake, .resetEnable, .reset, .identify, .descriptor]

/-- The command of a code; none where the code is unassigned. -/
def commandOf (b : Byte) : Option Command := Command.all.find? fun c => c.code == b

/-- The class of a command with its shape (chapter 1): an output command's argument bytes, or an action command's required
frame length, in bytes. -/
inductive Shape where
  | output (arguments : Nat)
  | action (length : Nat)
  /-- so many bytes more than the 2-byte field at bytes 3 and 4 says (APPEND) -/
  | appended (fixed : Nat)
  /-- so many bytes more than the 1-byte field at byte 3 says (VAULT WRITE) -/
  | written (fixed : Nat)
  deriving DecidableEq, Repr

/-- The class and shape of each command. -/
def Command.shape : Command → Shape
  | .arm => .action 1
  | .disarm => .action 1
  | .queryStatus => .output 0
  | .readEvents => .output 0
  | .clearEvents => .action 3
  | .setEventEnable => .action 3
  | .deviceInfo => .output 0
  | .configureStream => .action 9
  | .openStream => .action 2
  | .closeStream => .action 2
  | .resetStream => .action 2
  | .streamInfo => .output 2
  | .segmentInfo => .output 2
  | .append => .appended 5
  | .sync => .action 1
  | .fetch => .output 7
  | .ack => .action 6
  | .pushMark => .action 2
  | .popMark => .action 2
  | .rewind => .action 3
  | .suspend => .action 1
  | .resume => .action 1
  | .deviceConfig => .action 2
  | .format => .action 1
  | .readGuard => .output 0
  | .writeGuard => .action 4
  | .vaultRead => .output 2
  | .vaultWrite => .written 4
  | .vaultErase => .action 2
  | .vaultLock => .action 2
  | .doze => .action 1
  | .wake => .action 1
  | .resetEnable => .action 1
  | .reset => .action 1
  | .identify => .output 0
  | .descriptor => .output 0

/-! ### From the bytes of a frame to its row -/

/-- A 4-byte argument, most significant byte first. -/
def word32 (a b c d : Byte) : Word32 := (a ++ b ++ c ++ d : BitVec 32)

/-- The row of an action frame whose bytes after the code are `args`; none where their number is not the required one (R7). -/
def actionRow (guardHigh : Bool) (cut : Cut) : Command → List Byte → Option Instr
  | .arm, [] => some .arm
  | .disarm, [] => some .disarm
  | .clearEvents, [a, b] => some (.clearEvents (a ++ b))
  | .setEventEnable, [a, b] => some (.setEventEnable (a ++ b))
  | .configureStream, [s, p, q1, q0, h1, h0, t1, t0] =>
    some (.configureStream s p (q1 ++ q0) (h1 ++ h0) (t1 ++ t0) guardHigh)
  | .openStream, [s] => some (.openStream s guardHigh)
  | .closeStream, [s] => some (.closeStream s guardHigh)
  | .resetStream, [s] => some (.resetStream s guardHigh)
  | .append, s :: t :: l1 :: l0 :: payload =>
    if payload.length = (l1 ++ l0 : Word16).toNat then some (.append s t (l1 ++ l0) payload) else none
  | .sync, [] => some .sync
  | .ack, [s, a, b, c, d] => some (.ack s (word32 a b c d))
  | .pushMark, [s] => some (.pushMark s)
  | .popMark, [s] => some (.popMark s)
  | .rewind, [s, m] => some (.rewind s m)
  | .suspend, [] => some .suspend
  | .resume, [] => some .resume
  | .deviceConfig, [l] => some (.deviceConfig l guardHigh)
  | .format, [] => some (.format guardHigh)
  | .writeGuard, [m, l, f] => some (.writeGuard m l f guardHigh)
  | .vaultWrite, p :: o :: l :: data => if data.length = l.toNat then some (.vaultWrite p o l data) else none
  | .vaultErase, [p] => some (.vaultErase p)
  | .vaultLock, [p] => some (.vaultLock p)
  | .doze, [] => some .doze
  | .wake, [] => some .wake
  | .resetEnable, [] => some .resetEnable
  | .reset, [] => some (.reset cut)
  | _, _ => none

/-- The row of an output frame of `bytes` bytes whose bytes after the code are `args`; none where arguments are missing (R10).
-/
def outputRow (bytes : Nat) : Command → List Byte → Option Instr
  | .queryStatus, _ => some (.queryStatus bytes)
  | .readEvents, _ => some (.readEvents bytes)
  | .deviceInfo, _ => some (.deviceInfo bytes)
  | .streamInfo, s :: m :: _ => some (.streamInfo s m bytes)
  | .segmentInfo, a :: b :: _ => some (.segmentInfo (a ++ b) bytes)
  | .fetch, s :: f :: a :: b :: c :: d :: n :: _ => some (.fetch s f (word32 a b c d) n bytes)
  | .readGuard, _ => some (.readGuard bytes)
  | .vaultRead, p :: o :: _ => some (.vaultRead p o bytes)
  | .identify, _ => some (.identify bytes)
  | .descriptor, _ => some (.descriptor bytes)
  | _, _ => none

/-- The row that a frame's SEL high stands for (R1, R7, R8, R10, R11): its whole bytes, how many bits of a further byte came
after them, the GUARD pin's level, and how far the step in progress gets where the frame resets the device. -/
def decodeFrame (bytes : List Byte) (partialBits : Nat) (guardHigh : Bool) (cut : Cut) : Instr :=
  match bytes with
  | [] => if partialBits = 0 then .nullFrame else .discardedFrame 0
  | b :: args =>
    match commandOf b with
    | none => .unknownCommand (args.length + 1)
    | some c =>
      match outputRow (args.length + 1) c args with
      | some i => i
      | none =>
        if partialBits = 0 then (actionRow guardHigh cut c args).getD (.discardedFrame (args.length + 1))
        else .discardedFrame (args.length + 1)

/-! ### From a row to the bytes of its frame -/

/-- A 2-byte argument as bytes. -/
def bytes16 (w : Word16) : List Byte := [w.extractLsb' 8 8, w.extractLsb' 0 8]

/-- A 4-byte argument as bytes. -/
def bytes32 (w : Word32) : List Byte :=
  [w.extractLsb' 24 8, w.extractLsb' 16 8, w.extractLsb' 8 8, w.extractLsb' 0 8]

/-- An output frame of so many bytes, zeros clocked in after the arguments. -/
def outputBytes (c : Command) (args : List Byte) (bytes : Nat) : List Byte :=
  c.code :: (args ++ List.replicate (bytes - (args.length + 1)) 0)

/-- The bytes of the frame of a command's row; none for a row that is not one command's frame. -/
def encodeFrame : Instr → Option (List Byte)
  | .nullFrame => some []
  | .discardedFrame _ => none
  | .unknownCommand _ => none
  | .ignoredFrame => none
  | .arm => some [Command.arm.code]
  | .disarm => some [Command.disarm.code]
  | .queryStatus n => some (outputBytes .queryStatus [] n)
  | .readEvents n => some (outputBytes .readEvents [] n)
  | .clearEvents m => some (Command.clearEvents.code :: bytes16 m)
  | .setEventEnable e => some (Command.setEventEnable.code :: bytes16 e)
  | .deviceInfo n => some (outputBytes .deviceInfo [] n)
  | .configureStream s p q h t _ => some (Command.configureStream.code :: s :: p :: (bytes16 q ++ bytes16 h ++ bytes16 t))
  | .openStream s _ => some [Command.openStream.code, s]
  | .closeStream s _ => some [Command.closeStream.code, s]
  | .resetStream s _ => some [Command.resetStream.code, s]
  | .streamInfo s m n => some (outputBytes .streamInfo [s, m] n)
  | .segmentInfo k n => some (outputBytes .segmentInfo (bytes16 k) n)
  | .append s t l payload => some (Command.append.code :: s :: t :: (bytes16 l ++ payload))
  | .sync => some [Command.sync.code]
  | .fetch s f w c n => some (outputBytes .fetch (s :: f :: (bytes32 w ++ [c])) n)
  | .ack s q => some (Command.ack.code :: s :: bytes32 q)
  | .pushMark s => some [Command.pushMark.code, s]
  | .popMark s => some [Command.popMark.code, s]
  | .rewind s m => some [Command.rewind.code, s, m]
  | .suspend => some [Command.suspend.code]
  | .resume => some [Command.resume.code]
  | .deviceConfig l _ => some [Command.deviceConfig.code, l]
  | .format _ => some [Command.format.code]
  | .readGuard n => some (outputBytes .readGuard [] n)
  | .writeGuard m l f _ => some [Command.writeGuard.code, m, l, f]
  | .vaultRead p o n => some (outputBytes .vaultRead [p, o] n)
  | .vaultWrite p o l data => some (Command.vaultWrite.code :: p :: o :: l :: data)
  | .vaultErase p => some [Command.vaultErase.code, p]
  | .vaultLock p => some [Command.vaultLock.code, p]
  | .doze => some [Command.doze.code]
  | .wake => some [Command.wake.code]
  | .resetEnable => some [Command.resetEnable.code]
  | .reset _ => some [Command.reset.code]
  | .identify n => some (outputBytes .identify [] n)
  | .descriptor n => some (outputBytes .descriptor [] n)
  | .powerOn => none
  | .powerLoss _ => none
  | .recoveryComplete => none
  | .wakePhaseEnd => none
  | .commitSealStep _ => none
  | .commitFreeStageStep _ => none
  | .commitOpenStep _ => none
  | .commitOpenRetireStep _ => none
  | .commitRecordStep _ => none
  | .commitCloseStep _ => none
  | .reclaimErasePulse _ => none
  | .reclaimFreeStageStep _ => none
  | .reclaimRetireStep _ => none
  | .ledgerImageUnitStep _ => none
  | .ledgerNoteStep _ => none
  | .ledgerAnchorErasePulse _ => none
  | .vaultWriteByteStep _ => none
  | .vaultErasePulse _ => none
  | .vaultLockStep _ => none
  | .formatErasePulse _ => none
  | .formatFreeStageStep _ => none
  | .formatRetireStep _ => none
  | .formatAnchorErasePulse _ => none
  | .formatImageUnitStep _ => none
  | .statusCapture => none
  | .verdict _ => none

/-- The level of the GUARD pin in a row; high where the row does not read it. -/
def Instr.guardLevel : Instr → Bool
  | .configureStream _ _ _ _ _ g => g
  | .openStream _ g => g
  | .closeStream _ g => g
  | .resetStream _ g => g
  | .deviceConfig _ g => g
  | .format g => g
  | .writeGuard _ _ _ g => g
  | _ => true

/-- The cut of a row; nothing where the row cuts no step short. -/
def Instr.cutOf : Instr → Cut
  | .reset cut => cut
  | _ => { pulses := [], residue := none, lockCell := false }

end Sys2Proof
end

