-- ==== Sys2Proof/Machine/Bytes.lean ====
section
/-! DEFINITION. Byte order (most significant byte first, 00_scope "Conventions"), the 16-bit check of R92, and tables built
from a function. -/

namespace Sys2Proof.Machine

open Sys2Proof

/-- The low byte of a number. -/
def byteOf (n : Nat) : Byte := BitVec.ofNat 8 n

/-- A two-byte field, most significant byte first. -/
def be16 (n : Nat) : List Byte := [byteOf (n / 256), byteOf n]

/-- A three-byte field. -/
def be24 (n : Nat) : List Byte := [byteOf (n / 65536), byteOf (n / 256), byteOf n]

/-- A four-byte field. -/
def be32 (n : Nat) : List Byte := [byteOf (n / 16777216), byteOf (n / 65536), byteOf (n / 256), byteOf n]

/-- The number that a field's bytes hold, most significant byte first. -/
def fromBE (bs : List Byte) : Nat := bs.foldl (fun a b => a * 256 + b.toNat) 0

/-- One bit of the check (R92): polynomial 1021h. -/
def crcBit (c : Word16) : Word16 := if c.msb then (c <<< 1) ^^^ 0x1021 else c <<< 1

/-- So many bits of the check. -/
def crcBits : Nat → Word16 → Word16
  | 0, c => c
  | n + 1, c => crcBits n (crcBit c)

/-- One byte of the check, most significant bit first. -/
def crcByte (c : Word16) (b : Byte) : Word16 := crcBits 8 (c ^^^ (b.zeroExtend 16 <<< 8))

/-- The 16-bit check of R92: initial value FFFFh, no final inversion. -/
def crc16 (bs : List Byte) : Nat := (bs.foldl crcByte 0xFFFF).toNat

/-- The table whose entry `i` is `f i`. -/
def tabulate {α : Type} {n : Nat} (f : Fin n → α) : Vector α n := ⟨⟨List.ofFn f⟩, by simp⟩

/-- A signed 16-bit offset in two's complement (R70). -/
def signed16 (n : Nat) : Int := (BitVec.ofNat 16 n).toInt

end Sys2Proof.Machine
end

