-- ==== Sys2Proof/Machine/State.lean ====
section
/-! DEFINITION. Everything the spec gives the device to hold, as plain data, with the machine right after power-on. -/

namespace Sys2Proof.Machine

open Sys2Proof

/-! ### Power and the host port (chapters 1 and 8) -/

/-- The power states (R146). -/
inductive PowerState where
  | off | recovering | active | dozing | waking
  deriving DecidableEq, Repr

/-- The frame states (R3). -/
inductive FrameState where
  | idle | receivingCommand | receivingArguments | outputting | discarding
  deriving DecidableEq, Repr

/-- The outcomes (R14, R15 and the outcome code table). -/
inductive OutcomeCode where
  | done | unknownCommand | frameLength | badArgument | notArmed | notEnabled | recovering
  | noStream | wrongState | stageFull | quotaFull | poolEmpty | expired | notYet | markEmpty
  | guarded | busy | notSuspendable | notSuspended | ledgerHalted | vaultLocked
  deriving DecidableEq, Repr

/-- What an output frame fixed when its verdict was formed (R9). -/
structure Snapshot where
  command : OutputCommand
  verdict : OutcomeCode
  /-- the output data after the verdict -/
  data : List Byte
  /-- VAULT READ keeps cycling through its data (R181) -/
  cyclic : Bool
  /-- FETCH: the start sequence (R72) -/
  start : Nat
  /-- FETCH: for each delivered record, how many bytes of `data` are out when its last byte is (R78) -/
  recordEnds : List Nat
  /-- STREAM INFO: the notices shown (R48) -/
  notices : Byte
  deriving DecidableEq, Repr

/-- The host port (chapter 1). -/
structure Port where
  frameState : FrameState
  byteCounter : Nat
  /-- the status byte captured when SEL fell (R5) -/
  statusByte : Byte
  /-- the outcome byte captured when SEL fell (R6) -/
  outcomeByte : Byte
  /-- the verdict of the present frame, once formed (R9) -/
  snapshot : Option Snapshot
  armLatch : Bool
  resetEnable : Bool
  outcome : OutcomeCode
  /-- stream and sequence of the last accepted APPEND (R16) -/
  receipt : Option (StreamId × Nat)
  /-- the model's own (log 11): SEL is low in a frame that the device ignores (R24, R25) -/
  frameIgnored : Bool
  /-- the model's own (log 7): the bytes that the last processed frame shifted out (R4) -/
  sout : List Byte
  deriving DecidableEq, Repr

/-! ### The stream table (chapter 2) -/

/-- The stream states (R30). -/
inductive StreamState where
  | idle | opened | sealed | faulted
  deriving DecidableEq, Repr

/-- The policies (R39). -/
inductive Policy where
  | block | wrap
  deriving DecidableEq, Repr

/-- A stream record (R26). Sequences and epochs are the 32-bit numbers they stand for. The staged count is computed from the
staging buffer (R29), the append lock is held in the guard. -/
structure Stream where
  state : StreamState
  preFault : StreamState
  epoch : Nat
  policy : Policy
  quota : Nat
  highWater : Nat
  backlog : Nat
  nextSeq : Nat
  lastCommitted : Nat
  volatileFrontier : Nat
  durableFrontier : Nat
  cursor : Nat
  /-- the mark stack, top first (R85) -/
  marks : List Nat
  /-- the chain, oldest first (R99) -/
  chain : List DataSeg
  reserved : Nat
  notices : Byte
  overrun : Nat
  /-- the held side is at-or-above (R167) -/
  heldAtOrAbove : Bool
  /-- the unread side is above (R167) -/
  unreadAbove : Bool
  deriving DecidableEq, Repr

/-! ### The staging buffer (chapter 3) -/

/-- Where a staged entry is to go (R51), or that it awaits a replacement (R119). -/
inductive Placement where
  | current | new | awaiting
  deriving DecidableEq, Repr

/-- A staged entry (R51); the payload length is the length of the payload. -/
structure Entry where
  stream : StreamId
  seq : Nat
  tag : Byte
  payload : List Byte
  placement : Placement
  deriving DecidableEq, Repr

/-! ### The record store (chapter 5) -/

/-- The places of a data segment (R97). -/
inductive Location where
  | pool | chain | release | reclaim | erasing | retired
  deriving DecidableEq, Repr

/-- The header states of the segment table (R97). -/
inductive HeaderState where
  | free | opened | sealed | retirePending | retired | invalid | blank
  deriving DecidableEq, Repr

/-- A release condition (R101): the frontier to reach, or the epoch an image must hold. -/
inductive ReleaseCond where
  | frontier (seq : Nat)
  | image (epoch : Nat)
  deriving DecidableEq, Repr

/-- An entry of the segment table (R97). `epoch`, `first` and `last` have a meaning while `owner` is present. -/
structure Segment where
  location : Location
  header : HeaderState
  poisoned : Bool
  owner : Option StreamId
  epoch : Nat
  first : Nat
  last : Nat
  bytesUsed : Nat
  /-- `none`: unknown (R104) -/
  eraseCount : Option Nat
  release : Option ReleaseCond
  deriving DecidableEq, Repr

/-! ### The job engine (chapter 6) -/

/-- The engine states (R108). -/
inductive EngineState where
  | idle | running | suspendPending | suspended
  deriving DecidableEq, Repr

/-- The next step of a COMMIT job for the head entry (R114 to R119). -/
inductive CommitStep where
  | seal
  | freeStage
  | openStage
  /-- the retire write of a segment whose opening failed (R117) -/
  | openRetire (seg : DataSeg)
  | record
  /-- the RETIRE_PENDING write of a segment whose record program failed (R119) -/
  | close (seg : DataSeg)
  deriving DecidableEq, Repr

/-- The next step of an erase with its disposal (R123 to R125), in a RECLAIM job and for each segment of a FORMAT job. -/
inductive ErasePhase where
  /-- an erase pulse, so many applied already -/
  | pulse (applied : Nat)
  /-- the free stage with the new erase count -/
  | freeStage (count : Nat)
  /-- the retire stage with its cause (R92), and whether the erase had succeeded (R124) or failed (R125) -/
  | retire (cause : Byte) (erased : Bool)
  deriving DecidableEq, Repr

/-- What a LEDGER job is writing (R137, R142). -/
inductive LedgerWork where
  | note (stream : StreamId)
  | image
  /-- erasing the target of a compaction: the attempt (1 or 2) and the pulses applied -/
  | compactErase (target : AnchorSeg) (attempt applied : Nat)
  /-- the next step captures the attempt's image and writes its part 0 -/
  | compactCapture (target : AnchorSeg) (attempt : Nat)
  /-- the captured image of the attempt is partly written -/
  | compactImage (target : AnchorSeg) (attempt : Nat)
  deriving DecidableEq, Repr

/-- What a VAULT job is doing (R183). -/
inductive VaultWork where
  /-- the bytes still to program, the first of them at the offset -/
  | write (page : Fin 4) (offset : Nat) (data : List Byte)
  | erase (page : Fin 4) (applied : Nat)
  | lock (page : Fin 4)
  deriving DecidableEq, Repr

/-- What a FORMAT job is doing (R157, R158). -/
inductive FormatWork where
  | segment (seg : DataSeg) (phase : ErasePhase)
  /-- erasing anchor segment 1 -/
  | anchorErase (applied : Nat)
  /-- erasing anchor segment 0, the target of FORMAT's compaction -/
  | compactErase (attempt applied : Nat)
  | compactCapture (attempt : Nat)
  | compactImage (attempt : Nat)
  deriving DecidableEq, Repr

/-- The current job with its progress (R108, R109). -/
inductive Job where
  | ledger (work : LedgerWork)
  | commit (step : CommitStep)
  | reclaim (seg : DataSeg) (phase : ErasePhase)
  | vault (work : VaultWork)
  /-- `started`: the job has completed a step (R157) -/
  | format (started : Bool) (work : FormatWork)
  deriving DecidableEq, Repr

/-- The job engine (R108). -/
structure Engine where
  state : EngineState
  job : Option Job
  /-- the preempted RECLAIM slot: segment and pulses applied (R126) -/
  preempted : Option (DataSeg × Nat)
  resumeLock : Bool
  deriving DecidableEq, Repr

/-! ### The anchor ledger (chapter 7) and the guard (chapter 10) -/

/-- The lock modes (R175). -/
inductive LockMode where
  | opened | pin | session | permanent
  deriving DecidableEq, Repr

/-- The guard in its two copies (R175); the append locks and the format inhibit are the same value in both. -/
structure Guard where
  working : LockMode
  anchored : LockMode
  appendLocks : Byte
  formatInhibit : Bool
  deriving DecidableEq, Repr

/-- A stream's anchored fields in an image (R132). -/
structure StreamImage where
  state : StreamState
  policy : Policy
  quota : Nat
  highWater : Nat
  backlog : Nat
  epoch : Nat
  frontier : Nat
  deriving DecidableEq, Repr

/-- The content of an image (R132). -/
structure ImageContent where
  streams : Vector StreamImage 8
  lockMode : LockMode
  appendLocks : Byte
  formatInhibit : Bool
  lowWater : Nat
  anchorErases : Vector Nat 2
  deriving DecidableEq, Repr

/-- An image in progress (R138): what was captured, its generation, and the part to write next. -/
structure Captured where
  content : ImageContent
  generation : Word32
  part : Nat
  deriving DecidableEq, Repr

/-- The ledger's volatile state (R135). -/
structure Ledger where
  current : Option AnchorSeg
  nextFree : Nat
  generation : Word32
  imageNeeded : Bool
  pendingNotes : Vector Bool 8
  captured : Option Captured
  anchorErases : Vector Nat 2
  halted : Bool
  deriving DecidableEq, Repr

/-- An item of the sync point (R65, R66). -/
inductive SyncItem where
  | staged (stream : StreamId) (epoch seq : Nat)
  | frontier (stream : StreamId) (epoch seq : Nat)
  /-- a frontier item that RESET STREAM replaced by a wait for the image with the new epoch (R44) -/
  | epochImage (stream : StreamId) (epoch : Nat)
  /-- the first image begun after the SYNC (R65) -/
  | nextImage
  /-- the image in progress (R65), which restarts and compactions do not change (R140) -/
  | currentImage
  deriving DecidableEq, Repr

/-! ### The device -/

/-- The device. -/
structure State where
  power : PowerState
  port : Port
  streams : Vector Stream 8
  /-- the staging buffer in arrival order (R51) -/
  staging : List Entry
  /-- the segment table (R97) -/
  segments : Vector Segment 510
  /-- the free pool, head first (R98) -/
  pool : List DataSeg
  /-- the reclaim queue, head first (R102) -/
  reclaim : List DataSeg
  engine : Engine
  ledger : Ledger
  /-- the sync point: its items not yet satisfied (R65) -/
  sync : Option (List SyncItem)
  eventLatch : BitVec 16
  eventEnable : BitVec 16
  /-- the pool side is below (R167) -/
  poolBelow : Bool
  guard : Guard
  /-- the pool low-water (R107) -/
  lowWater : Nat
  /-- the volatile copy of the lock cells (R182) -/
  vaultLocks : Vector Bool 4
  /-- the array: strictly rising addresses, an unlisted byte reads FFh (R91) -/
  array : List Host.Cell
  /-- the vault pages (R181) -/
  vault : Vector (Vector Byte 128) 4
  /-- the lock cells: programmed or not (R182) -/
  lockCells : Vector Bool 4
  /-- the model's own (log 12): which draw of free values comes next -/
  freeIndex : Nat
  /-- the model's own: the commands that wait, first in, first out -/
  pending : List Instr
  deriving DecidableEq, Repr

/-- Why the machine stops with a fault. -/
inductive Fault where
  /-- Raised by COMMIT_RECORD_STEP alone, where the head entry's footprint passes the end of the record area of the segment it
  would be programmed into. R96 excludes it: "The COMMIT job places a record into a segment only if its footprint fits".
  SAFE: no run from reset reaches it (log 26). -/
  | recordPastSegment
  deriving DecidableEq, Repr

/-- Why a command has no meaning. -/
inductive Refusal where
  /-- Raised by an arm of `exec` whose command has no meaning yet; no arm is so. SAFE: the machine stops. -/
  | notModelled (mnemonic : String)
  deriving DecidableEq, Repr

/-! ### Reset -/

/-- The port after power-on (R21, R162). -/
def Port.reset : Port where
  frameState := .idle
  byteCounter := 0
  statusByte := 0
  outcomeByte := 0
  snapshot := none
  armLatch := false
  resetEnable := false
  outcome := .done
  receipt := none
  frameIgnored := false
  sout := []

/-- A stream record with the values of FORMAT (R27); also the placeholder of a stream table that is "empty, pending the
scan" (R147, log 10). -/
def Stream.formatted : Stream where
  state := .idle
  preFault := .idle
  epoch := 0
  policy := .block
  quota := 16
  highWater := 16
  backlog := 0
  nextSeq := 1
  lastCommitted := 0
  volatileFrontier := 0
  durableFrontier := 0
  cursor := 1
  marks := []
  chain := []
  reserved := 0
  notices := 0
  overrun := 0
  heldAtOrAbove := false
  unreadAbove := false

/-- The placeholder of a segment table that is "empty, pending the scan" (R147, log 10). -/
def Segment.unscanned : Segment where
  location := .pool
  header := .blank
  poisoned := false
  owner := none
  epoch := 0
  first := 0
  last := 0
  bytesUsed := 0
  eraseCount := none
  release := none

/-- The engine after power-on (R108). -/
def Engine.reset : Engine where
  state := .idle
  job := none
  preempted := none
  resumeLock := false

/-- The ledger before the scan has found a current segment (R135). -/
def Ledger.reset : Ledger where
  current := none
  nextFree := 0
  generation := 0
  imageNeeded := false
  pendingNotes := Vector.replicate 8 false
  captured := none
  anchorErases := Vector.replicate 2 0
  halted := false

/-- The guard of R145, in force until the scan completes (log 10). -/
def Guard.default : Guard where
  working := .opened
  anchored := .opened
  appendLocks := 0
  formatInhibit := false

/-- The machine right after power-on (R147, R162): every volatile item at its reset value, the power state RECOVERING, the
array erased (log 9), the vault as it leaves the factory (R182), no command waiting. -/
def State.reset : State where
  power := .recovering
  port := Port.reset
  streams := Vector.replicate 8 Stream.formatted
  staging := []
  segments := Vector.replicate 510 Segment.unscanned
  pool := []
  reclaim := []
  engine := Engine.reset
  ledger := Ledger.reset
  sync := none
  eventLatch := 0
  eventEnable := 0
  poolBelow := false
  guard := Guard.default
  lowWater := 8
  vaultLocks := Vector.replicate 4 false
  array := []
  vault := Vector.replicate 4 (Vector.replicate 128 0xFF)
  lockCells := Vector.replicate 4 false
  freeIndex := 0
  pending := []

end Sys2Proof.Machine
end

