-- ==== Sys2Proof/Machine/Flags.lean ====
section
/-! DEFINITION. Events, notices, sides, and the status byte: every flag the spec has the device compute. -/

namespace Sys2Proof.Machine

open Sys2Proof

/-! ### Access to the tables -/

/-- A change of one stream record. -/
def State.updStream (s : State) (i : StreamId) (f : Stream → Stream) : State :=
  { s with streams := s.streams.set i.val (f s.streams[i]) }

/-- A change of one segment table entry. -/
def State.updSegment (s : State) (k : DataSeg) (f : Segment → Segment) : State :=
  { s with segments := s.segments.set k.val (f s.segments[k]) }

/-- The staged entries of a stream, oldest first (R51). -/
def State.stagedOf (s : State) (i : StreamId) : List Entry := s.staging.filter fun e => e.stream == i

/-- The staged count of a stream (R26, R29 relation 3). -/
def State.stagedCount (s : State) (i : StreamId) : Nat := (s.stagedOf i).length

/-- held (R28): chain length plus reserved. -/
def Stream.held (t : Stream) : Nat := t.chain.length + t.reserved

/-- unread (R28): last committed − cursor + 1. -/
def Stream.unread (t : Stream) : Nat := t.lastCommitted + 1 - t.cursor

/-- The reservations of all streams. -/
def State.totalReserved (s : State) : Nat := (s.streams.toList.map fun t => t.reserved).sum

/-- available (R57): the free pool's length minus every reservation. It can fall below 0. -/
def State.available (s : State) : Int := (s.pool.length : Int) - (s.totalReserved : Int)

/-- The data segments at a place, in ascending index order. -/
def State.segmentsAt (s : State) (l : Location) : List DataSeg := (List.finRange 510).filter fun k => s.segments[k].location == l

/-! ### Events and notices (R45, R163, R165) -/

/-- The sixteen events (R165). -/
inductive Event where
  | syncDone | highWater | drained | quotaHit | overrun | poolLow | poolEmpty | markLost
  | segmentRetired | streamFault | sequenceEnd | recoveryDone | tornFound | anchorFault | frameError | ledgerHalt
  deriving DecidableEq, Repr

/-- The bit of an event (R165). -/
def Event.bit : Event → Nat
  | .syncDone => 0
  | .highWater => 1
  | .drained => 2
  | .quotaHit => 3
  | .overrun => 4
  | .poolLow => 5
  | .poolEmpty => 6
  | .markLost => 7
  | .segmentRetired => 8
  | .streamFault => 9
  | .sequenceEnd => 10
  | .recoveryDone => 11
  | .tornFound => 12
  | .anchorFault => 13
  | .frameError => 14
  | .ledgerHalt => 15

/-- The eight notices (R45). -/
inductive Notice where
  | highWater | drained | quotaHit | overrun | markLost | sequenceEnd | fault | torn
  deriving DecidableEq, Repr

/-- The bit of a notice (R45). -/
def Notice.bit : Notice → Nat
  | .highWater => 0
  | .drained => 1
  | .quotaHit => 2
  | .overrun => 3
  | .markLost => 4
  | .sequenceEnd => 5
  | .fault => 6
  | .torn => 7

/-- Raise an event: its latch bit is set (R163). -/
def State.raise (e : Event) (s : State) : State := { s with eventLatch := s.eventLatch ||| (1#16 <<< e.bit) }

/-- Raise an event where a condition holds. -/
def State.raiseIf (b : Bool) (e : Event) (s : State) : State := if b then s.raise e else s

/-- Set a notice of a stream (R45). -/
def State.notify (i : StreamId) (n : Notice) (s : State) : State :=
  s.updStream i fun t => { t with notices := t.notices ||| (1#8 <<< n.bit) }

/-- ALERT is driven low while an event is both pending and enabled (R164). -/
def State.alertLow (s : State) : Bool := s.eventLatch &&& s.eventEnable != 0

/-! ### Sides and crossings (R167 to R171) -/

/-- The held side as the counts and limits stand. -/
def Stream.heldSide (t : Stream) : Bool := decide (t.highWater ≤ t.held)

/-- The unread side as the counts and limits stand. -/
def Stream.unreadSide (t : Stream) : Bool := decide (t.backlog < t.unread)

/-- The pool side as the counts and limits stand: whether available is below the low-water. -/
def State.poolSide (s : State) : Bool := decide (s.available < (s.lowWater : Int))

/-- Evaluate the held side of a stream (R167, R168): HIGH_WATER on arriving at-or-above. -/
def State.evalHeld (i : StreamId) (s : State) : State :=
  let s' := s.updStream i fun t => { t with heldAtOrAbove := t.heldSide }
  if s.streams[i].heldSide && !s.streams[i].heldAtOrAbove then (s'.notify i .highWater).raise .highWater else s'

/-- Evaluate the unread side of a stream (R167, R169): DRAINED on arriving at-or-below. -/
def State.evalUnread (i : StreamId) (s : State) : State :=
  let s' := s.updStream i fun t => { t with unreadAbove := t.unreadSide }
  if !s.streams[i].unreadSide && s.streams[i].unreadAbove then (s'.notify i .drained).raise .drained else s'

/-- Evaluate the pool side at the end of an action that found `before` available (R167, R170): nothing where the count has
not changed, POOL_LOW on arriving below. -/
def State.evalPool (before : Int) (s : State) : State :=
  if s.available = before then s
  else
    let s' := { s with poolBelow := s.poolSide }
    if s.poolSide && !s.poolBelow then s'.raise .poolLow else s'

/-- Set the two sides of a stream from its counts, raising nothing (R171). -/
def State.setStreamSides (i : StreamId) (s : State) : State :=
  s.updStream i fun t => { t with heldAtOrAbove := t.heldSide, unreadAbove := t.unreadSide }

/-- Set the pool side, raising nothing (R171). -/
def State.setPoolSide (s : State) : State := { s with poolBelow := s.poolSide }

/-- Set every side, raising nothing (R171). -/
def State.setAllSides (s : State) : State :=
  State.setPoolSide
    { s with streams := tabulate fun i =>
        { s.streams[i] with heldAtOrAbove := s.streams[i].heldSide, unreadAbove := s.streams[i].unreadSide } }

/-! ### The status byte (R5) and the outcome codes -/

/-- The engine is RUNNING or SUSPEND_PENDING. -/
def Engine.runs (e : Engine) : Bool := e.state == .running || e.state == .suspendPending

/-- Some stream is FAULTED. -/
def State.anyFaulted (s : State) : Bool := s.streams.toList.any fun t => t.state == .faulted

/-- The status byte (R5). -/
def State.statusByte (s : State) : Byte :=
  if s.power = .recovering then 0x40
  else
    (if s.anyFaulted || s.ledger.halted then 0x80 else 0)
      ||| (if s.port.resetEnable then 0x20 else 0)
      ||| (if s.alertLow then 0x10 else 0)
      ||| (if s.port.armLatch then 0x08 else 0)
      ||| (if s.staging.isEmpty then 0 else 0x04)
      ||| (if s.engine.state = .suspended then 0x02 else 0)
      ||| (if s.engine.runs then 0x01 else 0)

/-- The outcome code table of chapter 1. -/
def OutcomeCode.byte : OutcomeCode → Byte
  | .done => 0x00
  | .unknownCommand => 0x10
  | .frameLength => 0x11
  | .badArgument => 0x12
  | .notArmed => 0x13
  | .notEnabled => 0x14
  | .recovering => 0x15
  | .noStream => 0x20
  | .wrongState => 0x21
  | .stageFull => 0x22
  | .quotaFull => 0x23
  | .poolEmpty => 0x24
  | .expired => 0x25
  | .notYet => 0x26
  | .markEmpty => 0x27
  | .guarded => 0x30
  | .busy => 0x31
  | .notSuspendable => 0x32
  | .notSuspended => 0x33
  | .ledgerHalted => 0x34
  | .vaultLocked => 0x40

/-- The outcomes that raise FRAME_ERROR (R12 step 5). -/
def OutcomeCode.isFrameError : OutcomeCode → Bool
  | .unknownCommand => true
  | .frameLength => true
  | _ => false

end Sys2Proof.Machine
end

