-- ==== Sys2Proof/Machine/Memory.lean ====
section
/-! DEFINITION. The array as a canonical list of bytes (R91), and the two ways a job step changes it: a program sequence and
an erase pulse (R110). -/

namespace Sys2Proof.Machine

open Sys2Proof

/-- The array: (address, byte) pairs. -/
abbrev Memory := List Host.Cell

/-- What an unlisted byte reads as: the erased value (R91; log 9). -/
def erasedByte : Byte := 0xFF

/-- Every listed address is above `a`, and they rise strictly. -/
def Memory.risesFrom : Nat → Memory → Bool
  | _, [] => true
  | a, (b, _) :: m => decide (a ≤ b) && Memory.risesFrom (b + 1) m

/-- The canonical form: addresses strictly rising and inside the array, no listed byte equal to the erased value. -/
def Memory.wf (m : Memory) : Bool :=
  Memory.risesFrom 0 m && m.all fun c => decide (c.1 < Config.arrayBytes) && c.2 != erasedByte

/-- The byte at an address. -/
def readByte : Memory → Nat → Byte
  | [], _ => erasedByte
  | (b, w) :: m, a => if b = a then w else readByte m a

/-- Insert, replace or remove the entry of an address, keeping the canonical form. -/
def insertByte (a : Nat) (v : Byte) : Memory → Memory
  | [] => if v = erasedByte then [] else [(a, v)]
  | (b, w) :: m =>
    if a < b then (if v = erasedByte then (b, w) :: m else (a, v) :: (b, w) :: m)
    else if a = b then (if v = erasedByte then m else (a, v) :: m)
    else (b, w) :: insertByte a v m

/-- The byte at an address takes a value. There is no cell outside the array (R91), and nothing changes there. -/
def writeByte (m : Memory) (a : Nat) (v : Byte) : Memory :=
  if a < Config.arrayBytes then insertByte a v m else m

/-- So many bytes from an address on. -/
def readBytes (m : Memory) (a : Nat) : Nat → List Byte
  | 0 => []
  | n + 1 => readByte m a :: readBytes m (a + 1) n

/-! ### Erase pulses -/

/-- The address of a segment's first byte (R91), by its index. -/
def segmentBase (index : Nat) : Nat := index * Config.segmentBytes

/-- The listed bytes of one segment. -/
def segmentCells (m : Memory) (index : Nat) : Memory := m.filter fun c => c.1 / Config.segmentBytes == index

/-- Every byte of the segment reads FFh: the check of an erase pulse (R110). -/
def segmentErased (m : Memory) (index : Nat) : Bool := (segmentCells m index).all fun c => c.2 == erasedByte

/-- The bytes that an erase pulse leaves programmed. -/
def writeResidue (base : Nat) : Residue → Memory → Memory
  | [], m => m
  | (o, v) :: r, m => writeResidue base r (if o < Config.segmentBytes then writeByte m (base + o) v else m)

/-- One erase pulse on a whole segment (R110): every byte FFh but for the residue. -/
def erasePulse (m : Memory) (index : Nat) (residue : Residue) : Memory :=
  writeResidue (segmentBase index) residue (m.filter fun c => c.1 / Config.segmentBytes != index)

/-! ### Program sequences -/

/-- An item that a program sequence writes (R110): the bytes of its body and of its mark, with their addresses. -/
structure Item where
  body : Memory
  mark : Memory
  deriving DecidableEq, Repr

/-- One pulse on some cells: each bit that should read 0 is cleared, unless it resists this pulse. -/
def pulseCells : Memory → List Host.Cell → List Byte → Memory
  | m, [], _ => m
  | m, (a, t) :: cs, resist =>
    pulseCells (writeByte m a (readByte m a &&& (t ||| resist.headD 0))) cs resist.tail

/-- The cells read as they should: the verify of R110. -/
def verifyCells (m : Memory) (cells : List Host.Cell) : Bool := cells.all fun c => readByte m c.1 == c.2

/-- A program sequence with so many pulses left, and whether its body has verified (R110). -/
def programLoop (item : Item) : Nat → Bool → Memory → Pulses → Memory × Bool
  | 0, _, m, _ => (m, false)
  | n + 1, false, m, ps =>
    programLoop item n (verifyCells (pulseCells m item.body (ps.headD [])) item.body)
      (pulseCells m item.body (ps.headD [])) ps.tail
  | n + 1, true, m, ps =>
    if verifyCells (pulseCells m item.mark (ps.headD [])) item.mark then (pulseCells m item.mark (ps.headD []), true)
    else programLoop item n true (pulseCells m item.mark (ps.headD [])) ps.tail

/-- A program sequence of at most four pulses (R110), with what it leaves in the array and whether it succeeded. -/
def program (m : Memory) (item : Item) (pulses : Pulses) : Memory × Bool :=
  programLoop item Config.programPulses false m pulses

/-- A program sequence cut short after the pulses given (R159). -/
def cutLoop (item : Item) : Bool → Memory → Pulses → Memory
  | _, m, [] => m
  | false, m, p :: ps => cutLoop item (verifyCells (pulseCells m item.body p) item.body) (pulseCells m item.body p) ps
  | true, m, p :: ps =>
    if verifyCells (pulseCells m item.mark p) item.mark then pulseCells m item.mark p
    else cutLoop item true (pulseCells m item.mark p) ps

/-- What a program sequence leaves that a power loss cuts short (R159): at most four pulses, the last perhaps in part. -/
def cutProgram (m : Memory) (item : Item) (pulses : Pulses) : Memory :=
  cutLoop item false m (pulses.take Config.programPulses)

/-- A vault byte under program pulses (R183): it stops when the byte verifies, or after so many pulses. -/
def programVaultByte (target : Byte) : Nat → Byte → List Byte → Byte
  | 0, v, _ => v
  | n + 1, v, ps =>
    if v = target then v else programVaultByte target n (v &&& (target ||| ps.headD 0)) ps.tail

/-- A vault byte under the pulses given, and no more (R159). -/
def cutVaultByte (target : Byte) : Byte → List Byte → Byte
  | v, [] => v
  | v, p :: ps => if v = target then v else cutVaultByte target (v &&& (target ||| p)) ps

/-- The bytes as cells from an address on. -/
def cellsAt (a : Nat) : List Byte → List Host.Cell
  | [] => []
  | b :: bs => (a, b) :: cellsAt (a + 1) bs

end Sys2Proof.Machine
end

