-- ==== Sys2Proof/Machine/Layout.lean ====
section
/-! DEFINITION. What stands in the array: header stages (R92), records (R95), anchor units, images and frontier notes (R131
to R133), as items to program and as bytes to read back (R93, R95, R134). -/

namespace Sys2Proof.Machine

open Sys2Proof

/-! ### Header stages (R92) -/

/-- A stage as an item: its fields from their offset on, its check after them, then its mark (R92). -/
def stageItem (index : Nat) (offset : Nat) (fields : List Byte) (markOffset : Nat) : Item where
  body := cellsAt (segmentBase index + offset) (fields ++ be16 (crc16 fields))
  mark := [(segmentBase index + markOffset, 0)]

/-- The free stage: the erase count. An unknown count is written FFFFFFh, the value that stands for it (R104). -/
def freeStageItem (k : DataSeg) (count : Option Nat) : Item :=
  stageItem k.index 5 (be24 (count.getD 0xFFFFFF)) 0

/-- The open stage: owner, epoch, first sequence. -/
def openStageItem (k : DataSeg) (owner : StreamId) (epoch first : Nat) : Item :=
  stageItem k.index 10 (byteOf owner.val :: (be32 epoch ++ be32 first)) 1

/-- The close stage with the SEALED mark: last sequence, bytes used. -/
def sealItem (k : DataSeg) (last used : Nat) : Item := stageItem k.index 21 (be32 last ++ be16 used) 2

/-- The close stage with the RETIRE_PENDING mark. -/
def retirePendingItem (k : DataSeg) (last used : Nat) : Item := stageItem k.index 21 (be32 last ++ be16 used) 3

/-- The retire stage: the cause. -/
def retireItem (k : DataSeg) (cause : Byte) : Item := stageItem k.index 29 [cause] 4

/-- Retire causes (R92). -/
def causeWearOut : Byte := 0x01
@[inherit_doc causeWearOut] def causeEraseFailure : Byte := 0x02
@[inherit_doc causeWearOut] def causeOpeningFailure : Byte := 0x03

/-! ### Records (R52, R95) -/

/-- The footprint of a payload of so many bytes (R52). -/
def footprint (len : Nat) : Nat := 12 + (len + 3) / 4 * 4

/-- The fields that the record check covers, but for the payload (R95). -/
def recordFields (stream : StreamId) (seq : Nat) (tag : Byte) (len : Nat) : List Byte :=
  be16 len ++ [byteOf stream.val, tag] ++ be32 seq

/-- A staged entry as the item that the record step programs at an address (R95, R118). -/
def recordItem (a : Nat) (e : Entry) : Item where
  body := cellsAt a (recordFields e.stream e.seq e.tag e.payload.length
      ++ be16 (crc16 (recordFields e.stream e.seq e.tag e.payload.length ++ e.payload)))
    ++ cellsAt (a + 12) e.payload
  mark := cellsAt (a + 10) [0, 0]

/-- The address of a record area offset of a data segment (R91). -/
def recordAddr (k : DataSeg) (offset : Nat) : Nat := segmentBase k.index + Config.headerBytes + offset

/-- A record as it stands in the array (R95). -/
structure RawRecord where
  length : Nat
  stream : Nat
  tag : Byte
  seq : Nat
  markSet : Bool
  checkGood : Bool
  payload : List Byte
  deriving DecidableEq, Repr

/-- The stored length at an address (R95). -/
def storedLength (m : Memory) (a : Nat) : Nat := fromBE (readBytes m a 2)

/-- The record at an address, read with its stored length (R95). -/
def readRecord (m : Memory) (a : Nat) : RawRecord :=
  let len := storedLength m a
  let payload := readBytes m (a + 12) len
  { length := len
    stream := (readByte m (a + 2)).toNat
    tag := readByte m (a + 3)
    seq := fromBE (readBytes m (a + 4) 4)
    markSet := readBytes m (a + 10) 2 == [0, 0]
    checkGood := fromBE (readBytes m (a + 8) 2) == crc16 (readBytes m a 8 ++ payload)
    payload := payload }

/-! ### Reading a segment header (R93) -/

/-- How a header reads (R93). -/
inductive HeaderReading where
  | blank
  | invalid
  | retired
  | free
  | opened (tornClose : Bool)
  | sealed
  | retirePending
  deriving DecidableEq, Repr

/-- A stage's check verifies: the check stands after its fields (R92). -/
def stageChecks (h : List Byte) (offset len : Nat) : Bool :=
  fromBE ((h.drop (offset + len)).take 2) == crc16 ((h.drop offset).take len)

/-- A header byte. -/
def headerByte (h : List Byte) (o : Nat) : Byte := h.getD o 0xFF

/-- A header field. -/
def headerField (h : List Byte) (offset len : Nat) : Nat := fromBE ((h.drop offset).take len)

/-- The free check verifies (R92). -/
def freeChecks (h : List Byte) : Bool := stageChecks h 5 3

/-- The open check verifies and names a stream (R92; log 14). -/
def openChecks (h : List Byte) : Bool := stageChecks h 10 9 && decide ((headerByte h 10).toNat < 8)

/-- The close check verifies (R92). -/
def closeChecks (h : List Byte) : Bool := stageChecks h 21 6

/-- The latest of the FREE, OPEN and close marks, when it reads neither FFh nor 00h, is taken to read FFh (R93, "Partly
programmed mark"). The result is the four marks as taken. -/
def takenMarks (free opened sealed retirePending : Byte) : Byte × Byte × Byte × Byte :=
  if sealed ≠ 0xFF ∨ retirePending ≠ 0xFF then
    (free, opened, if sealed = 0 then 0 else 0xFF, if retirePending = 0 then 0 else 0xFF)
  else if opened ≠ 0xFF then (free, if opened = 0 then 0 else 0xFF, 0xFF, 0xFF)
  else (if free = 0 then 0 else 0xFF, 0xFF, 0xFF, 0xFF)

/-- A header that reads OPEN has a torn close (R93): a byte at offsets 21 to 28 reads other than FFh, or the SEALED or
RETIRE_PENDING mark is partly programmed; either one suffices (log 32). -/
def tornClose (h : List Byte) : Bool := !(((h.drop 2).take 2 ++ (h.drop 21).take 8).all (· == 0xFF))

/-- How 32 header bytes read (R93). Both close marks other than FFh read as invalid, whatever they hold (log 14). -/
def readHeader (h : List Byte) : HeaderReading :=
  if headerByte h 4 ≠ 0xFF then .retired
  else if h.all (· == 0xFF) then .blank
  else if headerByte h 2 ≠ 0xFF ∧ headerByte h 3 ≠ 0xFF then .invalid
  else
    let (free, opened, sealed, retirePending) :=
      takenMarks (headerByte h 0) (headerByte h 1) (headerByte h 2) (headerByte h 3)
    if sealed ≠ 0xFF ∨ retirePending ≠ 0xFF then
      if free = 0 ∧ opened = 0 ∧ freeChecks h ∧ openChecks h ∧ closeChecks h then
        (if sealed ≠ 0xFF then .sealed else .retirePending)
      else .invalid
    else if opened ≠ 0xFF then
      if free = 0 ∧ opened = 0 ∧ freeChecks h ∧ openChecks h then .opened (tornClose h)
      else .invalid
    else if free ≠ 0xFF then (if free = 0 ∧ freeChecks h then .free else .invalid)
    else .invalid

/-! ### Anchor units (R131 to R133) -/

/-- The address of a unit of an anchor segment (R131). -/
def unitAddr (seg : AnchorSeg) (unit : Nat) : Nat := segmentBase seg.val + 32 * unit

/-- The 28 bytes that a unit's check covers (R131). -/
def unitFields (kind part : Byte) (generation : Word32) (content : List Byte) : List Byte :=
  [kind, part] ++ be32 generation.toNat ++ content

/-- A unit as an item (R131). -/
def unitItem (seg : AnchorSeg) (unit : Nat) (fields : List Byte) : Item where
  body := cellsAt (unitAddr seg unit) (fields ++ be16 (crc16 fields))
  mark := cellsAt (unitAddr seg unit + 30) [0, 0]

/-- Encoding of a stream state (R132, R47). -/
def streamStateCode : StreamState → Byte
  | .idle => 0
  | .opened => 1
  | .sealed => 2
  | .faulted => 3

/-- Encoding of a policy (R39, R132). -/
def policyCode : Policy → Byte
  | .block => 0
  | .wrap => 1

/-- Encoding of a lock mode (R175). -/
def lockModeCode : LockMode → Byte
  | .opened => 0
  | .pin => 1
  | .session => 2
  | .permanent => 3

/-- Encoding of a flag. -/
def flagCode (b : Bool) : Byte := if b then 1 else 0

/-- The device-wide fields at content offsets 16 to 21 of a part (R132). -/
def devicePart (c : ImageContent) : Nat → List Byte
  | 0 => [lockModeCode c.lockMode, c.appendLocks, flagCode c.formatInhibit, byteOf c.lowWater, 0, 0]
  | 1 => be24 c.anchorErases[0] ++ be24 c.anchorErases[1]
  | _ => [0, 0, 0, 0, 0, 0]

/-- The fields of a stream at content offsets 0 to 15 (R132). -/
def streamPart (i : StreamImage) : List Byte :=
  [streamStateCode i.state, policyCode i.policy] ++ be16 i.quota ++ be16 i.highWater ++ be16 i.backlog
    ++ be32 i.epoch ++ be32 i.frontier

/-- The content of part `k` of an image (R132). -/
def imagePart (c : ImageContent) (k : StreamId) : List Byte := streamPart c.streams[k] ++ devicePart c k.val

/-- Part `k` of an image as the fields of a unit (R131). -/
def imageUnit (c : ImageContent) (generation : Word32) (k : StreamId) : List Byte :=
  unitFields 0x01 (byteOf k.val) generation (imagePart c k)

/-- A frontier note as the fields of a unit (R133). -/
def noteUnit (stream : StreamId) (epoch frontier : Nat) (generation : Word32) : List Byte :=
  unitFields 0x02 0 generation (byteOf stream.val :: (be32 epoch ++ be32 frontier ++ List.replicate 13 0))

/-! ### Reading anchor units (R134) -/

/-- A valid unit as read (R134). -/
structure RawUnit where
  kind : Byte
  part : Byte
  generation : Word32
  content : List Byte
  deriving DecidableEq, Repr

/-- The unit that 32 bytes hold, if it is valid (R134). -/
def parseUnit (u : List Byte) : Option RawUnit :=
  let kind := u.getD 0 0xFF
  let part := u.getD 1 0xFF
  if u.drop 30 = [0, 0] ∧ fromBE ((u.drop 28).take 2) = crc16 (u.take 28)
      ∧ ((kind = 1 ∧ part.toNat < 8) ∨ (kind = 2 ∧ part = 0)) then
    some { kind := kind, part := part, generation := BitVec.ofNat 32 (fromBE ((u.drop 2).take 4)),
           content := (u.drop 6).take 22 }
  else none

/-- A field of a unit's content. -/
def contentField (c : List Byte) (offset len : Nat) : Nat := fromBE ((c.drop offset).take len)

/-- A stream's anchored fields, if every one is in its encoding range (R132, R134). -/
def parseStreamPart (c : List Byte) : Option StreamImage := do
  let state ← match contentField c 0 1 with
    | 0 => some StreamState.idle
    | 1 => some StreamState.opened
    | 2 => some StreamState.sealed
    | _ => none
  let policy ← match contentField c 1 1 with
    | 0 => some Policy.block
    | 1 => some Policy.wrap
    | _ => none
  let quota := contentField c 2 2
  let highWater := contentField c 4 2
  let frontier := contentField c 12 4
  if 1 ≤ quota ∧ quota ≤ 510 ∧ 1 ≤ highWater ∧ highWater ≤ quota ∧ frontier ≤ Config.lastSequence then
    some { state := state, policy := policy, quota := quota, highWater := highWater,
           backlog := contentField c 6 2, epoch := contentField c 8 4, frontier := frontier }
  else none

/-- An anchored lock mode (R132). -/
def parseLockMode : Nat → Option LockMode
  | 0 => some .opened
  | 1 => some .pin
  | 3 => some .permanent
  | _ => none

/-- A flag field (R132). -/
def parseFlag : Nat → Option Bool
  | 0 => some false
  | 1 => some true
  | _ => none

/-- The image that eight units' contents hold, parts 0 to 7 in order, if every field is in its range (R132, R134). -/
def parseImage (parts : List (List Byte)) : Option ImageContent := do
  let part (k : Nat) : List Byte := parts.getD k []
  let s0 ← parseStreamPart (part 0)
  let s1 ← parseStreamPart (part 1)
  let s2 ← parseStreamPart (part 2)
  let s3 ← parseStreamPart (part 3)
  let s4 ← parseStreamPart (part 4)
  let s5 ← parseStreamPart (part 5)
  let s6 ← parseStreamPart (part 6)
  let s7 ← parseStreamPart (part 7)
  let lockMode ← parseLockMode (contentField (part 0) 16 1)
  let inhibit ← parseFlag (contentField (part 0) 18 1)
  let lowWater := contentField (part 0) 19 1
  let e0 := contentField (part 1) 16 3
  let e1 := contentField (part 1) 19 3
  if 1 ≤ lowWater ∧ lowWater ≤ 64 ∧ e0 ≤ Config.maxAnchorErases ∧ e1 ≤ Config.maxAnchorErases then
    some { streams := #v[s0, s1, s2, s3, s4, s5, s6, s7], lockMode := lockMode,
           appendLocks := byteOf (contentField (part 0) 17 1), formatInhibit := inhibit, lowWater := lowWater,
           anchorErases := #v[e0, e1] }
  else none

end Sys2Proof.Machine
end

