-- ==== Sys2Proof/Machine/Operands.lean ====
section
/-! DEFINITION. The operand forms of the commands: stream and page numbers, policies, lock modes, REWIND modes, and the six
locator forms of FETCH with the sequence each resolves to. -/

namespace Sys2Proof.Machine

open Sys2Proof

/-- The stream that a stream argument names; none for 8 or above (R13, check 5). -/
def streamOf (b : Byte) : Option StreamId := if h : b.toNat < 8 then some ⟨b.toNat, h⟩ else none

/-- The vault page that a page argument names (R181, R182). -/
def pageOf (b : Byte) : Option (Fin 4) := if h : b.toNat < 4 then some ⟨b.toNat, h⟩ else none

/-- The data segment with an index, 2 to 511 (R91). -/
def dataSegOf (n : Nat) : Option DataSeg := if h : n - 2 < 510 then (if 2 ≤ n then some ⟨n - 2, h⟩ else none) else none

/-- A policy argument (R39). -/
def policyOf (b : Byte) : Option Policy := if b = 0 then some .block else if b = 1 then some .wrap else none

/-- The smallest quota of a policy (R39). -/
def Policy.minQuota : Policy → Nat
  | .block => 1
  | .wrap => 2

/-- A lock mode argument (R175, R178). -/
def lockModeOf (b : Byte) : Option LockMode :=
  if b = 0 then some .opened else if b = 1 then some .pin else if b = 2 then some .session
  else if b = 3 then some .permanent else none

/-- A flag argument, 00h or 01h (R178). -/
def flagOf (b : Byte) : Option Bool := if b = 0 then some false else if b = 1 then some true else none

/-- The modes of REWIND (R88). -/
inductive RewindMode where
  | top | topPop | oldest
  deriving DecidableEq, Repr

/-- A mode argument of REWIND (R85, R88). -/
def rewindModeOf (b : Byte) : Option RewindMode :=
  if b = 0 then some .top else if b = 1 then some .topPop else if b = 2 then some .oldest else none

/-- A locator: a form with its operand (R70). -/
inductive Locator where
  | cursor
  | absolute (seq : Nat)
  | cursorRel (offset : Int)
  | markRel (offset : Int)
  | oldestRel (offset : Int)
  | newestRel (offset : Int)
  deriving DecidableEq, Repr

/-- The locator of a FETCH's form and operand bytes; none where they break a rule of form (R70). -/
def locatorOf (form : Byte) (operand : Word32) : Option Locator :=
  if form = 0 then (if operand = 0 then some .cursor else none)
  else if form = 1 then some (.absolute operand.toNat)
  else if operand.toNat < 65536 then
    (if form = 2 then some (.cursorRel (signed16 operand.toNat))
     else if form = 3 then some (.markRel (signed16 operand.toNat))
     else if form = 4 then some (.oldestRel (signed16 operand.toNat))
     else if form = 5 then some (.newestRel (signed16 operand.toNat))
     else none)
  else none

/-- The start sequence of a locator, in exact arithmetic (R72); none for MARK_REL on an empty stack (R71, check 6). -/
def Locator.start (l : Locator) (t : Stream) : Option Int :=
  match l with
  | .cursor => some t.cursor
  | .absolute q => some q
  | .cursorRel d => some (t.cursor + d)
  | .markRel d => t.marks.head?.map fun m => (m : Int) + d
  | .oldestRel d => some (t.volatileFrontier + 1 + d)
  | .newestRel d => some (t.lastCommitted - d)

/-- How a start sequence resolves (R73). -/
def Locator.resolve (l : Locator) (t : Stream) (start : Int) : OutcomeCode :=
  if start < 1 ∨ start ≤ (t.volatileFrontier : Int) then .expired
  else if (t.lastCommitted : Int) < start then (if l = .cursor then .done else .notYet)
  else .done

end Sys2Proof.Machine
end

