-- ==== Sys2Proof/Machine/Ops.lean ====
section
/-! DEFINITION. The operations that commands and job steps share: segments on the move, the release walk, the ledger's
pending work, the sync point, stream faults, and the engine's selection. -/

namespace Sys2Proof.Machine

open Sys2Proof

/-! ### Segments on the move (R97) -/

/-- A segment leaves every ordered collection. -/
def State.unlist (k : DataSeg) (s : State) : State :=
  { s with
    pool := s.pool.filter (· != k)
    reclaim := s.reclaim.filter (· != k)
    streams := tabulate fun i => { s.streams[i] with chain := s.streams[i].chain.filter (· != k) } }

/-- A segment joins the retired list outside recovery: SEGMENT_RETIRED is raised (R103). -/
def State.retire (k : DataSeg) (s : State) : State :=
  (s.updSegment k fun g => { g with location := .retired, release := none }).raise .segmentRetired

/-- A segment joins the release list with its condition (R101). -/
def State.release (k : DataSeg) (c : ReleaseCond) (s : State) : State :=
  s.updSegment k fun g => { g with location := .release, release := some c }

/-- A segment whose release is durable joins the tail of the reclaim queue, or the retired list with a RETIRE_PENDING header
(R101). -/
def State.dispose (k : DataSeg) (s : State) : State :=
  if s.segments[k].header = .retirePending then s.retire k
  else
    { s.updSegment k (fun g => { g with location := .reclaim, release := none }) with reclaim := s.reclaim ++ [k] }

/-- The highest erase count that the segment table knows (R123). -/
def State.highestCount (s : State) : Option Nat :=
  s.segments.toList.foldl (fun a g => match a, g.eraseCount with
    | none, c => c
    | a, none => a
    | some x, some c => some (max x c)) none

/-- The erase count after a successful erase (R104, R123). -/
def State.nextCount (k : DataSeg) (s : State) : Nat :=
  match s.segments[k].eraseCount with
  | some c => c + 1
  | none => match s.highestCount with
    | some c => c + 1
    | none => 1

/-- An entry of the segment table once its erase has ended well: no owner, no record, not poisoned (R100, R123). -/
def Segment.erased (g : Segment) : Segment :=
  { g with poisoned := false, owner := none, epoch := 0, first := 0, last := 0, bytesUsed := 0 }

/-- An erased segment joins the pool tail with a FREE header (R123). -/
def State.toPool (k : DataSeg) (s : State) : State :=
  { s.updSegment k (fun g => { g.erased with location := .pool, header := .free }) with pool := s.pool ++ [k] }

/-! ### The ledger's pending work (R136) -/

/-- Set or clear a stream's pending note. -/
def State.setNote (i : StreamId) (b : Bool) (s : State) : State :=
  { s with ledger := { s.ledger with pendingNotes := s.ledger.pendingNotes.set i.val b } }

/-- Set image-needed. -/
def State.needImage (s : State) : State := { s with ledger := { s.ledger with imageNeeded := true } }

/-- Set image-needed where a condition holds. -/
def State.needImageIf (b : Bool) (s : State) : State := if b then s.needImage else s

/-- The lowest-numbered stream with a pending note (R137). -/
def Ledger.lowestNote (l : Ledger) : Option StreamId := (List.finRange 8).find? fun i => l.pendingNotes[i]

/-- Ledger work is pending (R136). -/
def Ledger.workPending (l : Ledger) : Bool := l.imageNeeded || l.lowestNote.isSome

/-- The LEDGER trigger (R109). -/
def Ledger.trigger (l : Ledger) : Bool := l.workPending && !l.halted

/-- An entry of so many units fits in the current segment (R137). -/
def Ledger.fits (l : Ledger) (units : Nat) : Bool := l.current.isSome && decide (l.nextFree + units ≤ Config.anchorUnits)

/-- The target of a compaction: the anchor segment that is not current; segment 0 where none is (R142). -/
def Ledger.target (l : Ledger) : AnchorSeg :=
  match l.current with
  | some 0 => 1
  | _ => 0

/-- An entry of so many units, or a compaction where it does not fit (R137, R142). -/
def Ledger.orCompact (l : Ledger) (units : Nat) (w : LedgerWork) : LedgerWork :=
  if l.fits units then w else .compactErase l.target 1 0

/-- What a LEDGER job chooses at its start and after each entry (R137): an image before a note, the lowest-numbered stream's
note first. An image captured and not complete is continued by the steps themselves. -/
def Ledger.choose (l : Ledger) : Option LedgerWork :=
  if l.imageNeeded then some (l.orCompact 8 .image) else l.lowestNote.map fun i => l.orCompact 1 (.note i)

/-! ### The release walk (R82, R83) -/

/-- No further record can be placed into a chain segment (R82). -/
def Segment.shut (g : Segment) (isLast : Bool) : Bool :=
  g.header == .sealed || g.header == .retirePending || g.poisoned || !isLast

/-- A staged entry of the stream is placed into the last segment of its chain: the stream's oldest staged entry is for the
current segment, or the COMMIT job has opened the segment for it and is about to program it (R53, R82). -/
def State.stagedInLast (s : State) (i : StreamId) : Bool :=
  match (s.stagedOf i).head? with
  | none => false
  | some e => match e.placement with
    | .current => true
    | .new => s.engine.job == some (.commit .record) && s.staging.head? == some e
    | .awaiting => false

/-- A chain segment is closed (R82): shut, with no staged entry placed into it. -/
def State.closed (s : State) (i : StreamId) (k : DataSeg) (isLast : Bool) : Bool :=
  s.segments[k].shut isLast && !(isLast && s.stagedInLast i)

/-- The segments that the walk takes out of a chain, oldest first, and the chain that remains (R82). -/
def State.walk (s : State) (i : StreamId) : List DataSeg → List DataSeg × List DataSeg
  | [] => ([], [])
  | k :: ks =>
    if s.closed i k ks.isEmpty && decide (s.segments[k].last ≤ s.streams[i].volatileFrontier) then
      (k :: (s.walk i ks).1, (s.walk i ks).2)
    else ([], k :: ks)

/-- Segments join the release list, each with the frontier condition of its last sequence (R83). -/
def State.releaseAll (ks : List DataSeg) (s : State) : State :=
  ks.foldl (fun s k => s.release k (.frontier s.segments[k].last)) s

/-- The release walk on a stream's chain with all that a release brings (R82, R83, R168). -/
def State.releaseCovered (i : StreamId) (s : State) : State :=
  let w := s.walk i s.streams[i].chain
  if w.1.isEmpty then s
  else (((s.releaseAll w.1).updStream i fun t => { t with chain := w.2 }).setNote i true).evalHeld i

/-! ### The sync point (R65 to R68) -/

/-- Take the satisfied items out of the sync point (R66). -/
def State.satisfy (p : SyncItem → Bool) (s : State) : State :=
  { s with sync := s.sync.map fun items => items.filter fun x => !p x }

/-- Evaluate the sync point (R67). -/
def State.evalSync (s : State) : State :=
  match s.sync with
  | some [] => State.raise .syncDone { s with sync := none }
  | _ => s

/-- A staged item of the stream (R44, R34). -/
def SyncItem.isStagedOf (i : StreamId) : SyncItem → Bool
  | .staged j _ _ => j == i
  | _ => false

/-- A staged item that the stream's last committed has reached (R66). -/
def SyncItem.committedIn (i : StreamId) (epoch last : Nat) : SyncItem → Bool
  | .staged j e q => j == i && e == epoch && decide (q ≤ last)
  | _ => false

/-- RESET STREAM replaces a stream's frontier wait by a wait for the image with the new epoch (R44; log 18). -/
def SyncItem.rewait (i : StreamId) (epoch : Nat) : SyncItem → SyncItem
  | .frontier j e q => if j = i then .epochImage j epoch else .frontier j e q
  | .epochImage j e => if j = i then .epochImage j epoch else .epochImage j e
  | x => x

/-! ### A stream fault (R34) -/

/-- A stream faults (R34, R61): its staged entries and reservations are discarded. -/
def State.faultStream (i : StreamId) (s : State) : State :=
  let s := s.updStream i fun t =>
    { t with state := .faulted, preFault := t.state, reserved := 0, nextSeq := t.lastCommitted + 1 }
  let s := { s with staging := s.staging.filter fun e => e.stream != i }
  let s := ((s.notify i .fault).raise .streamFault).raise .poolEmpty
  ((s.satisfy (SyncItem.isStagedOf i)).evalSync).evalHeld i

/-! ### The COMMIT job reaching an entry (R114) -/

/-- The current job becomes another step of its work; the engine state is not touched. -/
def State.setJob (j : Job) (s : State) : State := { s with engine := { s.engine with job := some j } }

/-- The opening steps begin with the free stage where the pool head is BLANK (R116). -/
def State.openingStep (s : State) : CommitStep :=
  match s.pool.head? with
  | some p => if s.segments[p].header = .blank then .freeStage else .openStage
  | none => .openStage

/-- The last segment of a stream's chain, if it can take further records (R53, R99). -/
def State.openSegment (s : State) (i : StreamId) : Option DataSeg :=
  match s.streams[i].chain.getLast? with
  | some k => if s.segments[k].header = .opened ∧ s.segments[k].poisoned = false then some k else none
  | none => none

/-- The COMMIT job reaches the head entry and decides its steps (R114). A stream that needs a segment and may take none
faults (R121), and the job goes on to the next head in the same step; so many entries may be looked at. -/
def State.reach : Nat → State → State
  | 0, s => s
  | n + 1, s =>
    match s.staging with
    | [] => s
    | e :: _ =>
      match e.placement with
      | .current => s.setJob (.commit .record)
      | .awaiting =>
        if 1 ≤ s.available then s.setJob (.commit s.openingStep) else State.reach n (s.faultStream e.stream)
      | .new =>
        if s.pool.isEmpty then State.reach n (s.faultStream e.stream)
        else if (s.openSegment e.stream).isSome then s.setJob (.commit .seal)
        else s.setJob (.commit s.openingStep)

/-- Reach the head of the staging buffer as it stands. -/
def State.reachHead (s : State) : State := State.reach (s.staging.length + 1) s

/-! ### Selection and the end of a step (R111, R112, R128) -/

/-- No job (R108). -/
def State.idle (s : State) : State := { s with engine := { s.engine with state := .idle, job := none } }

/-- A job becomes the current job of a RUNNING engine. -/
def State.run (j : Job) (s : State) : State := { s with engine := { s.engine with state := .running, job := some j } }

/-- The part of the selection below COMMIT (R111): the preempted RECLAIM, then the head of the reclaim queue. -/
def State.selectReclaim (s : State) : State :=
  match s.engine.preempted with
  | some (k, n) => { s with engine := { s.engine with state := .running, job := some (.reclaim k (.pulse n)), preempted := none } }
  | none => match s.reclaim with
    | k :: _ => s.run (.reclaim k (.pulse 0))
    | [] => s.idle

/-- The part of the selection below LEDGER (R111): COMMIT reaches its head at once (R114), and completes in the same step where
reaching it has emptied the buffer. -/
def State.selectCommit (s : State) : State :=
  let s' := s.reachHead
  if s'.staging.isEmpty then s'.selectReclaim else { s' with engine := { s'.engine with state := .running } }

/-- The engine selects its next job (R111). -/
def State.select (s : State) : State :=
  if s.ledger.trigger then
    match s.ledger.choose with
    | some w => s.run (.ledger w)
    | none => s.selectCommit
  else s.selectCommit

/-- A frame action that creates triggered work selects where the engine is IDLE (R111). -/
def State.selectIfIdle (s : State) : State := if s.engine.state = .idle then s.select else s

/-- How a job step ends (R111). -/
inductive StepEnd where
  /-- it completed its job -/
  | completed
  /-- it ended at a boundary of the job: a record boundary (R114) or a pulse boundary (R112) -/
  | boundary
  /-- neither -/
  | inside
  deriving DecidableEq, Repr

/-- A job at a boundary gives way where higher work waits (R112); otherwise it goes on. -/
def State.yield (s : State) : State :=
  match s.engine.job with
  | some (.commit _) => if s.ledger.trigger then s.idle.select else s
  | some (.reclaim k (.pulse n)) =>
    if s.ledger.trigger || !s.staging.isEmpty then
      State.select { s with engine := { s.engine with state := .idle, job := none, preempted := some (k, n) } }
    else s
  | _ => s

/-- The end of a job step (R111): the resume lock, then completion, suspension, yielding or going on. -/
def State.endStep (e : StepEnd) (s : State) : State :=
  let s := { s with engine := { s.engine with resumeLock := false } }
  match e with
  | .completed => s.idle.select
  | .boundary =>
    if s.engine.state = .suspendPending then { s with engine := { s.engine with state := .suspended } } else s.yield
  | .inside => s

/-- The end of a COMMIT step at a record boundary (R114): the new head is reached first; an empty buffer completes the job. -/
def State.endRecord (s : State) : State :=
  let s' := s.reachHead
  s'.endStep (if s'.staging.isEmpty then .completed else .boundary)

end Sys2Proof.Machine
end

