-- ==== Sys2Proof/Machine/Info.lean ====
section
/-! DEFINITION. What the output commands show: the stream, segment and device descriptors, the guard, the identity, and the
records that FETCH delivers. -/

namespace Sys2Proof.Machine

open Sys2Proof

/-! ### Streams, segments, device (R47, R105, R106) -/

/-- Four mark positions, the unused ones 0 (R47). -/
def markBytes (marks : List Nat) : List Byte :=
  be32 (marks.getD 0 0) ++ be32 (marks.getD 1 0) ++ be32 (marks.getD 2 0) ++ be32 (marks.getD 3 0)

/-- The stream descriptor (R47), 66 bytes. -/
def State.streamDescriptor (s : State) (i : StreamId) : List Byte :=
  let t := s.streams[i]
  [byteOf i.val, streamStateCode t.state, policyCode t.policy]
    ++ be32 t.epoch ++ be16 t.quota ++ be16 t.highWater ++ be16 t.backlog
    ++ be32 t.nextSeq ++ be32 t.lastCommitted ++ be32 t.volatileFrontier ++ be32 t.durableFrontier
    ++ be32 t.cursor ++ be32 t.unread ++ [byteOf t.marks.length] ++ markBytes t.marks
    ++ be16 t.held ++ be16 t.reserved ++ [byteOf (s.stagedCount i)] ++ be16 t.chain.length
    ++ [t.notices] ++ be32 t.overrun

/-- Encoding of a location (R105). -/
def locationCode : Location → Byte
  | .pool => 0
  | .chain => 1
  | .release => 2
  | .reclaim => 3
  | .erasing => 4
  | .retired => 5

/-- Encoding of a header state (R105). -/
def headerCode : HeaderState → Byte
  | .free => 0
  | .opened => 1
  | .sealed => 2
  | .retirePending => 3
  | .retired => 4
  | .invalid => 5
  | .blank => 6

/-- A header state in which owner, epoch and sequences have a meaning (R97, R105). -/
def HeaderState.owned : HeaderState → Bool
  | .opened => true
  | .sealed => true
  | .retirePending => true
  | _ => false

/-- Kind and value of a release condition (R105). -/
def releaseBytes : Option ReleaseCond → List Byte
  | none => 0 :: be32 0
  | some (.frontier q) => 1 :: be32 q
  | some (.image e) => 2 :: be32 e

/-- Owner, epoch, first and last sequence as SEGMENT INFO shows them (R105). DESIGN CHOICE (log 31): where an erase has discarded
the owner (R100) and no later write has reached the header state, which is then OPEN or SEALED still (R124), they show as
absent. -/
def Segment.ownerBytes (g : Segment) : List Byte :=
  match g.owner with
  | some o =>
    if g.header.owned then byteOf o.val :: (be32 g.epoch ++ be32 g.first ++ be32 g.last)
    else 0xFF :: (be32 0 ++ be32 0 ++ be32 0)
  | none => 0xFF :: (be32 0 ++ be32 0 ++ be32 0)

/-- The descriptor of a data segment (R105), 28 bytes. -/
def State.dataDescriptor (s : State) (k : DataSeg) : List Byte :=
  let g := s.segments[k]
  be16 k.index ++ [locationCode g.location, headerCode g.header, flagCode g.poisoned] ++ g.ownerBytes
    ++ be24 (g.eraseCount.getD 0xFFFFFF) ++ be16 g.bytesUsed ++ releaseBytes g.release

/-- The descriptor of an anchor segment (R105). -/
def State.anchorDescriptor (s : State) (a : AnchorSeg) : List Byte :=
  let current := s.ledger.current == some a
  be16 a.val ++ [0x06, 0xFF, if current then 2 else 0] ++ (0xFF :: (be32 0 ++ be32 0 ++ be32 0))
    ++ be24 s.ledger.anchorErases[a] ++ be16 (if current then 32 * s.ledger.nextFree else 0) ++ releaseBytes none

/-- The descriptor of the segment with an index (R105). -/
def State.segmentDescriptor (s : State) (index : Nat) : List Byte :=
  match dataSegOf index with
  | some k => s.dataDescriptor k
  | none => s.anchorDescriptor (if index = 0 then 0 else 1)

/-- Encoding of an engine state (R106). -/
def engineCode : EngineState → Byte
  | .idle => 0
  | .running => 1
  | .suspendPending => 2
  | .suspended => 3

/-- Encoding of the job kind (R106). -/
def jobCode : Option Job → Byte
  | none => 0
  | some (.ledger _) => 1
  | some (.commit _) => 2
  | some (.reclaim _ _) => 3
  | some (.vault _) => 4
  | some (.format _ _) => 5

/-- The bytes that the staged entries occupy (R51). -/
def State.stagedBytes (s : State) : Nat := (s.staging.map fun e => footprint e.payload.length).sum

/-- The flags byte of DEVICE INFO (R106). -/
def State.deviceFlags (s : State) : Byte :=
  (if s.engine.preempted.isSome then 0x01 else 0)
    ||| (if s.engine.resumeLock then 0x02 else 0)
    ||| (if s.ledger.imageNeeded then 0x04 else 0)
    ||| (if s.ledger.lowestNote.isSome then 0x08 else 0)
    ||| (if s.sync.isSome then 0x10 else 0)
    ||| (if s.ledger.halted then 0x20 else 0)

/-- A signed 16-bit number in two's complement (R106). -/
def signedBytes (n : Int) : List Byte := be16 (BitVec.ofInt 16 n).toNat

/-- The data of DEVICE INFO (R106), 26 bytes. -/
def State.deviceInfo (s : State) : List Byte :=
  be16 s.pool.length ++ signedBytes s.available ++ be16 s.reclaim.length
    ++ be16 (s.segmentsAt .release).length ++ be16 (s.segmentsAt .retired).length
    ++ be16 (match s.segmentsAt .erasing with
        | k :: _ => k.index
        | [] => 0xFFFF)
    ++ [engineCode s.engine.state, jobCode s.engine.job, s.deviceFlags,
        byteOf (match s.ledger.current with
          | some a => a.val
          | none => 0), byteOf s.ledger.nextFree]
    ++ be32 s.ledger.generation.toNat ++ [byteOf s.lowWater]
    ++ be16 s.stagedBytes ++ [byteOf s.staging.length, byteOf s.totalReserved]

/-! ### Receipt, guard, vault, identity, descriptor (R17, R180, R181, R184, R185) -/

/-- The receipt as QUERY STATUS shows it (R16, R17). -/
def receiptBytes : Option (StreamId × Nat) → List Byte
  | none => 0 :: be32 0
  | some (i, q) => byteOf i.val :: be32 q

/-- The vault locks, bit `p` for page `p` (R180). -/
def lockBits (v : Vector Bool 4) : Byte :=
  (if v[0] then 1 else 0) ||| (if v[1] then 2 else 0) ||| (if v[2] then 4 else 0) ||| (if v[3] then 8 else 0)

/-- The data of READ GUARD (R180). -/
def State.guardBytes (s : State) : List Byte :=
  [lockModeCode s.guard.working, s.guard.appendLocks, flagCode s.guard.formatInhibit, lockModeCode s.guard.anchored,
   lockBits s.vaultLocks]

/-- A page from an offset to its end, then from its start up to the offset (R181). -/
def State.pageFrom (s : State) (p : Fin 4) (offset : Nat) : List Byte :=
  s.vault[p].toList.drop offset ++ s.vault[p].toList.take offset

/-- The data of IDENTIFY (R184). -/
def identityBytes : List Byte :=
  [0xA7, 0x4C, 0x15, 0x01] ++ be32 (Config.uniqueId.toNat / 4294967296) ++ be32 Config.uniqueId.toNat

/-- The data of DESCRIPTOR (R185), 32 bytes. -/
def descriptorBytes : List Byte :=
  [0x20, 0x01, 0x10, 0x00, 0x02, 0x00, 0x02, 0x0F, 0xE0, 0x08, 0x08, 0x00, 0x10, 0x04, 0x03, 0xF4, 0x10, 0x04, 0x80, 0x10,
   0x08, 0x01, 0xD4, 0xC0, 0x80, 0x0C, 0x04, 0x00, 0x00, 0x00, 0x00, 0x00]

/-! ### FETCH's records (R74 to R77) -/

/-- What FETCH captures of one record (R76): as it reads, or that it cannot be located. -/
inductive Located where
  | found (r : RawRecord)
  | unlocatable
  deriving DecidableEq, Repr

/-- Step through the records of a segment from a written-area offset (R76): so many records, in order. -/
def locateFrom (m : Memory) (k : DataSeg) (used : Nat) : Nat → Nat → List Located
  | _, 0 => []
  | p, n + 1 =>
    let len := storedLength m (recordAddr k p)
    if 1 ≤ len ∧ len ≤ Config.maxPayload ∧ p + footprint len ≤ used then
      .found (readRecord m (recordAddr k p)) :: locateFrom m k used (p + footprint len) n
    else List.replicate (n + 1) .unlocatable

/-- The records of a chain segment with their sequences, first to last (R76, R96). -/
def State.segmentRecords (s : State) (k : DataSeg) : List (Nat × Located) :=
  let g := s.segments[k]
  let n := g.last + 1 - g.first
  (List.range n).zip (locateFrom s.array k g.bytesUsed 0 n) |>.map fun x => (g.first + x.1, x.2)

/-- The record with a sequence in a chain (R96): in the segment whose range holds it. A sequence that no chain segment holds
is unlocatable (log 26). -/
def State.recordAt (s : State) (chain : List DataSeg) (q : Nat) : Located :=
  match chain.find? fun k => decide (s.segments[k].first ≤ q) && decide (q ≤ s.segments[k].last) with
  | some k => ((s.segmentRecords k).find? fun x => x.1 == q).elim .unlocatable fun x => x.2
  | none => .unlocatable

/-- The check of a record as FETCH makes it (R76). -/
def RawRecord.passes (r : RawRecord) (i : StreamId) (q : Nat) : Bool :=
  r.checkGood && r.markSet && r.stream == i.val && r.seq == q

/-- One delivered record (R75, R76). -/
def deliver (i : StreamId) (q : Nat) : Located → List Byte
  | .found r =>
    be32 q ++ be16 (if r.passes i q then r.length else r.length + 0x8000) ++ [r.tag, byteOf i.val] ++ r.payload
  | .unlocatable => be32 q ++ be16 0x8000 ++ [0, byteOf i.val]

/-- The end marker (R77). -/
def endMarker (i : StreamId) (q : Nat) : List Byte := be32 q ++ be16 0 ++ [0, byteOf i.val]

/-- The delivered records from a start sequence on (R74). -/
def State.delivery (s : State) (i : StreamId) (start n : Nat) : List (List Byte) :=
  (List.range n).map fun j => deliver i (start + j) (s.recordAt s.streams[i].chain (start + j))

/-- How many bytes are out when each record's last byte is (R78). -/
def endsFrom : Nat → List (List Byte) → List Nat
  | _, [] => []
  | a, r :: rs => (a + r.length) :: endsFrom (a + r.length) rs

end Sys2Proof.Machine
end

