-- ==== Sys2Proof/Machine/Frames.lean ====
section
/-! DEFINITION. The frame protocol (chapter 1): the captures at SEL falling, the verdict of an output frame, and the end of a
frame at SEL high with its recording, latches and FRAME_ERROR. -/

namespace Sys2Proof.Machine

open Sys2Proof

/-! ### The guard and the engine conditions that commands test (R130, R176) -/

/-- The guard allows a guarded command at a level of the GUARD pin (R176). -/
def Guard.allows (g : Guard) (pinHigh : Bool) : Bool :=
  match g.working with
  | .opened => true
  | .pin => pinHigh
  | .session => false
  | .permanent => false

/-- A FORMAT job runs (R130). -/
def Engine.formatRuns (e : Engine) : Bool :=
  match e.job with
  | some (.format _ _) => e.runs
  | _ => false

/-- A VAULT job runs (R130). -/
def Engine.vaultRuns (e : Engine) : Bool :=
  match e.job with
  | some (.vault _) => e.runs
  | _ => false

/-- The engine is RUNNING, SUSPEND_PENDING or SUSPENDED with a COMMIT job (R42). -/
def Engine.holdsCommit (e : Engine) : Bool :=
  match e.job with
  | some (.commit _) => e.state != .idle
  | _ => false

/-! ### SEL falling (R1, R5, R6) -/

/-- The capture at SEL falling: the byte counter is cleared, the status byte and the outcome byte are captured. -/
def State.capture (s : State) : State :=
  { s with port := { s.port with
      frameState := .receivingCommand
      byteCounter := 0
      statusByte := s.statusByte
      outcomeByte := s.port.outcome.byte
      snapshot := none
      frameIgnored := false } }

/-- A frame whose SEL falling was not a command of its own begins now (log 6). -/
def State.beginFrame (s : State) : State := if s.port.frameState = .idle then s.capture else s

/-! ### Verdicts (R9, R10) -/

/-- A snapshot that carries nothing but a verdict: a refusal (R10). -/
def Snapshot.refusal (c : OutputCommand) (o : OutcomeCode) : Snapshot :=
  { command := c, verdict := o, data := [], cyclic := false, start := 0, recordEnds := [], notices := 0 }

/-- A snapshot that delivers data (R9). -/
def Snapshot.answer (c : OutputCommand) (data : List Byte) : Snapshot :=
  { command := c, verdict := .done, data := data, cyclic := false, start := 0, recordEnds := [], notices := 0 }

/-- FETCH's verdict in the ACTIVE power state with its delivery (R70 to R77). -/
def State.fetchSnapshot (s : State) (c : OutputCommand) (stream form : Byte) (operand : Word32) (count : Byte) : Snapshot :=
  match streamOf stream with
  | none => Snapshot.refusal c .noStream
  | some i =>
    match locatorOf form operand with
    | none => Snapshot.refusal c .badArgument
    | some l =>
      if count.toNat = 0 ∨ 16 < count.toNat then Snapshot.refusal c .badArgument
      else if s.engine.runs then Snapshot.refusal c .busy
      else
        match l.start s.streams[i] with
        | none => Snapshot.refusal c .markEmpty
        | some start =>
          if l.resolve s.streams[i] start = .done then
            let n := min count.toNat (s.streams[i].lastCommitted + 1 - start.toNat)
            let records := s.delivery i start.toNat n
            { command := c, verdict := .done, data := records.flatten ++ endMarker i (start.toNat + n), cyclic := false,
              start := start.toNat, recordEnds := endsFrom 0 records, notices := 0 }
          else Snapshot.refusal c (l.resolve s.streams[i] start)

/-- STREAM INFO's verdict with the descriptor (R46, R47). -/
def State.streamInfoSnapshot (s : State) (c : OutputCommand) (stream : Byte) : Snapshot :=
  match streamOf stream with
  | none => Snapshot.refusal c .noStream
  | some i => { Snapshot.answer c (s.streamDescriptor i) with notices := s.streams[i].notices }

/-- VAULT READ's verdict with the page (R181). -/
def State.vaultSnapshot (s : State) (c : OutputCommand) (page offset : Byte) : Snapshot :=
  match pageOf page with
  | none => Snapshot.refusal c .badArgument
  | some p =>
    if 128 ≤ offset.toNat then Snapshot.refusal c .badArgument
    else if s.engine.vaultRuns then Snapshot.refusal c .busy
    else { Snapshot.answer c (s.pageFrom p offset.toNat) with cyclic := true }

/-- The verdict of an output command in the ACTIVE power state (R13). -/
def State.activeSnapshot (s : State) (c : OutputCommand) : Snapshot :=
  match c with
  | .queryStatus => Snapshot.answer c (receiptBytes s.port.receipt)
  | .readEvents => Snapshot.answer c (be16 s.eventLatch.toNat ++ be16 s.eventEnable.toNat)
  | .deviceInfo => Snapshot.answer c s.deviceInfo
  | .streamInfo stream _ => s.streamInfoSnapshot c stream
  | .segmentInfo index =>
    if 512 ≤ index.toNat then Snapshot.refusal c .badArgument else Snapshot.answer c (s.segmentDescriptor index.toNat)
  | .fetch stream form operand count => s.fetchSnapshot c stream form operand count
  | .readGuard => Snapshot.answer c s.guardBytes
  | .vaultRead page offset => s.vaultSnapshot c page offset
  | .identify => Snapshot.answer c identityBytes
  | .descriptor => Snapshot.answer c descriptorBytes

/-- The verdict of an output command (R9, R13, R14): during recovery QUERY STATUS alone is served. -/
def State.snapshotOf (s : State) (c : OutputCommand) : Snapshot :=
  if s.power = .recovering ∧ c ≠ .queryStatus then Snapshot.refusal c .recovering else s.activeSnapshot c

/-- Form the verdict of an output frame (R9). -/
def State.formVerdict (c : OutputCommand) (s : State) : State :=
  { s with port := { s.port with
      frameState := .outputting
      byteCounter := c.argBytes + 1
      snapshot := some (s.snapshotOf c) } }

/-! ### SOUT (R4) -/

/-- The data byte at a place after the verdict (R4, R181). -/
def Snapshot.dataByte (n : Snapshot) (j : Nat) : Byte :=
  if n.verdict = .done then
    (if n.cyclic then n.data.getD (j % n.data.length) 0 else n.data.getD j 0)
  else 0

/-- The position of the verdict (R4): the first after both byte 1 and the last argument byte. -/
def positionOfVerdict (c : OutputCommand) : Nat := max 2 (c.argBytes + 1)

/-- The byte at a position of the present frame (R4). -/
def Port.outByte (p : Port) (position : Nat) : Byte :=
  if position = 0 then p.statusByte
  else if position = 1 then p.outcomeByte
  else
    match p.snapshot with
    | none => 0
    | some n =>
      if position < positionOfVerdict n.command then 0
      else if position = positionOfVerdict n.command then n.verdict.byte
      else n.dataByte (position - positionOfVerdict n.command - 1)

/-- The bytes that a frame of so many whole bytes shifts out (R4). -/
def Port.frameOutput (p : Port) (bytes : Nat) : List Byte := (List.range bytes).map p.outByte

/-! ### SEL high (R12) -/

/-- How a command's frame treats the outcome register and the two flags (R12, steps 2 to 4). -/
inductive FrameKind where
  | plain
  /-- QUERY STATUS: skips steps 2 and 3 (R17) -/
  | transparent
  /-- ARM: sets the arm latch if accepted (R19) -/
  | arms
  /-- RESET ENABLE: sets the reset-enable flag if accepted (R20) -/
  | enables
  deriving DecidableEq, Repr

/-- The arm latch after a frame (R12, step 3). -/
def FrameKind.latch (k : FrameKind) (old : Bool) (o : OutcomeCode) : Bool :=
  match k with
  | .plain => false
  | .transparent => old
  | .arms => o == .done
  | .enables => false

/-- The reset-enable flag after a frame (R12, step 4). -/
def FrameKind.enable (k : FrameKind) (o : OutcomeCode) : Bool :=
  match k with
  | .enables => o == .done
  | _ => false

/-- The outcome register after a frame (R12, step 2). -/
def FrameKind.recorded (k : FrameKind) (old o : OutcomeCode) : OutcomeCode :=
  match k with
  | .transparent => old
  | _ => o

/-- Steps 2 to 5 of R12, with the frame state idle again (R3) and the frame's bytes on SOUT (R4). -/
def State.closeFrame (k : FrameKind) (bytes : Nat) (o : OutcomeCode) (s : State) : State :=
  State.raiseIf o.isFrameError .frameError
    { s with port := { s.port with
        frameState := .idle
        byteCounter := bytes
        snapshot := none
        outcome := k.recorded s.port.outcome o
        armLatch := k.latch s.port.armLatch o
        resetEnable := k.enable o
        sout := s.port.frameOutput bytes } }

/-- SEL rises at the end of a frame that the device ignores (R24, R25): nothing is recorded. -/
def State.endIgnored (s : State) : State := { s with port := { s.port with frameIgnored := false } }

/-- An outcome of `exec`. -/
abbrev Result := Host.Outcome State Fault Refusal

/-- The SEL high of an action frame of its required length (R7, R12, R13): during recovery it is refused RECOVERING (R14);
outside ACTIVE and RECOVERING it is ignored (R25), and so is a frame that began where it was to be ignored (log 11). Where
a verdict has been formed this frame is an output frame, and the row does not name its end (log 1). `body` makes the checks
from NOT_ARMED on and acts. -/
def actionFrame (k : FrameKind) (bytes : Nat) (body : State → State × OutcomeCode) (s : State) : Result :=
  match s.power with
  | .off => .next s.endIgnored
  | .dozing => .next s.endIgnored
  | .waking => .next s.endIgnored
  | .recovering =>
    if s.port.frameIgnored then .next s.endIgnored
    else if s.port.snapshot.isSome then .next s
    else .next (s.beginFrame.closeFrame k bytes .recovering)
  | .active =>
    if s.port.frameIgnored then .next s.endIgnored
    else if s.port.snapshot.isSome then .next s
    else .next ((body s.beginFrame).1.closeFrame k bytes (body s.beginFrame).2)

/-- The SEL high of a frame that is refused for its shape or its code, in ACTIVE and RECOVERING alike (R8, R10, R11). -/
def malformedFrame (o : OutcomeCode) (bytes : Nat) (s : State) : Result :=
  match s.power with
  | .off => .next s.endIgnored
  | .dozing => .next s.endIgnored
  | .waking => .next s.endIgnored
  | _ =>
    if s.port.frameIgnored then .next s.endIgnored
    else if s.port.snapshot.isSome then .next s
    else .next (s.beginFrame.closeFrame .plain bytes o)

/-- The SEL-high action of an output frame whose verdict was DONE; the outcome is the verdict (R9, R10, R12). -/
def State.outputEnd (k : FrameKind) (bytes : Nat) (act : Snapshot → State → State) (n : Snapshot) (s : State) : State :=
  State.closeFrame k bytes n.verdict (if n.verdict = .done then act n s else s)

/-- The SEL high of an output frame of `bytes` whole bytes (R9, R10). Where its verdict was not a command of its own it is
formed now (log 6); a verdict formed for another command belongs to another frame, whose end the row does not name (log 1). -/
def outputFrame (k : FrameKind) (c : OutputCommand) (bytes : Nat) (act : Snapshot → State → State) (s : State) : Result :=
  if s.power = .active ∨ s.power = .recovering then
    if s.port.frameIgnored then .next s.endIgnored
    else
      match s.port.snapshot with
      | some n => if n.command = c then .next (s.outputEnd k bytes act n) else .next s
      | none =>
        if bytes < c.argBytes + 1 then malformedFrame .frameLength bytes s
        else .next ((s.beginFrame.formVerdict c).outputEnd k bytes act (s.beginFrame.snapshotOf c))
  else .next s.endIgnored

/-- An output command without a SEL-high action. -/
def noAction (_ : Snapshot) (s : State) : State := s

end Sys2Proof.Machine
end

