-- ==== Sys2Proof/Machine/Append.lean ====
section
/-! DEFINITION. APPEND with placement, quota, the WRAP drop and acceptance, and SYNC (chapter 3). -/

namespace Sys2Proof.Machine

open Sys2Proof

/-! ### Placement (R53 to R57) -/

/-- The free bytes of the staging buffer (R51). -/
def State.freeStaging (s : State) : Nat := Config.stagingBytes - s.stagedBytes

/-- The footprints of some entries together. -/
def entriesBytes (es : List Entry) : Nat := (es.map fun e => footprint e.payload.length).sum

/-- A stream's newest new-segment entry with every later one, newest first (R53); none where it has no such entry. -/
def sinceNewest (staged : List Entry) : Option (List Entry) :=
  let later := staged.reverse.takeWhile fun e => e.placement != .new
  if later.length = staged.length then none else some (staged.reverse.take (later.length + 1))

/-- The projected free bytes of a stream (R53); none where it has no projected open segment. -/
def State.projectedFree (s : State) (i : StreamId) : Option Nat :=
  match sinceNewest (s.stagedOf i) with
  | some es => some (Config.recordArea - entriesBytes es)
  | none => (s.openSegment i).map fun k => Config.recordArea - s.segments[k].bytesUsed - entriesBytes (s.stagedOf i)

/-- The projected open segment where it has an index already (R53). -/
def State.projectedSegment (s : State) (i : StreamId) : Option DataSeg :=
  match sinceNewest (s.stagedOf i) with
  | some _ => none
  | none => s.openSegment i

/-- The drop candidate of a WRAP stream (R56): the oldest chain segment, if it is closed and not the projected open one. -/
def State.dropCandidate (s : State) (i : StreamId) : Option DataSeg :=
  match s.streams[i].chain with
  | [] => none
  | k :: ks => if s.closed i k ks.isEmpty && s.projectedSegment i != some k then some k else none

/-- How placement ends (R54 to R57). -/
inductive PlacementResult where
  | current
  | new (drop : Option DataSeg)
  | quotaFull
  | poolEmpty
  deriving DecidableEq, Repr

/-- The availability check (R57). -/
def State.ifAvailable (s : State) (drop : Option DataSeg) : PlacementResult :=
  if 1 ≤ s.available then .new drop else .poolEmpty

/-- Placement of a record that needs a new segment: the quota (R55, R56), then availability (R57). -/
def State.placeNew (s : State) (i : StreamId) : PlacementResult :=
  if s.streams[i].held < s.streams[i].quota then s.ifAvailable none
  else
    match s.streams[i].policy with
    | .block => .quotaFull
    | .wrap => match s.dropCandidate i with
      | some d => s.ifAvailable (some d)
      | none => .quotaFull

/-- Placement of a record by its footprint (R54). -/
def State.place (s : State) (i : StreamId) (fp : Nat) : PlacementResult :=
  match s.projectedFree i with
  | some free => if fp ≤ free then .current else s.placeNew i
  | none => s.placeNew i

/-! ### Acceptance (R58, R59) -/

/-- The records of the dropped segment above the old volatile frontier (R59). -/
def Segment.overrunBy (g : Segment) (frontier : Nat) : Nat := g.last - max frontier (g.first - 1)

/-- A WRAP drop (R59): the segment joins the release list, frontier, cursor and overrun count advance, a note is pending. -/
def State.dropSegment (i : StreamId) (d : DataSeg) (s : State) : State :=
  let g := s.segments[d]
  let n := g.overrunBy s.streams[i].volatileFrontier
  let frontier := max s.streams[i].volatileFrontier g.last
  let s1 := (s.release d (.frontier g.last)).updStream i fun t =>
    { t with
      chain := t.chain.tail
      volatileFrontier := frontier
      cursor := max t.cursor (frontier + 1)
      overrun := min Config.max32 (t.overrun + n) }
  let s2 := if 0 < n then (s1.notify i .overrun).raise .overrun else s1
  s2.setNote i true

/-- The drop of an acceptance, if there is one. -/
def State.dropIf (i : StreamId) (drop : Option DataSeg) (s : State) : State :=
  match drop with
  | some d => s.dropSegment i d
  | none => s

/-- A record is given the next sequence and staged at the tail, and the receipt names it (R58, steps 3 to 5). -/
def State.stage (i : StreamId) (tag : Byte) (payload : List Byte) (p : Placement) (s : State) : State :=
  let q := s.streams[i].nextSeq
  { s.updStream i (fun t => { t with nextSeq := q + 1 }) with
    staging := s.staging ++ [{ stream := i, seq := q, tag := tag, payload := payload, placement := p }]
    port := { s.port with receipt := some (i, q) } }

/-- Sealing by exhaustion (R36), where the assigned sequence is the last one. -/
def State.sealIf (i : StreamId) (q : Nat) (s : State) : State :=
  if q = Config.lastSequence then
    (((s.updStream i fun t => { t with state := .sealed }).needImage).notify i .sequenceEnd).raise .sequenceEnd
  else s

/-- An APPEND accepted into the current segment (R58). -/
def State.acceptCurrent (i : StreamId) (tag : Byte) (payload : List Byte) (s : State) : State :=
  ((s.stage i tag payload .current).sealIf i s.streams[i].nextSeq).selectIfIdle

/-- An APPEND accepted with a new segment (R58): reservation, drop, staging, exhaustion, engine, conditions. The unread count
changes only where the drop moves the cursor (R169). -/
def State.acceptNew (i : StreamId) (tag : Byte) (payload : List Byte) (drop : Option DataSeg) (s : State) : State :=
  let s1 := (s.updStream i fun t => { t with reserved := t.reserved + 1 }).dropIf i drop
  let s2 := (((s1.stage i tag payload .new).sealIf i s.streams[i].nextSeq).selectIfIdle).evalHeld i
  (if s1.streams[i].cursor = s.streams[i].cursor then s2 else s2.evalUnread i).evalPool s.available

/-- The checks of APPEND after FRAME_LENGTH and RECOVERING, and its action (R50, R58). -/
def State.appendBody (stream tag : Byte) (length : Word16) (payload : List Byte) (s : State) : State × OutcomeCode :=
  match streamOf stream with
  | none => (s, .noStream)
  | some i =>
    if length.toNat = 0 ∨ Config.maxPayload < length.toNat then (s, .badArgument)
    else if s.guard.appendLocks.getLsbD i.val = true then (s, .guarded)
    else if s.engine.formatRuns = true then (s, .busy)
    else if s.streams[i].state ≠ .opened then (s, .wrongState)
    else if s.freeStaging < footprint length.toNat ∨ Config.stagingEntries ≤ s.staging.length then (s, .stageFull)
    else
      match s.place i (footprint length.toNat) with
      | .current => (s.acceptCurrent i tag payload, .done)
      | .new drop => (s.acceptNew i tag payload drop, .done)
      | .quotaFull => ((s.notify i .quotaHit).raise .quotaHit, .quotaFull)
      | .poolEmpty => (s.raise .poolEmpty, .poolEmpty)

/-- APPEND (R49, R50, R58). A frame that does not hold exactly as many payload bytes as its length field says is discarded
(R7, R49). -/
def execAppend (stream tag : Byte) (length : Word16) (payload : List Byte) (s : State) : Result :=
  if payload.length = length.toNat then
    actionFrame .plain (5 + payload.length) (State.appendBody stream tag length payload) s
  else malformedFrame .frameLength (5 + payload.length) s

/-! ### SYNC (R64, R65) -/

/-- The staged item of a stream (R65): its newest staged entry. -/
def State.stagedItem (s : State) (i : StreamId) : List SyncItem :=
  match (s.stagedOf i).getLast? with
  | some e => [.staged i s.streams[i].epoch e.seq]
  | none => []

/-- A stream's frontiers differ (R65). -/
def Stream.frontierDiffers (t : Stream) : Bool := t.volatileFrontier != t.durableFrontier

/-- The frontier item of a stream (R65). -/
def State.frontierItem (s : State) (i : StreamId) : List SyncItem :=
  if s.streams[i].frontierDiffers then [.frontier i s.streams[i].epoch s.streams[i].volatileFrontier] else []

/-- A LEDGER job is partway through writing an image (R65; log 17). -/
def State.imageInProgress (s : State) : Bool :=
  match s.engine.job with
  | some (.ledger _) => s.ledger.captured.isSome
  | _ => false

/-- The image item (R65). -/
def State.imageItem (s : State) : List SyncItem :=
  if s.ledger.imageNeeded then [.nextImage] else if s.imageInProgress then [.currentImage] else []

/-- Every item of a sync point recorded now (R65). -/
def State.syncItems (s : State) : List SyncItem :=
  (List.finRange 8).flatMap s.stagedItem ++ (List.finRange 8).flatMap s.frontierItem ++ s.imageItem

/-- An accepted SYNC (R64, R65): the sync point is replaced, notes are made pending, the point is evaluated once. -/
def State.recordSync (s : State) : State :=
  let notes := tabulate fun i => s.ledger.pendingNotes[i] || s.streams[i].frontierDiffers
  (State.evalSync { s with
    sync := some s.syncItems, ledger := { s.ledger with pendingNotes := notes } }).selectIfIdle

/-- SYNC (R64). -/
def execSync (s : State) : Result := actionFrame .plain 1 (fun s => (s.recordSync, .done)) s

end Sys2Proof.Machine
end

