-- ==== Sys2Proof/Machine/ArrayWork.lean ====
section
/-! DEFINITION. What the job step in progress does to the array or the vault, for the step itself and for the power loss or
soft reset that cuts it short (R155, R159); and the image that a step captures (R138). -/

namespace Sys2Proof.Machine

open Sys2Proof

/-! ### Images (R132, R138, R145, R158) -/

/-- A stream as an image records it (R132): a FAULTED stream with its pre-fault state, the volatile frontier as the frontier. -/
def Stream.image (t : Stream) : StreamImage :=
  { state := if t.state = .faulted then t.preFault else t.state
    policy := t.policy, quota := t.quota, highWater := t.highWater, backlog := t.backlog
    epoch := t.epoch, frontier := t.volatileFrontier }

/-- The content of an image captured now (R132, R138). -/
def State.imageContent (s : State) : ImageContent :=
  { streams := tabulate fun i => s.streams[i].image
    lockMode := s.guard.anchored, appendLocks := s.guard.appendLocks, formatInhibit := s.guard.formatInhibit
    lowWater := s.lowWater, anchorErases := s.ledger.anchorErases }

/-- A stream in the default image (R145). -/
def StreamImage.default : StreamImage :=
  { state := .idle, policy := .block, quota := 16, highWater := 16, backlog := 0, epoch := 0, frontier := 0 }

/-- The guard at FORMAT completion (R179): the default, but a PERMANENT anchored lock mode stays with its append locks and
its format inhibit. -/
def Guard.formatted (g : Guard) : Guard :=
  if g.anchored = .permanent then { g with working := .permanent } else Guard.default

/-- The content of the image that FORMAT writes (R145, R158). -/
def State.formatContent (s : State) : ImageContent :=
  { streams := tabulate fun _ => StreamImage.default
    lockMode := s.guard.formatted.anchored, appendLocks := s.guard.formatted.appendLocks
    formatInhibit := s.guard.formatted.formatInhibit
    lowWater := 8, anchorErases := s.ledger.anchorErases }

/-- An image captured now, with the next generation (R138). -/
def State.freshCapture (s : State) : Captured :=
  { content := s.imageContent, generation := s.ledger.generation + 1, part := 0 }

/-- FORMAT's image captured now (R158). -/
def State.formatCapture (s : State) : Captured :=
  { content := s.formatContent, generation := s.ledger.generation + 1, part := 0 }

/-- The image whose next part the step programs: the captured one, or one captured now. -/
def State.capturedOr (s : State) (fresh : Captured) : Captured := s.ledger.captured.getD fresh

/-- The unit that holds the next part of an image. -/
def Captured.fields (c : Captured) : List Byte :=
  if h : c.part < 8 then imageUnit c.content c.generation ⟨c.part, h⟩ else []

/-- The anchor segment that entries are written into; segment 0 where none is current (a case that no step meets, R137). -/
def Ledger.currentSeg (l : Ledger) : AnchorSeg := l.current.getD 0

/-! ### The work of a step -/

/-- What a step does to the array or the vault. -/
inductive ArrayWork where
  | nothing
  | program (item : Item)
  /-- an erase pulse on the segment with an index -/
  | erase (index : Nat)
  | vaultByte (page : Fin 4) (offset : Nat) (value : Byte)
  | vaultErase (page : Fin 4)
  | vaultLock (page : Fin 4)
  deriving DecidableEq, Repr

/-- The item of an erase's next step; the count and the cause are in the phase (R123 to R125). -/
def ErasePhase.work (k : DataSeg) : ErasePhase → ArrayWork
  | .pulse _ => .erase k.index
  | .freeStage count => .program (freeStageItem k (some count))
  | .retire cause _ => .program (retireItem k cause)

/-- The work of a COMMIT step (R115 to R119). -/
def State.commitWork (s : State) (step : CommitStep) : ArrayWork :=
  match step, s.staging with
  | .seal, e :: _ => match s.streams[e.stream].chain.getLast? with
    | some k => .program (sealItem k s.segments[k].last s.segments[k].bytesUsed)
    | none => .nothing
  | .freeStage, _ :: _ => match s.pool.head? with
    | some k => .program (freeStageItem k s.segments[k].eraseCount)
    | none => .nothing
  | .openStage, e :: _ => match s.pool.head? with
    | some k => .program (openStageItem k e.stream s.streams[e.stream].epoch e.seq)
    | none => .nothing
  | .record, e :: _ => match s.streams[e.stream].chain.getLast? with
    | some k => .program (recordItem (recordAddr k s.segments[k].bytesUsed) e)
    | none => .nothing
  | .openRetire k, _ => .program (retireItem k causeOpeningFailure)
  | .close k, _ => .program (retirePendingItem k s.segments[k].last s.segments[k].bytesUsed)
  | _, [] => .nothing

/-- The work of a LEDGER step (R138, R139, R142). -/
def State.ledgerWork (s : State) : LedgerWork → ArrayWork
  | .note i =>
    .program (unitItem s.ledger.currentSeg s.ledger.nextFree
      (noteUnit i s.streams[i].epoch s.streams[i].volatileFrontier s.ledger.generation))
  | .image => .program (unitItem s.ledger.currentSeg s.ledger.nextFree (s.capturedOr s.freshCapture).fields)
  | .compactErase target _ _ => .erase target.val
  | .compactCapture target _ => .program (unitItem target 0 s.freshCapture.fields)
  | .compactImage target _ =>
    .program (unitItem target (s.capturedOr s.freshCapture).part (s.capturedOr s.freshCapture).fields)

/-- The value that a vault byte is driven toward (R183): old AND new. -/
def State.vaultTarget (s : State) (page : Fin 4) (offset : Nat) (value : Byte) : Byte :=
  s.vault[page].toList.getD offset 0xFF &&& value

/-- The work of a VAULT step (R183). -/
def VaultWork.work : VaultWork → ArrayWork
  | .write page offset (b :: _) => .vaultByte page offset b
  | .write _ _ [] => .nothing
  | .erase page _ => .vaultErase page
  | .lock page => .vaultLock page

/-- The work of a FORMAT step (R157, R158). -/
def State.formatWork (s : State) : FormatWork → ArrayWork
  | .segment k phase => phase.work k
  | .anchorErase _ => .erase 1
  | .compactErase _ _ => .erase 0
  | .compactCapture _ => .program (unitItem 0 0 s.formatCapture.fields)
  | .compactImage _ => .program (unitItem 0 (s.capturedOr s.formatCapture).part (s.capturedOr s.formatCapture).fields)

/-- The work of the step in progress; nothing while no step is (R108). -/
def State.stepWork (s : State) : ArrayWork :=
  if s.engine.runs then
    match s.engine.job with
    | none => .nothing
    | some (.ledger w) => s.ledgerWork w
    | some (.commit c) => s.commitWork c
    | some (.reclaim k phase) => phase.work k
    | some (.vault v) => v.work
    | some (.format _ f) => s.formatWork f
  else .nothing

/-! ### The vault (R181 to R183) -/

/-- A byte of a vault page takes a value; an offset outside the page names no byte. -/
def setVaultByte (v : Vector (Vector Byte 128) 4) (page : Fin 4) (offset : Nat) (b : Byte) : Vector (Vector Byte 128) 4 :=
  if h : offset < 128 then v.set page.val (v[page].set offset b) else v

/-- One erase pulse on a vault page (R183): every byte FFh but for the residue. -/
def eraseVaultPage (v : Vector (Vector Byte 128) 4) (page : Fin 4) (residue : Residue) : Vector (Vector Byte 128) 4 :=
  residue.foldl (fun v c => setVaultByte v page c.1 c.2) (v.set page.val (Vector.replicate 128 0xFF))

/-- Every byte of a page reads FFh. -/
def vaultErased (v : Vector (Vector Byte 128) 4) (page : Fin 4) : Bool := v[page].toList.all (· == 0xFF)

/-- The array and the vault as a power loss or a soft reset leaves the step in progress (R155, R159). -/
def State.abandonStep (cut : Cut) (s : State) : State :=
  match s.stepWork with
  | .nothing => s
  | .program item => { s with array := cutProgram s.array item cut.pulses }
  | .erase index => match cut.residue with
    | some r => { s with array := erasePulse s.array index r }
    | none => s
  | .vaultByte page offset value =>
    let b := cutVaultByte (s.vaultTarget page offset value) (s.vault[page].toList.getD offset 0xFF)
      ((cut.pulses.map fun p => p.headD 0).take Config.programPulses)
    { s with vault := setVaultByte s.vault page offset b }
  | .vaultErase page => match cut.residue with
    | some r => { s with vault := eraseVaultPage s.vault page r }
    | none => s
  | .vaultLock page => { s with lockCells := s.lockCells.set page.val (s.lockCells[page] || cut.lockCell) }

end Sys2Proof.Machine
end

