-- ==== Sys2Proof/Machine/Steps.lean ====
section
/-! DEFINITION. What the job steps share: when a step is due, its program sequence, and the phases of an erase with its
disposal (R110, R111, R123 to R125). -/

namespace Sys2Proof.Machine

open Sys2Proof

/-- A step of the job is due: the device is ACTIVE and the engine performs steps of just this job (R108). -/
def State.due (s : State) (j : Job) : Bool := s.power == .active && s.engine.runs && s.engine.job == some j

/-- The end of a job step that changes nothing unless its job is due (log 1), with the pool side evaluated where the step has
changed the available count (R170). -/
def State.stepWhen (s : State) (due : Bool) (act : State → State) : Result :=
  if due then .next ((act s).evalPool s.available) else .next s

/-- The array after the program sequence of a piece of work (R110). -/
def ArrayWork.programmed (w : ArrayWork) (pulses : Pulses) (m : Memory) : Memory :=
  match w with
  | .program item => (Machine.program m item pulses).1
  | _ => m

/-- The program sequence of a piece of work succeeds (R110). -/
def ArrayWork.succeeds (w : ArrayWork) (pulses : Pulses) (m : Memory) : Bool :=
  match w with
  | .program item => (Machine.program m item pulses).2
  | _ => false

/-- The array takes a piece of work's program sequence. -/
def State.programmed (w : ArrayWork) (pulses : Pulses) (s : State) : State :=
  { s with array := w.programmed pulses s.array }

/-- The phase of an erase after one more pulse (R123, R125). -/
def State.afterPulse (s : State) (k : DataSeg) (applied : Nat) : ErasePhase :=
  if segmentErased s.array k.index then .freeStage (s.nextCount k)
  else if Config.erasePulses ≤ applied + 1 then .retire causeEraseFailure false
  else .pulse (applied + 1)

/-- The end of a free stage (R123): the count is entered whatever the write did; a stage that has verified is the header's
state (R94, R97; log 28). -/
def State.enterCount (k : DataSeg) (count : Nat) (ok : Bool) (s : State) : State :=
  s.updSegment k fun g => { g with eraseCount := some count, header := if ok then .free else g.header }

/-- The free stage returns the segment to the pool: it verified, and the count is below the wear-out threshold (R123). -/
def returnsToPool (count : Nat) (ok : Bool) : Bool := ok && decide (count < Config.wearOut)

/-- The cause of the retirement that follows a free stage that does not return the segment (R124). -/
def retireCause (ok : Bool) : Byte := if ok then causeWearOut else causeEraseFailure

/-- The end of a retire stage (R124, R125): the segment joins the retired list, its header RETIRED only if the write
succeeded; after a successful erase it owns nothing any more (R100; log 20). -/
def State.endRetire (k : DataSeg) (erased ok : Bool) (s : State) : State :=
  (s.updSegment k fun g =>
    let g' := if erased then g.erased else g
    { g' with header := if ok then .retired else g.header }).retire k

end Sys2Proof.Machine
end

