-- ==== Sys2Proof/Machine/Commit.lean ====
section
/-! DEFINITION. The COMMIT job (R114 to R122): seal, free stage, open, opening-failure retire, record and close steps. -/

namespace Sys2Proof.Machine

open Sys2Proof

/-! ### A segment for the head entry (R116, R117, R119 to R121) -/

/-- A segment may be taken for an entry (R117, R121): a new-segment entry holds a reservation and needs a pool head, an entry
awaiting replacement needs an available segment. -/
def State.mayOpen (s : State) (e : Entry) : Bool :=
  match e.placement with
  | .new => !s.pool.isEmpty
  | .current => decide (1 ≤ s.available)
  | .awaiting => decide (1 ≤ s.available)

/-- The job goes on with the opening steps for the entry, or the stream faults and the step is a record boundary (R121). -/
def State.continueOpening (e : Entry) (s : State) : State :=
  if s.mayOpen e then (s.setJob (.commit s.openingStep)).endStep .inside else (s.faultStream e.stream).endRecord

/-- The pool head whose opening failed is withdrawn: it joins the retired list, and its retire write follows (R117). -/
def State.withdraw (p : DataSeg) (s : State) : State :=
  ((State.retire p { s with pool := s.pool.tail }).setJob (.commit (.openRetire p))).endStep .inside

/-! ### The seal step (R115) -/

/-- The last segment of the head entry's chain. -/
def State.headSegment (s : State) (e : Entry) : Option DataSeg := s.streams[e.stream].chain.getLast?

/-- What the seal step makes of the segment (R115). -/
def Segment.sealEnd (g : Segment) (ok : Bool) : Segment :=
  { g with header := if ok then .sealed else g.header, poisoned := if ok then g.poisoned else true }

/-- The seal step for a head entry and its stream's open segment (R115). -/
def State.sealStep (pulses : Pulses) (e : Entry) (k : DataSeg) (s : State) : State :=
  let w := s.commitWork .seal
  let s1 := (s.programmed w pulses).updSegment k fun g => g.sealEnd (w.succeeds pulses s.array)
  let s2 := s1.releaseCovered e.stream
  (s2.setJob (.commit s2.openingStep)).endStep .inside

/-- COMMIT_SEAL_STEP (R115). -/
def execCommitSealStep (pulses : Pulses) (s : State) : Result :=
  s.stepWhen (s.due (.commit .seal)) fun s =>
    match s.staging with
    | [] => s
    | e :: _ => match s.headSegment e with
      | some k => s.sealStep pulses e k
      | none => s

/-! ### The opening steps (R116, R117) -/

/-- The free stage of a BLANK pool head (R116). -/
def State.openFreeStage (pulses : Pulses) (p : DataSeg) (s : State) : State :=
  let w := s.commitWork .freeStage
  let s1 := s.programmed w pulses
  if w.succeeds pulses s.array then
    ((s1.updSegment p fun g => { g with header := .free }).setJob (.commit .openStage)).endStep .inside
  else s1.withdraw p

/-- COMMIT_FREE_STAGE_STEP (R116). -/
def execCommitFreeStageStep (pulses : Pulses) (s : State) : Result :=
  s.stepWhen (s.due (.commit .freeStage)) fun s =>
    match s.pool with
    | [] => s
    | p :: _ => s.openFreeStage pulses p

/-- The segment table entry of a segment opened for an entry (R100, R116). -/
def Segment.openedFor (g : Segment) (e : Entry) (epoch : Nat) : Segment :=
  { g with
    location := .chain, header := .opened, owner := some e.stream, epoch := epoch, first := e.seq, last := e.seq - 1
    bytesUsed := 0 }

/-- The pool head joins the tail of the stream's chain (R116). -/
def State.joinChain (e : Entry) (p : DataSeg) (s : State) : State :=
  let s1 := s.updSegment p fun g => g.openedFor e s.streams[e.stream].epoch
  State.updStream { s1 with pool := s1.pool.tail } e.stream fun t => { t with chain := t.chain ++ [p] }

/-- The entries awaiting a replacement are placed into it (R120). -/
def State.placeAwaiting (i : StreamId) (s : State) : State :=
  { s with staging := s.staging.map fun e =>
      if e.stream = i ∧ e.placement = .awaiting then { e with placement := .current } else e }

/-- The open stage has succeeded (R116, R120): a reservation is used up, or the entries awaiting a replacement get it and the
held side is evaluated. -/
def State.opened (e : Entry) (p : DataSeg) (s : State) : State :=
  let s1 := s.joinChain e p
  let s2 := match e.placement with
    | .new => s1.updStream e.stream fun t => { t with reserved := t.reserved - 1 }
    | .current => (s1.placeAwaiting e.stream).evalHeld e.stream
    | .awaiting => (s1.placeAwaiting e.stream).evalHeld e.stream
  (s2.setJob (.commit .record)).endStep .inside

/-- The open stage of the pool head (R116, R117). -/
def State.openStep (pulses : Pulses) (e : Entry) (p : DataSeg) (s : State) : State :=
  let w := s.commitWork .openStage
  let s1 := s.programmed w pulses
  if w.succeeds pulses s.array then s1.opened e p else s1.withdraw p

/-- COMMIT_OPEN_STEP (R116, R117, R120). -/
def execCommitOpenStep (pulses : Pulses) (s : State) : Result :=
  s.stepWhen (s.due (.commit .openStage)) fun s =>
    match s.staging, s.pool with
    | e :: _, p :: _ => s.openStep pulses e p
    | [], _ => s
    | _ :: _, [] => s

/-- The retire write of a segment whose opening failed (R117). -/
def State.openRetireStep (pulses : Pulses) (e : Entry) (p : DataSeg) (s : State) : State :=
  let w := s.commitWork (.openRetire p)
  ((s.programmed w pulses).updSegment p fun g =>
    { g with header := if w.succeeds pulses s.array then .retired else g.header }).continueOpening e

/-- COMMIT_OPEN_RETIRE_STEP (R117). -/
def execCommitOpenRetireStep (pulses : Pulses) (s : State) : Result :=
  match s.engine.job with
  | some (.commit (.openRetire p)) =>
    s.stepWhen (s.due (.commit (.openRetire p))) fun s =>
      match s.staging with
      | [] => s
      | e :: _ => s.openRetireStep pulses e p
  | _ => .next s

/-! ### The record step (R118, R119) -/

/-- A record has been committed (R60, R118). -/
def State.committed (e : Entry) (k : DataSeg) (s : State) : State :=
  let s1 := (s.updStream e.stream fun t => { t with lastCommitted := e.seq }).updSegment k fun g =>
    { g with last := e.seq, bytesUsed := g.bytesUsed + footprint e.payload.length }
  let s2 := State.evalUnread e.stream { s1 with staging := s1.staging.tail }
  ((s2.satisfy (SyncItem.committedIn e.stream s.streams[e.stream].epoch e.seq)).evalSync).endRecord

/-- The later entries of a stream that were to go into the segment (R119): those before its next new-segment entry. -/
def markAwaiting (i : StreamId) : List Entry → List Entry
  | [] => []
  | e :: es =>
    if e.stream = i then
      (if e.placement = .new then e :: es else { e with placement := .awaiting } :: markAwaiting i es)
    else e :: markAwaiting i es

/-- A record program has failed (R119). -/
def State.recordFailed (e : Entry) (k : DataSeg) (s : State) : State :=
  let s1 := s.updSegment k fun g => { g with poisoned := true }
  let s2 := { s1 with staging := { e with placement := .awaiting } :: markAwaiting e.stream s1.staging.tail }
  (s2.setJob (.commit (.close k))).endStep .inside

/-- The record step for a head entry and the last segment of its stream's chain (R118, R119). -/
def State.recordStep (pulses : Pulses) (e : Entry) (k : DataSeg) (s : State) : State :=
  let w := s.commitWork .record
  let s1 := s.programmed w pulses
  if w.succeeds pulses s.array then s1.committed e k else s1.recordFailed e k

/-- COMMIT_RECORD_STEP (R118, R119). R96 has every record fit the segment that it is placed into; where one did not, the
machine stops (log 26). -/
def execCommitRecordStep (pulses : Pulses) (s : State) : Result :=
  match s.staging with
  | [] => .next s
  | e :: _ => match s.headSegment e with
    | none => .next s
    | some k =>
      if s.due (.commit .record) = true ∧ Config.recordArea < s.segments[k].bytesUsed + footprint e.payload.length then
        .fault .recordPastSegment
      else s.stepWhen (s.due (.commit .record)) (State.recordStep pulses e k)

/-! ### The close step (R119) -/

/-- The close step for a head entry and the segment its record failed in (R119 to R121). -/
def State.closeStep (pulses : Pulses) (e : Entry) (k : DataSeg) (s : State) : State :=
  let w := s.commitWork (.close k)
  let s1 := (s.programmed w pulses).updSegment k fun g => { g with header := .retirePending }
  ((s1.raise .segmentRetired).releaseCovered e.stream).continueOpening e

/-- COMMIT_CLOSE_STEP (R119 to R121). -/
def execCommitCloseStep (pulses : Pulses) (s : State) : Result :=
  match s.engine.job with
  | some (.commit (.close k)) =>
    s.stepWhen (s.due (.commit (.close k))) fun s =>
      match s.staging with
      | [] => s
      | e :: _ => s.closeStep pulses e k
  | _ => .next s

end Sys2Proof.Machine
end

