-- ==== Sys2Proof/Machine/Events.lean ====
section
/-! DEFINITION. READ EVENTS, CLEAR EVENTS and SET EVENT ENABLE (chapter 9). -/

namespace Sys2Proof.Machine

open Sys2Proof

/-- READ EVENTS (R172). -/
def execReadEvents (bytes : Nat) (s : State) : Result := outputFrame .plain .readEvents bytes noAction s

/-- CLEAR EVENTS (R174): clears the latch bits that are in the mask. -/
def execClearEvents (mask : Word16) (s : State) : Result :=
  actionFrame .plain 3 (fun s => ({ s with eventLatch := s.eventLatch &&& ~~~mask }, .done)) s

/-- SET EVENT ENABLE (R173): writes the whole enable. -/
def execSetEventEnable (enable : Word16) (s : State) : Result :=
  actionFrame .plain 3 (fun s => ({ s with eventEnable := enable }, .done)) s

end Sys2Proof.Machine
end

