-- ==== Sys2Proof/Machine/LedgerJob.lean ====
section
/-! DEFINITION. The LEDGER job (R137 to R144): image unit, note and anchor erase steps, compaction, what a completed entry
hands on, and the halt. -/

namespace Sys2Proof.Machine

open Sys2Proof

/-! ### What a completed entry hands on (R140) -/

/-- What an entry records: for a stream, its epoch and frontier (R132, R133). -/
abbrev Recorded := StreamId → Option (Nat × Nat)

/-- What an image records of every stream. -/
def ImageContent.recorded (c : ImageContent) : Recorded := fun i => some (c.streams[i].epoch, c.streams[i].frontier)

/-- What a note records: one stream. -/
def noteRecorded (i : StreamId) (epoch frontier : Nat) : Recorded := fun j => if j = i then some (epoch, frontier) else none

/-- A stream's durable frontier after an entry (R140, 1): unchanged where the entry records another epoch. -/
def Stream.handedOn (t : Stream) (r : Option (Nat × Nat)) : Stream :=
  match r with
  | some (e, f) => if e = t.epoch then { t with durableFrontier := max t.durableFrontier f } else t
  | none => t

/-- An entry satisfies the release condition of a segment (R101, R140, 2). -/
def Segment.releasedBy (g : Segment) (isImage : Bool) (r : Recorded) : Bool :=
  match g.release, g.owner with
  | some (.frontier q), some o => (r o).elim false fun x => x.1 == g.epoch && decide (q ≤ x.2)
  | some (.image e), some o => isImage && (r o).elim false fun x => x.1 == e
  | _, _ => false

/-- The release list's segments that an entry satisfies, in ascending index order (R101). -/
def State.satisfiedBy (s : State) (isImage : Bool) (r : Recorded) : List DataSeg :=
  (s.segmentsAt .release).filter fun k => s.segments[k].releasedBy isImage r

/-- An entry satisfies an item of the sync point (R66), the durable frontiers being those after it. -/
def State.syncedBy (s : State) (isImage : Bool) (r : Recorded) : SyncItem → Bool
  | .staged _ _ _ => false
  | .frontier i e q => e == s.streams[i].epoch && decide (q ≤ s.streams[i].durableFrontier)
  | .epochImage i e => isImage && (r i).elim false fun x => x.1 == e
  | .nextImage => false
  | .currentImage => isImage

/-- The end of a step that completes an entry (R140): durable frontiers, release list, sync point, in this order. -/
def State.handOn (isImage : Bool) (r : Recorded) (s : State) : State :=
  let s1 := { s with streams := tabulate fun i => s.streams[i].handedOn (r i) }
  let s2 := (s1.satisfiedBy isImage r).foldl (fun s k => s.dispose k) s1
  (s2.satisfy (s2.syncedBy isImage r)).evalSync

/-! ### The ledger's own fields -/

/-- A change of the ledger. -/
def State.updLedger (s : State) (f : Ledger → Ledger) : State := { s with ledger := f s.ledger }

/-- An image is captured (R138): image-needed is cleared, every pending note cancelled, and a sync point that waits for the
next image waits for this one (R65). -/
def State.captureImage (c : Captured) (s : State) : State :=
  { s.updLedger (fun l =>
      { l with captured := some c, imageNeeded := false, pendingNotes := Vector.replicate 8 false }) with
    sync := s.sync.map fun (items : List SyncItem) =>
      items.map fun x => if x = SyncItem.nextImage then SyncItem.currentImage else x }

/-- The image whose part the step programs: captured at the start of the step that writes its first unit (R138). -/
def State.beginImage (s : State) : State :=
  match s.ledger.captured with
  | some _ => s
  | none => s.captureImage s.freshCapture

/-- The captured image goes on at a part (R138, R141). -/
def Ledger.atPart (l : Ledger) (part : Nat) : Ledger :=
  { l with captured := l.captured.map fun c => { c with part := part } }

/-- The image is complete: its generation is the ledger's, and it hands on (R138, R140). -/
def State.completeImage (c : Captured) (s : State) : State :=
  (s.updLedger fun l => { l with generation := c.generation, captured := none }).handOn true c.content.recorded

/-- The job chooses again after a completed entry, and ends where no ledger work remains (R137). -/
def State.chooseAgain (s : State) : State :=
  match s.ledger.choose with
  | some w => (s.setJob (.ledger w)).endStep .inside
  | none => s.endStep .completed

/-- The ledger halts (R144); the job ends. -/
def State.haltLedger (s : State) : State :=
  (s.updLedger fun l => { l with halted := true, captured := none, imageNeeded := true }).raise .ledgerHalt

/-- The anchor erase count after a successful erase (R142). -/
def countErase (n : Nat) : Nat := min (n + 1) Config.maxAnchorErases

/-- The erase count of an anchor segment rises (R142). -/
def State.countAnchorErase (a : AnchorSeg) (s : State) : State :=
  s.updLedger fun l => { l with anchorErases := l.anchorErases.set a.val (countErase l.anchorErases[a]) }

/-! ### Images (R138, R141) -/

/-- A unit of an image outside compaction has been programmed (R138, R141): the next free unit advances either way. -/
def State.imageUnit (pulses : Pulses) (s : State) : State :=
  let w := s.ledgerWork .image
  let c := s.capturedOr s.freshCapture
  let s1 := ((s.beginImage).programmed w pulses).updLedger fun l => { l with nextFree := l.nextFree + 1 }
  if w.succeeds pulses s.array then
    if c.part < 7 then (s1.updLedger fun l => l.atPart (c.part + 1)).endStep .inside
    else (s1.completeImage c).chooseAgain
  else
    let s2 := s1.updLedger fun l => l.atPart 0
    (s2.setJob (.ledger (s2.ledger.orCompact 8 .image))).endStep .inside

/-! ### Compaction (R142, R143) -/

/-- An attempt's image has failed (R143): the second attempt begins, or the ledger halts. -/
def State.attemptFailed (target : AnchorSeg) (attempt : Nat) (s : State) : State :=
  if attempt = 1 then
    ((s.updLedger fun l => { l with captured := none, imageNeeded := true }).setJob
      (.ledger (.compactErase target 2 0))).endStep .inside
  else s.haltLedger.endStep .completed

/-- The target of a compaction becomes the current segment (R142). -/
def State.moveTo (target : AnchorSeg) (s : State) : State :=
  s.updLedger fun l => { l with current := some target, nextFree := 8 }

/-- A unit of a compaction's image has been programmed; `s` is the state once the image is captured (R142, R143). -/
def State.compactUnit (w : ArrayWork) (pulses : Pulses) (target : AnchorSeg) (attempt : Nat) (s : State) : State :=
  let c := s.capturedOr s.freshCapture
  let s1 := s.programmed w pulses
  if w.succeeds pulses s.array then
    if c.part < 7 then
      ((s1.updLedger fun l => l.atPart (c.part + 1)).setJob (.ledger (.compactImage target attempt))).endStep .inside
    else ((s1.moveTo target).completeImage c).chooseAgain
  else s1.attemptFailed target attempt

/-- The unit step of a LEDGER job that writes an image; each kind of work says where (R137, R138, R142). -/
def State.ledgerUnit (pulses : Pulses) (work : LedgerWork) (s : State) : State :=
  match work with
  | .image => s.imageUnit pulses
  | .compactCapture t a => (s.captureImage s.freshCapture).compactUnit (s.ledgerWork (.compactCapture t a)) pulses t a
  | .compactImage t a => s.compactUnit (s.ledgerWork (.compactImage t a)) pulses t a
  | .note _ => s
  | .compactErase _ _ _ => s

/-- The work writes a unit of an image. -/
def LedgerWork.isImage : LedgerWork → Bool
  | .image => true
  | .compactCapture _ _ => true
  | .compactImage _ _ => true
  | .note _ => false
  | .compactErase _ _ _ => false

/-- LEDGER_IMAGE_UNIT_STEP (R138, R141 to R143). -/
def execLedgerImageUnitStep (pulses : Pulses) (s : State) : Result :=
  match s.engine.job with
  | some (.ledger w) => s.stepWhen (w.isImage && s.due (.ledger w)) (State.ledgerUnit pulses w)
  | _ => .next s

/-- A note's unit has been programmed (R139, R141). -/
def State.noteUnitStep (pulses : Pulses) (i : StreamId) (s : State) : State :=
  let w := s.ledgerWork (.note i)
  let s1 := ((s.setNote i false).programmed w pulses).updLedger fun l => { l with nextFree := l.nextFree + 1 }
  if w.succeeds pulses s.array then
    (s1.handOn false (noteRecorded i s.streams[i].epoch s.streams[i].volatileFrontier)).chooseAgain
  else
    let s2 := s1.setNote i true
    (s2.setJob (.ledger (s2.ledger.orCompact 1 (.note i)))).endStep .inside

/-- LEDGER_NOTE_STEP (R139, R141). -/
def execLedgerNoteStep (pulses : Pulses) (s : State) : Result :=
  match s.engine.job with
  | some (.ledger (.note i)) => s.stepWhen (s.due (.ledger (.note i))) (State.noteUnitStep pulses i)
  | _ => .next s

/-- An erase pulse on the target of a compaction (R142, R144). -/
def State.compactPulse (residue : Residue) (target : AnchorSeg) (attempt applied : Nat) (s : State) : State :=
  let s1 := { s with array := erasePulse s.array target.val residue }
  if segmentErased s1.array target.val then
    ((s1.countAnchorErase target).setJob (.ledger (.compactCapture target attempt))).endStep .inside
  else if Config.erasePulses ≤ applied + 1 then s1.haltLedger.endStep .completed
  else (s1.setJob (.ledger (.compactErase target attempt (applied + 1)))).endStep .inside

/-- LEDGER_ANCHOR_ERASE_PULSE (R131, R142, R144). -/
def execLedgerAnchorErasePulse (residue : Residue) (s : State) : Result :=
  match s.engine.job with
  | some (.ledger (.compactErase t a n)) =>
    s.stepWhen (s.due (.ledger (.compactErase t a n))) (State.compactPulse residue t a n)
  | _ => .next s

end Sys2Proof.Machine
end

