-- ==== Sys2Proof/Machine/FormatJob.lean ====
section
/-! DEFINITION. FORMAT: its acceptance (R156), the steps of its job on the data segments (R157) and on the anchor segments
(R158), and its completion. -/

namespace Sys2Proof.Machine

open Sys2Proof

/-- Every data segment in ascending index order. -/
def allSegments : List DataSeg := List.finRange 510

/-- The job goes on through the segments given (R157): retired ones are passed over, RETIRE_PENDING ones join the retired list
without a pulse, the next other one is erased; then come the anchor segments (R158). -/
def State.formatNext : List DataSeg → State → State × FormatWork
  | [], s => (s, .anchorErase 0)
  | k :: ks, s =>
    if s.segments[k].location = .retired then State.formatNext ks s
    else if s.segments[k].header = .retirePending then State.formatNext ks ((s.unlist k).retire k)
    else (s, .segment k (.pulse 0))

/-- The guard allows FORMAT: as any guarded command, and with the format inhibit clear (R176). -/
def Guard.allowsFormat (g : Guard) (pinHigh : Bool) : Bool := g.allows pinHigh && !g.formatInhibit

/-- The checks and action of FORMAT (R156). -/
def State.formatBody (guardHigh : Bool) (s : State) : State × OutcomeCode :=
  if s.port.armLatch = false then (s, .notArmed)
  else if s.guard.allowsFormat guardHigh = false then (s, .guarded)
  else if s.engine.state ≠ .idle then (s, .busy)
  else (State.run (.format false (s.formatNext allSegments).2) { s with sync := none }, .done)

/-- FORMAT (R156). -/
def execFormat (guardHigh : Bool) (s : State) : Result := actionFrame .plain 1 (State.formatBody guardHigh) s

/-- A FORMAT step is due: nothing happens otherwise (log 1), and no side is evaluated during the job (R157). -/
def State.formatWhen (s : State) (due : Bool) (act : State → State) : Result := if due then .next (act s) else .next s

/-- The end of a FORMAT step that leaves work: at the end of the job's first step the RETIRE_PENDING segments that no other
segment precedes join the retired list (R157; log 29). -/
def State.formatOn (started : Bool) (work : FormatWork) (s : State) : State :=
  let s1 := if started then s else (s.formatNext allSegments).1
  (s1.setJob (.format true work)).endStep .inside

/-- The disposal of a segment is complete: the job goes on with the segments after it (R157). -/
def State.formatAfter (k : DataSeg) (s : State) : State :=
  let r := s.formatNext (allSegments.drop (k.val + 1))
  (r.1.setJob (.format true r.2)).endStep .inside

/-! ### Data segments (R157) -/

/-- The segment leaves its previous place and is ERASING (R157). -/
def State.formatTake (k : DataSeg) (s : State) : State :=
  (s.unlist k).updSegment k fun g => { g with location := .erasing, release := none }

/-- An erase pulse on a data segment (R157). -/
def State.formatPulse (residue : Residue) (started : Bool) (k : DataSeg) (applied : Nat) (s : State) : State :=
  let s1 := State.formatTake k { s with array := erasePulse s.array k.index residue }
  s1.formatOn started (.segment k (s1.afterPulse k applied))

/-- FORMAT_ERASE_PULSE (R157). -/
def execFormatErasePulse (residue : Residue) (s : State) : Result :=
  match s.engine.job with
  | some (.format b (.segment k (.pulse n))) =>
    s.formatWhen (s.due (.format b (.segment k (.pulse n)))) (State.formatPulse residue b k n)
  | _ => .next s

/-- The free stage with the new count (R157). -/
def State.formatFreeStage (pulses : Pulses) (started : Bool) (k : DataSeg) (count : Nat) (s : State) : State :=
  let w := ErasePhase.work k (.freeStage count)
  let ok := w.succeeds pulses s.array
  let s1 := (s.programmed w pulses).enterCount k count ok
  if returnsToPool count ok then (s1.toPool k).formatAfter k
  else s1.formatOn started (.segment k (.retire (retireCause ok) true))

/-- FORMAT_FREE_STAGE_STEP (R157). -/
def execFormatFreeStageStep (pulses : Pulses) (s : State) : Result :=
  match s.engine.job with
  | some (.format b (.segment k (.freeStage c))) =>
    s.formatWhen (s.due (.format b (.segment k (.freeStage c)))) (State.formatFreeStage pulses b k c)
  | _ => .next s

/-- The retire write (R157). -/
def State.formatRetire (pulses : Pulses) (k : DataSeg) (cause : Byte) (erased : Bool) (s : State) : State :=
  let w := ErasePhase.work k (.retire cause erased)
  ((s.programmed w pulses).endRetire k erased (w.succeeds pulses s.array)).formatAfter k

/-- FORMAT_RETIRE_STEP (R157). -/
def execFormatRetireStep (pulses : Pulses) (s : State) : Result :=
  match s.engine.job with
  | some (.format b (.segment k (.retire cause erased))) =>
    s.formatWhen (s.due (.format b (.segment k (.retire cause erased)))) (State.formatRetire pulses k cause erased)
  | _ => .next s

/-! ### Completion (R158) -/

/-- What completion gives its FORMAT value whether the ledger halts or not (R27, R158, R171, R179); then the engine selects. -/
def State.formatted (l : Ledger) (s : State) : State :=
  State.endStep .completed (State.setAllSides { s with
    streams := Vector.replicate 8 Stream.formatted
    guard := s.guard.formatted
    lowWater := 8
    ledger := l
    port := { s.port with receipt := none }
    sync := none })

/-- The ledger after a FORMAT that has written its image (R135). -/
def Ledger.formatted (l : Ledger) (generation : Word32) : Ledger where
  current := some 0
  nextFree := 8
  generation := generation
  imageNeeded := false
  pendingNotes := Vector.replicate 8 false
  captured := none
  anchorErases := l.anchorErases
  halted := false

/-- The ledger after a FORMAT that has halted it (R144, R158): current segment, next free unit and generation are kept. -/
def Ledger.formatHalted (l : Ledger) : Ledger :=
  { l with imageNeeded := true, pendingNotes := Vector.replicate 8 false, captured := none, halted := true }

/-- The job completes with the ledger halted, and LEDGER_HALT is raised (R158). -/
def State.formatHalt (s : State) : State := (s.raise .ledgerHalt).formatted s.ledger.formatHalted

/-! ### Anchor segments (R158) -/

/-- An erase pulse on an anchor segment: the work that follows where it passes, and where it does not (R158). -/
def State.anchorPulse (residue : Residue) (started : Bool) (target : AnchorSeg) (applied : Nat) (passed again : FormatWork)
    (s : State) : State :=
  let s1 := { s with array := erasePulse s.array target.val residue }
  if segmentErased s1.array target.val then (s1.countAnchorErase target).formatOn started passed
  else if Config.erasePulses ≤ applied + 1 then
    State.formatHalt (if started then s1 else (s1.formatNext allSegments).1)
  else s1.formatOn started again

/-- The anchor erase of the FORMAT job's present work (R158). -/
def State.formatAnchorPulse (residue : Residue) (started : Bool) (work : FormatWork) (s : State) : State :=
  match work with
  | .anchorErase n => s.anchorPulse residue started 1 n (.compactErase 1 0) (.anchorErase (n + 1))
  | .compactErase a n => s.anchorPulse residue started 0 n (.compactCapture a) (.compactErase a (n + 1))
  | .segment _ _ => s
  | .compactCapture _ => s
  | .compactImage _ => s

/-- The work erases an anchor segment. -/
def FormatWork.isAnchorErase : FormatWork → Bool
  | .anchorErase _ => true
  | .compactErase _ _ => true
  | .segment _ _ => false
  | .compactCapture _ => false
  | .compactImage _ => false

/-- FORMAT_ANCHOR_ERASE_PULSE (R158). -/
def execFormatAnchorErasePulse (residue : Residue) (s : State) : Result :=
  match s.engine.job with
  | some (.format b w) => s.formatWhen (w.isAnchorErase && s.due (.format b w)) (State.formatAnchorPulse residue b w)
  | _ => .next s

/-- An attempt's image does not stand: its capture is discarded, and an attempt begins at its erase step (R143, R158). -/
def State.formatRetry (attempt : Nat) (s : State) : State :=
  (s.updLedger fun l => { l with captured := none, imageNeeded := true }).formatOn true (.compactErase attempt 0)

/-- An attempt's image has failed (R143, R158). -/
def State.formatAttemptFailed (attempt : Nat) (s : State) : State :=
  if attempt = 1 then s.formatRetry 2 else s.formatHalt

/-- An image records the anchored fields of a guard (R132). -/
def ImageContent.records (c : ImageContent) (g : Guard) : Bool :=
  c.lockMode == g.anchored && c.appendLocks == g.appendLocks && c.formatInhibit == g.formatInhibit

/-- A unit of FORMAT's image has been programmed; `s` is the state once the image is captured (R143, R158). Part 7 completes the job
where the image records the guard of completion (R179). Where a WRITE GUARD naming PERMANENT has been accepted since the capture it
does not, and the attempt begins again (log 19). -/
def State.formatUnit (w : ArrayWork) (pulses : Pulses) (attempt : Nat) (s : State) : State :=
  let c := s.capturedOr s.formatCapture
  let s1 := s.programmed w pulses
  if w.succeeds pulses s.array then
    if c.part < 7 then (s1.updLedger fun l => l.atPart (c.part + 1)).formatOn true (.compactImage attempt)
    else if c.content.records s.guard.formatted then s1.formatted (s1.ledger.formatted c.generation)
    else s1.formatRetry attempt
  else s1.formatAttemptFailed attempt

/-- The image unit of the FORMAT job's present work (R158). -/
def State.formatImageUnit (pulses : Pulses) (work : FormatWork) (s : State) : State :=
  match work with
  | .compactCapture a => (s.captureImage s.formatCapture).formatUnit (s.formatWork (.compactCapture a)) pulses a
  | .compactImage a => s.formatUnit (s.formatWork (.compactImage a)) pulses a
  | .segment _ _ => s
  | .anchorErase _ => s
  | .compactErase _ _ => s

/-- The work writes a unit of FORMAT's image. -/
def FormatWork.isImage : FormatWork → Bool
  | .compactCapture _ => true
  | .compactImage _ => true
  | .segment _ _ => false
  | .anchorErase _ => false
  | .compactErase _ _ => false

/-- FORMAT_IMAGE_UNIT_STEP (R158). -/
def execFormatImageUnitStep (pulses : Pulses) (s : State) : Result :=
  match s.engine.job with
  | some (.format b w) => s.formatWhen (w.isImage && s.due (.format b w)) (State.formatImageUnit pulses w)
  | _ => .next s

end Sys2Proof.Machine
end

