-- ==== Sys2Proof/Machine/Port.lean ====
section
/-! DEFINITION. The host port's commands: null, discarded, unknown and ignored frames, ARM, DISARM, QUERY STATUS, RESET
ENABLE, the capture at SEL falling and the verdict (chapter 1). -/

namespace Sys2Proof.Machine

open Sys2Proof

/-- NULL_FRAME (R1): nothing changes but that SEL is high again. DESIGN CHOICE (log 34): where no STATUS_CAPTURE stood before it
in the queue, the captures of its SEL falling are not taken either, and the byte counter and the captured bytes of the frame before
it stay. A frame whose verdict is formed had clocks and is no null frame (log 1). -/
def execNullFrame (s : State) : Result :=
  if s.port.snapshot.isSome then .next s
  else .next { s with port := { s.port with frameState := .idle, frameIgnored := false } }

/-- DISCARDED_FRAME (R8, R10). -/
def execDiscardedFrame (bytes : Nat) (s : State) : Result := malformedFrame .frameLength bytes s

/-- UNKNOWN_COMMAND (R11). -/
def execUnknownCommand (bytes : Nat) (s : State) : Result := malformedFrame .unknownCommand bytes s

/-- IGNORED_FRAME (R25): nothing is recorded. In ACTIVE and RECOVERING no frame is ignored, but one that began where it was to
be (log 11). -/
def execIgnoredFrame (s : State) : Result := .next s.endIgnored

/-- ARM (R19): subject to checks 1 to 3 alone; leaves the latch set. -/
def execArm (s : State) : Result := actionFrame .arms 1 (fun s => (s, .done)) s

/-- DISARM (R19): leaves the latch clear. -/
def execDisarm (s : State) : Result := actionFrame .plain 1 (fun s => (s, .done)) s

/-- QUERY STATUS (R17). -/
def execQueryStatus (bytes : Nat) (s : State) : Result := outputFrame .transparent .queryStatus bytes noAction s

/-- RESET ENABLE (R20). -/
def execResetEnable (s : State) : Result := actionFrame .enables 1 (fun s => (s, .done)) s

/-- STATUS_CAPTURE (R1, R5, R6): SEL falls. In DOZING and WAKING the frame that begins is one that the device ignores (R25,
R161); in OFF no frame begins (R1), so that nothing is acted on when SEL rises, be it after a power-on. In ACTIVE and
RECOVERING a frame begins; the end of an ignored frame before it need not be queued (log 11), and while SEL is low in a frame
that the device serves it does not take place (log 1). -/
def execStatusCapture (s : State) : Result :=
  match s.power with
  | .off => .next { s with port := { s.port with frameIgnored := true } }
  | .dozing => .next { s with port := { s.port with frameIgnored := true } }
  | .waking => .next { s with port := { s.port with frameIgnored := true } }
  | _ => if s.port.frameState = .idle then .next s.capture else .next s

/-- VERDICT (R9): an output command's arguments are complete, and its verdict and data are fixed. In an ignored frame, or in a
frame whose verdict is formed, it does not take place (log 1). -/
def execVerdict (c : OutputCommand) (s : State) : Result :=
  if (s.power = .active ∨ s.power = .recovering) ∧ s.port.frameIgnored = false ∧ s.port.snapshot = none then
    .next (s.beginFrame.formVerdict c)
  else .next s

end Sys2Proof.Machine
end

