-- ==== Sys2Proof/Machine/Power.lean ====
section
/-! DEFINITION. Power-on, power loss, soft reset, doze and wake, and the ends of the recovery scan's and the wake phase's
states (chapter 8, but for the scan and FORMAT). -/

namespace Sys2Proof.Machine

open Sys2Proof

/-- The volatile state takes its reset values; the array, the vault, the lock cells and the waiting commands stay (R147,
R162). The counter of free values goes on. -/
def State.clearVolatile (s : State) : State :=
  { State.reset with
    array := s.array, vault := s.vault, lockCells := s.lockCells, freeIndex := s.freeIndex, pending := s.pending }

/-- SEL is low in a frame, processed or ignored. -/
def Port.inFrame (p : Port) : Bool := p.frameState != .idle || p.frameIgnored

/-- POWER_ON (R146, R147): OFF to RECOVERING with every volatile item at its reset value. A frame that power loss
interrupted stays one that is never acted on (R24). With the supply up already it does not take place (log 1). -/
def execPowerOn (s : State) : Result :=
  if s.power = .off then
    .next { s.clearVolatile with port := { Port.reset with frameIgnored := s.port.frameIgnored } }
  else .next s

/-- POWER_LOSS (R146, R159): the step in progress is cut short, all volatile state is lost, and a frame in progress is never
acted on (R24). With the supply down already it does not take place (log 1). -/
def execPowerLoss (cut : Cut) (s : State) : Result :=
  if s.power = .off then .next s
  else
    .next { (s.abandonStep cut).clearVolatile with
      power := .off, port := { Port.reset with frameIgnored := s.port.inFrame } }

/-- The soft reset (R155): the step in progress is abandoned, volatile state is reset with a working SESSION lock kept, and
the power state becomes RECOVERING. -/
def State.softReset (cut : Cut) (s : State) : State :=
  { (s.abandonStep cut).clearVolatile with
    guard := { Guard.default with working := if s.guard.working = .session then .session else .opened } }

/-- RESET (R21): refused NOT_ENABLED with the reset-enable flag clear; otherwise the soft reset, after which the port holds
the values that R12 and R21 give it. DESIGN CHOICE (log 10): they give none for the byte counter, which keeps 1, the bytes of the
RESET frame, until SEL falls again (R1). -/
def execReset (cut : Cut) (s : State) : Result :=
  if s.power = .active ∧ s.port.frameIgnored = false ∧ s.port.snapshot = none ∧ s.port.resetEnable = true then
    .next { s.softReset cut with port := { Port.reset with byteCounter := 1, sout := s.beginFrame.port.frameOutput 1 } }
  else actionFrame .plain 1 (fun s => (s, .notEnabled)) s

/-- DOZE (R160): refused BUSY unless the engine is IDLE and no ledger work is pending. -/
def execDoze (s : State) : Result :=
  actionFrame .plain 1 (fun s =>
    if s.engine.state ≠ .idle ∨ s.ledger.workPending = true then (s, .busy)
    else ({ s with power := .dozing }, .done)) s

/-- WAKE (R25, R161): in DOZING it makes the power state WAKING and changes nothing else; in ACTIVE it records DONE. -/
def execWake (s : State) : Result :=
  if s.power = .dozing then .next { s.endIgnored with power := .waking }
  else actionFrame .plain 1 (fun s => (s, .done)) s

/-- WAKE_PHASE_END (R161): WAKING to ACTIVE, and nothing else. -/
def execWakePhaseEnd (s : State) : Result :=
  if s.power = .waking then .next { s with power := .active } else .next s

end Sys2Proof.Machine
end

