-- ==== Sys2Proof/Machine/Streams.lean ====
section
/-! DEFINITION. CONFIGURE STREAM, OPEN STREAM, CLOSE STREAM, RESET STREAM and STREAM INFO (chapter 2). -/

namespace Sys2Proof.Machine

open Sys2Proof

/-- The outcome of a command that changes an anchored value (R31, R144): DONE, or LEDGER_HALTED while the ledger is halted. -/
def Ledger.outcome (l : Ledger) : OutcomeCode := if l.halted then .ledgerHalted else .done

/-- A stream is empty (R39): nothing staged and nothing unacknowledged. -/
def State.streamEmpty (s : State) (i : StreamId) : Bool :=
  s.stagedCount i == 0 && s.streams[i].lastCommitted == s.streams[i].volatileFrontier

/-- The policy of a CONFIGURE STREAM whose policy, quota and high-water are legal together (R39). -/
def configPolicy (policy : Byte) (quota highWater : Word16) : Option Policy :=
  match policyOf policy with
  | none => none
  | some p =>
    if p.minQuota ≤ quota.toNat ∧ quota.toNat ≤ 510 ∧ 1 ≤ highWater.toNat ∧ highWater.toNat ≤ quota.toNat then some p
    else none

/-- An accepted CONFIGURE STREAM (R40, R171). -/
def State.configure (i : StreamId) (p : Policy) (quota highWater backlog : Nat) (s : State) : State :=
  ((s.updStream i fun t => { t with policy := p, quota := quota, highWater := highWater, backlog := backlog }).setStreamSides
    i).needImage.selectIfIdle

/-- The checks and action of CONFIGURE STREAM (R39, R40). -/
def State.configureBody (stream policy : Byte) (quota highWater backlog : Word16) (guardHigh : Bool) (s : State) :
    State × OutcomeCode :=
  if s.port.armLatch = false then (s, .notArmed)
  else
    match streamOf stream with
    | none => (s, .noStream)
    | some i =>
      match configPolicy policy quota highWater with
      | none => (s, .badArgument)
      | some p =>
        if s.guard.allows guardHigh = false then (s, .guarded)
        else if s.streams[i].state ≠ .idle ∨ s.streamEmpty i = false then (s, .wrongState)
        else (s.configure i p quota.toNat highWater.toNat backlog.toNat, s.ledger.outcome)

/-- CONFIGURE STREAM (R39, R40). -/
def execConfigureStream (stream policy : Byte) (quota highWater backlog : Word16) (guardHigh : Bool) (s : State) : Result :=
  actionFrame .plain 9 (State.configureBody stream policy quota highWater backlog guardHigh) s

/-- A transition of the stream state that sets image-needed (R31). -/
def State.moveStream (i : StreamId) (target : StreamState) (s : State) : State :=
  (s.updStream i fun t => { t with state := target }).needImage.selectIfIdle

/-- The checks and action of OPEN STREAM (R32). -/
def State.openBody (stream : Byte) (guardHigh : Bool) (s : State) : State × OutcomeCode :=
  if s.port.armLatch = false then (s, .notArmed)
  else
    match streamOf stream with
    | none => (s, .noStream)
    | some i =>
      if s.guard.allows guardHigh = false then (s, .guarded)
      else if s.streams[i].state ≠ .idle then (s, .wrongState)
      else (s.moveStream i .opened, s.ledger.outcome)

/-- OPEN STREAM (R32). -/
def execOpenStream (stream : Byte) (guardHigh : Bool) (s : State) : Result :=
  actionFrame .plain 2 (State.openBody stream guardHigh) s

/-- The checks and action of CLOSE STREAM (R33). -/
def State.closeBody (stream : Byte) (guardHigh : Bool) (s : State) : State × OutcomeCode :=
  if s.port.armLatch = false then (s, .notArmed)
  else
    match streamOf stream with
    | none => (s, .noStream)
    | some i =>
      if s.guard.allows guardHigh = false then (s, .guarded)
      else if s.streams[i].state ≠ .opened ∧ s.streams[i].state ≠ .faulted then (s, .wrongState)
      else (s.moveStream i .idle, s.ledger.outcome)

/-- CLOSE STREAM (R33). -/
def execCloseStream (stream : Byte) (guardHigh : Bool) (s : State) : Result :=
  actionFrame .plain 2 (State.closeBody stream guardHigh) s

/-- A stream record after RESET STREAM (R43); its sides are set for the emptied counts (R171). -/
def Stream.reset (t : Stream) : Stream :=
  { t with
    state := .idle, epoch := t.epoch + 1, nextSeq := 1, lastCommitted := 0, volatileFrontier := 0, durableFrontier := 0
    cursor := 1, marks := [], chain := [], reserved := 0, notices := 0, overrun := 0 }

/-- The segments of a reset stream (R44): its chain joins the release list, and every condition that a segment of the stream
waits for there becomes the image with the new epoch. -/
def State.releaseReset (i : StreamId) (chain : List DataSeg) (epoch : Nat) (s : State) : State :=
  { s with segments := tabulate fun k =>
      if k ∈ chain then { s.segments[k] with location := .release, release := some (.image epoch) }
      else if s.segments[k].location = .release ∧ s.segments[k].owner = some i then
        { s.segments[k] with release := some (.image epoch) }
      else s.segments[k] }

/-- A LEDGER job that had chosen the stream's note, now cancelled, chooses again (R44, R137; log 16). -/
def State.rechoose (i : StreamId) (s : State) : State :=
  if s.engine.job = some (.ledger (.note i)) then
    match s.ledger.choose with
    | some w => s.setJob (.ledger w)
    | none => s
  else s

/-- An accepted RESET STREAM (R43, R44, R67, R171). The sync point is evaluated at the end of the frame action, and SYNC_DONE is
raised there where no item is left (R66 to R68; log 35). -/
def State.resetStream (i : StreamId) (s : State) : State :=
  let epoch := s.streams[i].epoch + 1
  let s1 := s.releaseReset i s.streams[i].chain epoch
  let s2 := (s1.updStream i Stream.reset).setStreamSides i
  let s3 := { s2 with staging := s2.staging.filter fun e => e.stream != i }
  let s4 := ((s3.setNote i false).needImage).rechoose i
  let s5 := s4.satisfy (SyncItem.isStagedOf i)
  let s6 := { s5 with sync := s5.sync.map fun (items : List SyncItem) => items.map (SyncItem.rewait i epoch) }
  (s6.evalSync.selectIfIdle).evalPool s.available

/-- The checks and action of RESET STREAM (R42, R43). -/
def State.resetBody (stream : Byte) (guardHigh : Bool) (s : State) : State × OutcomeCode :=
  if s.port.armLatch = false then (s, .notArmed)
  else
    match streamOf stream with
    | none => (s, .noStream)
    | some i =>
      if s.guard.allows guardHigh = false then (s, .guarded)
      else if s.engine.holdsCommit = true then (s, .busy)
      else if s.streams[i].epoch = Config.max32 then (s, .wrongState)
      else (s.resetStream i, s.ledger.outcome)

/-- RESET STREAM (R42 to R44). -/
def execResetStream (stream : Byte) (guardHigh : Bool) (s : State) : Result :=
  actionFrame .plain 2 (State.resetBody stream guardHigh) s

/-- The notices that STREAM INFO clears at SEL high (R48): named in the mask, shown, and still set. Nothing where the notices
byte, at position 65, is not completely out. -/
def State.clearNotices (stream mask : Byte) (bytes : Nat) (n : Snapshot) (s : State) : State :=
  match streamOf stream with
  | none => s
  | some i =>
    if 66 ≤ bytes then s.updStream i fun t => { t with notices := t.notices &&& ~~~(mask &&& n.notices) } else s

/-- STREAM INFO (R46 to R48). -/
def execStreamInfo (stream mask : Byte) (bytes : Nat) (s : State) : Result :=
  outputFrame .plain (.streamInfo stream mask) bytes (State.clearNotices stream mask bytes) s

end Sys2Proof.Machine
end

