-- ==== Sys2Proof/Machine/Protection.lean ====
section
/-! DEFINITION. The guard, the vault and the identity commands (chapter 10). -/

namespace Sys2Proof.Machine

open Sys2Proof

/-- READ GUARD (R180). -/
def execReadGuard (bytes : Nat) (s : State) : Result := outputFrame .plain .readGuard bytes noAction s

/-- The guard after an accepted WRITE GUARD (R178). -/
def Guard.written (g : Guard) (m : LockMode) (locks : Byte) (inhibit : Bool) : Guard :=
  { working := m, anchored := if m = .session then g.anchored else m, appendLocks := locks, formatInhibit := inhibit }

/-- The anchored guard of two guards differs in some field (R178). -/
def Guard.anchoredDiffers (g h : Guard) : Bool :=
  g.anchored != h.anchored || g.appendLocks != h.appendLocks || g.formatInhibit != h.formatInhibit

/-- An accepted WRITE GUARD (R178). -/
def State.writeGuard (m : LockMode) (locks : Byte) (inhibit : Bool) (s : State) : State × OutcomeCode :=
  let g := s.guard.written m locks inhibit
  if s.guard.anchoredDiffers g then
    ((State.needImage { s with guard := g }).selectIfIdle, s.ledger.outcome)
  else ({ s with guard := g }, .done)

/-- The checks and action of WRITE GUARD (R178). -/
def State.writeGuardBody (mode locks inhibit : Byte) (guardHigh : Bool) (s : State) : State × OutcomeCode :=
  if s.port.armLatch = false then (s, .notArmed)
  else
    match lockModeOf mode, flagOf inhibit with
    | some m, some f => if s.guard.allows guardHigh = false then (s, .guarded) else s.writeGuard m locks f
    | _, _ => (s, .badArgument)

/-- WRITE GUARD (R178). -/
def execWriteGuard (mode locks inhibit : Byte) (guardHigh : Bool) (s : State) : Result :=
  actionFrame .plain 4 (State.writeGuardBody mode locks inhibit guardHigh) s

/-- VAULT READ (R181). -/
def execVaultRead (page offset : Byte) (bytes : Nat) (s : State) : Result :=
  outputFrame .plain (.vaultRead page offset) bytes noAction s

/-- The checks that the vault write commands share after their arguments' own, and the start of the VAULT job (R182). -/
def State.startVault (page : Fin 4) (w : VaultWork) (s : State) : State × OutcomeCode :=
  if s.engine.state ≠ .idle then (s, .busy)
  else if s.vaultLocks[page] = true then (s, .vaultLocked)
  else (s.run (.vault w), .done)

/-- The checks and action of VAULT WRITE (R182). -/
def State.vaultWriteBody (page offset length : Byte) (data : List Byte) (s : State) : State × OutcomeCode :=
  if s.port.armLatch = false then (s, .notArmed)
  else
    match pageOf page with
    | none => (s, .badArgument)
    | some p =>
      if 128 ≤ offset.toNat ∨ length.toNat = 0 ∨ 128 < length.toNat ∨ 128 < offset.toNat + length.toNat then
        (s, .badArgument)
      else s.startVault p (.write p offset.toNat data)

/-- VAULT WRITE (R182). A frame that does not hold exactly as many data bytes as its length field says is discarded (R7). -/
def execVaultWrite (page offset length : Byte) (data : List Byte) (s : State) : Result :=
  if data.length = length.toNat then
    actionFrame .plain (4 + data.length) (State.vaultWriteBody page offset length data) s
  else malformedFrame .frameLength (4 + data.length) s

/-- The checks and action of VAULT ERASE (R182). -/
def State.vaultEraseBody (page : Byte) (s : State) : State × OutcomeCode :=
  if s.port.armLatch = false then (s, .notArmed)
  else
    match pageOf page with
    | none => (s, .badArgument)
    | some p => s.startVault p (.erase p 0)

/-- VAULT ERASE (R182). -/
def execVaultErase (page : Byte) (s : State) : Result := actionFrame .plain 2 (State.vaultEraseBody page) s

/-- The checks and action of VAULT LOCK (R182). -/
def State.vaultLockBody (page : Byte) (s : State) : State × OutcomeCode :=
  if s.port.armLatch = false then (s, .notArmed)
  else
    match pageOf page with
    | none => (s, .badArgument)
    | some p => s.startVault p (.lock p)

/-- VAULT LOCK (R182). -/
def execVaultLock (page : Byte) (s : State) : Result := actionFrame .plain 2 (State.vaultLockBody page) s

/-- IDENTIFY (R184). -/
def execIdentify (bytes : Nat) (s : State) : Result := outputFrame .plain .identify bytes noAction s

/-- DESCRIPTOR (R185). -/
def execDescriptor (bytes : Nat) (s : State) : Result := outputFrame .plain .descriptor bytes noAction s

end Sys2Proof.Machine
end

