-- ==== Sys2Proof/Machine/Reading.lean ====
section
/-! DEFINITION. FETCH, ACK and the mark commands (chapter 4). -/

namespace Sys2Proof.Machine

open Sys2Proof

/-- The delivered records whose last byte is out after so many bytes of the frame (R78): the verdict stands at position 8 and
record data from position 9 on. -/
def Snapshot.counted (n : Snapshot) (bytes : Nat) : Nat := (n.recordEnds.filter fun e => decide (9 + e ≤ bytes)).length

/-- The SEL-high action of FETCH (R78): the CURSOR form moves the cursor past the records counted, and DRAINED is evaluated. -/
def State.advanceCursor (stream form : Byte) (bytes : Nat) (n : Snapshot) (s : State) : State :=
  match streamOf stream with
  | none => s
  | some i =>
    if form = 0 ∧ 0 < n.counted bytes then
      (s.updStream i fun t => { t with cursor := n.start + n.counted bytes }).evalUnread i
    else s

/-- FETCH (R70 to R79). -/
def execFetch (stream form : Byte) (operand : Word32) (count : Byte) (bytes : Nat) (s : State) : Result :=
  outputFrame .plain (.fetch stream form operand count) bytes (State.advanceCursor stream form bytes) s

/-- An accepted ACK that names a sequence above the volatile frontier (R81): frontier, cursor, release, conditions. The
unread count changes only where the cursor moves (R169). -/
def State.acknowledge (i : StreamId) (q : Nat) (s : State) : State :=
  let s1 := s.updStream i fun t => { t with volatileFrontier := q, cursor := max t.cursor (q + 1) }
  let s2 := s1.releaseCovered i
  (if s1.streams[i].cursor = s.streams[i].cursor then s2 else s2.evalUnread i).selectIfIdle

/-- The checks and action of ACK (R80, R81). -/
def State.ackBody (stream : Byte) (sequence : Word32) (s : State) : State × OutcomeCode :=
  match streamOf stream with
  | none => (s, .noStream)
  | some i =>
    if s.engine.formatRuns = true then (s, .busy)
    else if s.streams[i].lastCommitted < sequence.toNat then (s, .notYet)
    else if sequence.toNat ≤ s.streams[i].volatileFrontier then (s, .done)
    else (s.acknowledge i sequence.toNat, .done)

/-- ACK (R80 to R83). -/
def execAck (stream : Byte) (sequence : Word32) (s : State) : Result :=
  actionFrame .plain 6 (State.ackBody stream sequence) s

/-- Push the cursor (R86): on a full stack the bottom mark is lost, with the notice and the event. -/
def State.pushMark (i : StreamId) (s : State) : State :=
  let s1 := s.updStream i fun t => { t with marks := (t.cursor :: t.marks).take Config.markDepth }
  if Config.markDepth ≤ s.streams[i].marks.length then (s1.notify i .markLost).raise .markLost else s1

/-- The checks and action of PUSH MARK (R85, R86). -/
def State.pushBody (stream : Byte) (s : State) : State × OutcomeCode :=
  match streamOf stream with
  | none => (s, .noStream)
  | some i => if s.engine.formatRuns = true then (s, .busy) else (s.pushMark i, .done)

/-- PUSH MARK (R85, R86). -/
def execPushMark (stream : Byte) (s : State) : Result := actionFrame .plain 2 (State.pushBody stream) s

/-- The checks and action of POP MARK (R85, R87). -/
def State.popBody (stream : Byte) (s : State) : State × OutcomeCode :=
  match streamOf stream with
  | none => (s, .noStream)
  | some i =>
    if s.engine.formatRuns = true then (s, .busy)
    else if s.streams[i].marks = [] then (s, .markEmpty)
    else (s.updStream i fun t => { t with marks := t.marks.tail }, .done)

/-- POP MARK (R85, R87). -/
def execPopMark (stream : Byte) (s : State) : Result := actionFrame .plain 2 (State.popBody stream) s

/-- A mark brought into the cursor's range (R89). -/
def Stream.clamp (t : Stream) (mark : Nat) : Nat :=
  if mark < t.volatileFrontier + 1 then t.volatileFrontier + 1
  else if t.lastCommitted + 1 < mark then t.lastCommitted + 1
  else mark

/-- The cursor moves (R88); DRAINED is evaluated where it changes (R169). -/
def State.moveCursor (i : StreamId) (q : Nat) (s : State) : State :=
  if q = s.streams[i].cursor then s else (s.updStream i fun t => { t with cursor := q }).evalUnread i

/-- REWIND by its mode (R88). -/
def State.rewind (i : StreamId) (m : RewindMode) (s : State) : State × OutcomeCode :=
  match m, s.streams[i].marks with
  | .oldest, _ => (s.moveCursor i (s.streams[i].volatileFrontier + 1), .done)
  | _, [] => (s, .markEmpty)
  | .top, q :: _ => (s.moveCursor i (s.streams[i].clamp q), .done)
  | .topPop, q :: qs =>
    ((s.moveCursor i (s.streams[i].clamp q)).updStream i fun t => { t with marks := qs }, .done)

/-- The checks and action of REWIND (R85, R88). -/
def State.rewindBody (stream mode : Byte) (s : State) : State × OutcomeCode :=
  match streamOf stream with
  | none => (s, .noStream)
  | some i =>
    match rewindModeOf mode with
    | none => (s, .badArgument)
    | some m => if s.engine.formatRuns = true then (s, .busy) else s.rewind i m

/-- REWIND (R85, R88, R89). -/
def execRewind (stream mode : Byte) (s : State) : Result := actionFrame .plain 3 (State.rewindBody stream mode) s

end Sys2Proof.Machine
end

