-- ==== Sys2Proof/Machine/Reclaim.lean ====
section
/-! DEFINITION. The RECLAIM job (R123 to R126): erase pulse, free stage and retire steps. -/

namespace Sys2Proof.Machine

open Sys2Proof

/-- The segment being reclaimed has left the queue and is ERASING (R102, R123). -/
def State.takeForErase (k : DataSeg) (s : State) : State :=
  State.updSegment { s with reclaim := s.reclaim.filter (· != k) } k fun g => { g with location := .erasing }

/-- Where an erase phase leaves a job that gives way only after an unsuccessful pulse (R112, R123). -/
def ErasePhase.stepEnd : ErasePhase → StepEnd
  | .pulse _ => .boundary
  | .freeStage _ => .inside
  | .retire _ _ => .inside

/-- One erase pulse (R110, R123, R125). -/
def State.reclaimPulse (residue : Residue) (k : DataSeg) (applied : Nat) (s : State) : State :=
  let s1 := State.takeForErase k { s with array := erasePulse s.array k.index residue }
  (s1.setJob (.reclaim k (s1.afterPulse k applied))).endStep (s1.afterPulse k applied).stepEnd

/-- RECLAIM_ERASE_PULSE (R123, R125, R126). -/
def execReclaimErasePulse (residue : Residue) (s : State) : Result :=
  match s.engine.job with
  | some (.reclaim k (.pulse n)) => s.stepWhen (s.due (.reclaim k (.pulse n))) (State.reclaimPulse residue k n)
  | _ => .next s

/-- The free stage with the new count (R123, R124). -/
def State.reclaimFreeStage (pulses : Pulses) (k : DataSeg) (count : Nat) (s : State) : State :=
  let w := ErasePhase.work k (.freeStage count)
  let ok := w.succeeds pulses s.array
  let s1 := (s.programmed w pulses).enterCount k count ok
  if returnsToPool count ok then (s1.toPool k).endStep .completed
  else (s1.setJob (.reclaim k (.retire (retireCause ok) true))).endStep .inside

/-- RECLAIM_FREE_STAGE_STEP (R123, R124). -/
def execReclaimFreeStageStep (pulses : Pulses) (s : State) : Result :=
  match s.engine.job with
  | some (.reclaim k (.freeStage c)) =>
    s.stepWhen (s.due (.reclaim k (.freeStage c))) (State.reclaimFreeStage pulses k c)
  | _ => .next s

/-- The retire write (R124, R125). -/
def State.reclaimRetire (pulses : Pulses) (k : DataSeg) (cause : Byte) (erased : Bool) (s : State) : State :=
  let w := ErasePhase.work k (.retire cause erased)
  ((s.programmed w pulses).endRetire k erased (w.succeeds pulses s.array)).endStep .completed

/-- RECLAIM_RETIRE_STEP (R124, R125). -/
def execReclaimRetireStep (pulses : Pulses) (s : State) : Result :=
  match s.engine.job with
  | some (.reclaim k (.retire cause erased)) =>
    s.stepWhen (s.due (.reclaim k (.retire cause erased))) (State.reclaimRetire pulses k cause erased)
  | _ => .next s

end Sys2Proof.Machine
end

