-- ==== Sys2Proof/Machine/Recovery.lean ====
section
/-! DEFINITION. The recovery scan (R148 to R154): the ledger as it reads (R134), the classification of every data segment,
the rebuilding of each stream, and the completion. -/

namespace Sys2Proof.Machine

open Sys2Proof

/-! ### The first phase: the anchor segments (R134, R148) -/

/-- The units of an anchor segment, 0 to 127, the valid ones as they read (R134). `cells` are the segment's bytes. -/
def readUnits (cells : Memory) (seg : AnchorSeg) : List (Option RawUnit) :=
  (List.range Config.anchorUnits).map fun u =>
    if cells.any fun c => c.1 / 32 == unitAddr seg u / 32 then parseUnit (readBytes cells (unitAddr seg u) 32) else none

/-- A valid image with its unit position (R134). -/
structure FoundImage where
  position : Nat
  generation : Word32
  content : ImageContent
  deriving DecidableEq, Repr

/-- Units that carry the parts from `p` on in order, all with one generation: their contents (R134). -/
def imageRun (generation : Word32) : Nat → List (Option RawUnit) → Option (List (List Byte))
  | _, [] => some []
  | _, none :: _ => none
  | p, some u :: us =>
    if u.kind = 1 ∧ u.part.toNat = p ∧ u.generation = generation then (imageRun generation (p + 1) us).map (u.content :: ·)
    else none

/-- The image at a unit position, if it is valid (R134). -/
def imageAt (units : List (Option RawUnit)) (p : Nat) : Option FoundImage :=
  match units.drop p with
  | some u :: us =>
    if 7 ≤ us.length then
      ((imageRun u.generation 0 (some u :: us.take 7)).bind parseImage).map fun c =>
        { position := p, generation := u.generation, content := c }
    else none
  | _ => none

/-- The image in force of a valid anchor segment (R134): the valid image at the highest position. -/
def imageInForce (units : List (Option RawUnit)) : Option FoundImage :=
  (List.range Config.anchorUnits).foldl (fun best p => (imageAt units p).or best) none

/-- The next free unit (R134): after the highest unit in which any byte reads other than FFh. -/
def nextFreeUnit (cells : Memory) (seg : AnchorSeg) : Nat :=
  cells.foldl (fun n c => if c.2 = erasedByte then n else max n ((c.1 - segmentBase seg.val) / 32 + 1)) 0

/-- A stream's anchored fields with a note applied, where the note is applicable (R133, R134): it stands at the position
given, carries the generation of the image in force and the epoch that image records for its stream. -/
def applyNote (f : FoundImage) (streams : Vector StreamImage 8) (position : Nat) (u : RawUnit) : Vector StreamImage 8 :=
  match streamOf (byteOf (contentField u.content 0 1)) with
  | none => streams
  | some i =>
    if u.kind = 2 ∧ f.position < position ∧ u.generation = f.generation
        ∧ contentField u.content 1 4 = f.content.streams[i].epoch then
      streams.set i.val { streams[i] with frontier := max streams[i].frontier (contentField u.content 5 4) }
    else streams

/-- Every applicable note, in ascending unit order (R134). -/
def applyNotes (f : FoundImage) (units : List (Option RawUnit)) : Vector StreamImage 8 :=
  ((List.range Config.anchorUnits).zip units).foldl
    (fun streams x => x.2.elim streams fun u => applyNote f streams x.1 u) f.content.streams

/-- An anchor segment as read: its unit-0 image, and what is in force in it (R134). -/
structure AnchorRead where
  unit0 : FoundImage
  inForce : FoundImage
  streams : Vector StreamImage 8
  nextFree : Nat
  deriving DecidableEq, Repr

/-- An anchor segment as it reads; none where it is not valid (R134). -/
def readAnchor (m : Memory) (seg : AnchorSeg) : Option AnchorRead :=
  let cells := segmentCells m seg.val
  let units := readUnits cells seg
  match imageAt units 0, imageInForce units with
  | some z, some f =>
    some { unit0 := z, inForce := f, streams := applyNotes f units, nextFree := nextFreeUnit cells seg }
  | _, _ => none

/-- Generation `a` is newer than `b`, modulo 2^32 (R134). -/
def newerGeneration (a b : Word32) : Bool := decide (1 ≤ (a - b).toNat) && decide ((a - b).toNat ≤ 0x7FFFFFFF)

/-- What the first phase fixes (R148). -/
structure Anchored where
  current : Option AnchorSeg
  nextFree : Nat
  generation : Word32
  anchorErases : Vector Nat 2
  streams : Vector StreamImage 8
  lockMode : LockMode
  appendLocks : Byte
  formatInhibit : Bool
  lowWater : Nat
  deriving DecidableEq, Repr

/-- The anchored values of a current anchor segment (R148). -/
def AnchorRead.anchored (a : AnchorRead) (seg : AnchorSeg) : Anchored where
  current := some seg
  nextFree := a.nextFree
  generation := a.inForce.generation
  anchorErases := a.inForce.content.anchorErases
  streams := a.streams
  lockMode := a.inForce.content.lockMode
  appendLocks := a.inForce.content.appendLocks
  formatInhibit := a.inForce.content.formatInhibit
  lowWater := a.inForce.content.lowWater

/-- The default image in force (R145). -/
def Anchored.default : Anchored where
  current := none
  nextFree := 0
  generation := 0
  anchorErases := Vector.replicate 2 0
  streams := Vector.replicate 8 StreamImage.default
  lockMode := .opened
  appendLocks := 0
  formatInhibit := false
  lowWater := 8

/-- The first phase (R148): the current anchor segment by R134, segment 0 where the unit-0 generations are equal, and also where
they are exactly 2^31 apart (log 30). -/
def anchorPhase (m : Memory) : Anchored :=
  match readAnchor m 0, readAnchor m 1 with
  | none, none => Anchored.default
  | some a, none => a.anchored 0
  | none, some b => b.anchored 1
  | some a, some b => if newerGeneration b.unit0.generation a.unit0.generation then b.anchored 1 else a.anchored 0

/-! ### The record scan (R151) -/

/-- The result of scanning an OPEN segment. -/
structure Scan where
  last : Nat
  used : Nat
  damaged : Bool
  deriving DecidableEq, Repr

/-- Every byte from a record area offset to the end of the segment reads FFh. -/
def erasedFrom (cells : Memory) (k : DataSeg) (p : Nat) : Bool :=
  cells.all fun c => decide (c.1 < recordAddr k p) || c.2 == erasedByte

/-- A record counts as good (R95, R151, 3). -/
def goodRecord (cells : Memory) (k : DataSeg) (owner : StreamId) (p expected : Nat) : Bool :=
  let len := storedLength cells (recordAddr k p)
  let r := readRecord cells (recordAddr k p)
  decide (1 ≤ len) && decide (len ≤ Config.maxPayload) && decide (p + footprint len ≤ Config.recordArea)
    && r.markSet && r.checkGood && r.stream == owner.val && r.seq == expected

/-- The scan from a position with an expected sequence (R151); so many positions may be looked at. -/
def scanFrom (cells : Memory) (k : DataSeg) (owner : StreamId) : Nat → Nat → Nat → Scan
  | 0, p, expected => { last := expected - 1, used := p, damaged := false }
  | n + 1, p, expected =>
    if Config.recordArea < p + 16 then { last := expected - 1, used := p, damaged := false }
    else if storedLength cells (recordAddr k p) = 0xFFFF then
      { last := expected - 1, used := p, damaged := !(erasedFrom cells k p) }
    else if goodRecord cells k owner p expected then
      scanFrom cells k owner n (p + footprint (storedLength cells (recordAddr k p))) (expected + 1)
    else { last := expected - 1, used := p, damaged := true }

/-- The scan of a segment from record area offset 0 (R151): a record takes at least 16 bytes, so 255 positions suffice. -/
def scanSegment (cells : Memory) (k : DataSeg) (owner : StreamId) (first : Nat) : Scan := scanFrom cells k owner 255 0 first

/-! ### The second phase: classification (R149), with each candidate measured (R150) -/

/-- A data segment as the scan leaves it. -/
structure Scanned where
  seg : Segment
  candidate : Bool
  /-- the scan found a torn or corrupt record in it (R151) -/
  damaged : Bool
  /-- it has a close stage: SEALED, RETIRE_PENDING or a torn close (R150) -/
  closeStage : Bool
  deriving DecidableEq, Repr

/-- The free values of the segment table that one recovery draws (log 12). -/
structure FreeDraw where
  last : Nat
  used : Nat
  deriving DecidableEq, Repr

/-- The draw of a segment. -/
def freeDraw (index : Nat) (k : DataSeg) : FreeDraw where
  last := (Config.unstatedLast index k.val).toNat
  used := Config.unstatedUsed index k.val % 4065

/-- An entry that keeps nothing but its place, header state and erase count; its bytes used are not stated (log 12). -/
def bareSegment (l : Location) (h : HeaderState) (count : Option Nat) (used : Nat) : Segment :=
  { location := l, header := h, poisoned := false, owner := none, epoch := 0, first := 0, last := 0, bytesUsed := used,
    eraseCount := count, release := none }

/-- An entry that is no candidate. -/
def Segment.settled (g : Segment) : Scanned := { seg := g, candidate := false, damaged := false, closeStage := false }

/-- The place of a segment that leaves for its erase; a RETIRE_PENDING one is never erased (R149, R150, R152). -/
def HeaderState.leaves (h : HeaderState) : Location := if h = .retirePending then .retired else .reclaim

/-- The owner that a verified open stage names (R92). -/
def headerOwner (h : List Byte) : Option StreamId := streamOf (headerByte h 10)

/-- The table entry of a segment with a valid open stage, before its place is known: location as it leaves (R149). -/
def headerSegment (h : List Byte) (state : HeaderState) (last used : Nat) (poisoned : Bool) : Segment :=
  { location := state.leaves, header := state, poisoned := poisoned, owner := headerOwner h
    epoch := headerField h 11 4, first := headerField h 15 4, last := last, bytesUsed := used
    eraseCount := some (headerField h 5 3), release := none }

/-- The owner stream's anchored epoch is the header's, and an anchor is valid (R149). -/
def epochsAgree (a : Anchored) (h : List Byte) : Bool :=
  match headerOwner h with
  | some i => a.current.isSome && a.streams[i].epoch == headerField h 11 4
  | none => false

/-- An OPEN segment (R149 to R151): scanned where it is a candidate; otherwise its last sequence and bytes used are not
stated (log 12), and a torn close poisons it all the same (R99; log 15). -/
def classifyOpened (a : Anchored) (cells : Memory) (k : DataSeg) (h : List Byte) (tornClose : Bool) (d : FreeDraw) : Scanned :=
  match headerOwner h, epochsAgree a h with
  | some i, true =>
    let r := scanSegment cells k i (headerField h 15 4)
    { seg := headerSegment h .opened r.last r.used (r.damaged || tornClose), candidate := true, damaged := r.damaged
      closeStage := tornClose }
  | _, _ => (headerSegment h .opened d.last d.used tornClose).settled

/-- A SEALED or RETIRE_PENDING segment (R149, R150): last sequence and bytes used are in its close stage. -/
def classifyClosed (a : Anchored) (h : List Byte) (state : HeaderState) : Scanned :=
  { seg := headerSegment h state (headerField h 21 4) (headerField h 25 2) false, candidate := epochsAgree a h
    damaged := false, closeStage := true }

/-- Every header byte outside the free stage reads FFh (R149, row 4): offsets 1 to 4 and 10 to 31. -/
def onlyFreeStage (h : List Byte) : Bool := (((h.drop 1).take 4) ++ h.drop 10).all (· == 0xFF)

/-- The classification of a segment (R149), its rows in order; `best` is the highest erase count read so far. DESIGN CHOICE
(log 33): a FREE header with a count of 120,000 or more is row 2 whatever the record area holds, though R93 treats a segment with
such a header as invalid where its record area is not erased. -/
def classify (a : Anchored) (cells : Memory) (k : DataSeg) (h : List Byte) (best : Option Nat) (d : FreeDraw) : Scanned :=
  match readHeader h with
  | .retired =>
    (bareSegment .retired .retired (if freeChecks h then some (headerField h 5 3) else none) d.used).settled
  | .free =>
    if Config.wearOut ≤ headerField h 5 3 then (bareSegment .retired .free (some (headerField h 5 3)) d.used).settled
    else if erasedFrom cells k 0 && onlyFreeStage h then (bareSegment .pool .free (some (headerField h 5 3)) 0).settled
    else (bareSegment .reclaim .invalid none d.used).settled
  | .blank =>
    if erasedFrom cells k 0 then (bareSegment .pool .blank (some (best.getD 0)) 0).settled
    else (bareSegment .reclaim .invalid none d.used).settled
  | .invalid => (bareSegment .reclaim .invalid none d.used).settled
  | .opened t => classifyOpened a cells k h t d
  | .sealed => classifyClosed a h .sealed
  | .retirePending => classifyClosed a h .retirePending

/-- The erase count that a header's verified free stage holds (R149; log 13). -/
def verifiedCount (h : List Byte) : Option Nat :=
  match readHeader h with
  | .retired => if freeChecks h then some (headerField h 5 3) else none
  | .blank => none
  | .invalid => none
  | .free => some (headerField h 5 3)
  | .opened _ => some (headerField h 5 3)
  | .sealed => some (headerField h 5 3)
  | .retirePending => some (headerField h 5 3)

/-- The larger of two erase counts, where known. -/
def maxCount : Option Nat → Option Nat → Option Nat
  | none, c => c
  | c, none => c
  | some x, some y => some (max x y)

/-- The second phase over segments in ascending index order (R149). -/
def classifyAll (a : Anchored) (m : Memory) (draw : Nat) : Option Nat → List DataSeg → List (DataSeg × Scanned)
  | _, [] => []
  | best, k :: ks =>
    let cells := segmentCells m k.index
    let h := readBytes cells (segmentBase k.index) Config.headerBytes
    (k, classify a cells k h best (freeDraw draw k)) :: classifyAll a m draw (maxCount best (verifiedCount h)) ks

/-! ### The third phase: streams (R150, R152, R153) -/

/-- A measured candidate comes before another (R150). -/
def Scanned.before (x y : DataSeg × Scanned) : Bool :=
  let ex := decide (x.2.seg.last < x.2.seg.first)
  let ey := decide (y.2.seg.last < y.2.seg.first)
  if x.2.seg.first ≠ y.2.seg.first then decide (x.2.seg.first < y.2.seg.first)
  else if ex != ey then ex
  else if ex && (x.2.closeStage != y.2.closeStage) then x.2.closeStage
  else decide (x.1.val < y.1.val)

/-- Put a candidate into its place. -/
def insertCandidate (x : DataSeg × Scanned) : List (DataSeg × Scanned) → List (DataSeg × Scanned)
  | [] => [x]
  | y :: ys => if Scanned.before x y then x :: y :: ys else y :: insertCandidate x ys

/-- The candidates in their order (R150). -/
def orderCandidates (cs : List (DataSeg × Scanned)) : List (DataSeg × Scanned) := cs.foldr insertCandidate []

/-- The candidates that the durable frontier does not cover (R150). -/
def uncovered (durable : Nat) : List (DataSeg × Scanned) → List (DataSeg × Scanned)
  | [] => []
  | [x] => if x.2.seg.last < durable then [] else [x]
  | x :: y :: ys => if x.2.seg.last ≤ durable then uncovered durable (y :: ys) else x :: uncovered durable (y :: ys)

/-- The series that follows a last sequence without a gap (R152). -/
def seriesAfter (last : Nat) : List (DataSeg × Scanned) → List (DataSeg × Scanned)
  | [] => []
  | x :: xs => if x.2.seg.first = last + 1 then x :: seriesAfter x.2.seg.last xs else []

/-- The unbroken series at the start of the remaining candidates (R152). -/
def series (durable : Nat) : List (DataSeg × Scanned) → List (DataSeg × Scanned)
  | [] => []
  | x :: xs => if x.2.seg.first ≤ durable + 1 then x :: seriesAfter x.2.seg.last xs else []

/-- A stream's candidates (R149). -/
def candidatesOf (i : StreamId) (all : List (DataSeg × Scanned)) : List (DataSeg × Scanned) :=
  all.filter fun x => x.2.candidate && x.2.seg.owner == some i

/-- What the third phase finds for a stream: its chain, and whether it has a torn finding (R151, R152). -/
structure Rebuilt where
  chain : List (DataSeg × Scanned)
  torn : Bool
  deriving DecidableEq, Repr

/-- The third phase for a stream (R150 to R152). -/
def rebuildChain (i : StreamId) (durable : Nat) (all : List (DataSeg × Scanned)) : Rebuilt :=
  let cs := candidatesOf i all
  let left := uncovered durable (orderCandidates cs)
  let kept := series durable left
  { chain := kept, torn := cs.any (fun x => x.2.damaged) || kept.length != left.length }

/-- The last committed sequence (R153). -/
def Rebuilt.lastCommitted (r : Rebuilt) (durable : Nat) : Nat := (r.chain.getLast?).elim durable fun x => x.2.seg.last

/-- The seal correction applies (R37). -/
def sealCorrected (v : StreamImage) (last : Nat) : Bool := (v.state == .idle || v.state == .opened) && last == Config.lastSequence

/-- A rebuilt stream record (R27, R37, R153). -/
def rebuildStream (v : StreamImage) (r : Rebuilt) : Stream where
  state := if sealCorrected v (r.lastCommitted v.frontier) then .sealed else v.state
  preFault := .idle
  epoch := v.epoch
  policy := v.policy
  quota := v.quota
  highWater := v.highWater
  backlog := v.backlog
  nextSeq := r.lastCommitted v.frontier + 1
  lastCommitted := r.lastCommitted v.frontier
  volatileFrontier := v.frontier
  durableFrontier := v.frontier
  cursor := v.frontier + 1
  marks := []
  chain := r.chain.map fun x => x.1
  reserved := 0
  notices := if r.torn then 1#8 <<< Notice.torn.bit else 0
  overrun := 0
  heldAtOrAbove := false
  unreadAbove := false

/-! ### The fourth phase: completion (R154) -/

/-- The entry of a segment: a candidate that stays in its stream's chain is there, one that left is where it went (R150,
R152), and any other is where its classification put it. -/
def placeScanned (chains : List DataSeg) (x : DataSeg × Scanned) : Segment :=
  if x.1 ∈ chains then { x.2.seg with location := .chain } else x.2.seg

/-- The guard at completion (R154, 2, R179): equal to the anchored guard, but a working SESSION kept across a soft reset
stays. -/
def Anchored.guard (a : Anchored) (sessionKept : Bool) : Guard where
  working := if sessionKept then .session else a.lockMode
  anchored := a.lockMode
  appendLocks := a.appendLocks
  formatInhibit := a.formatInhibit

/-- The ledger at completion (R135): image-needed where no segment is current or R37 has sealed a stream. -/
def Anchored.ledger (a : Anchored) (corrected : Bool) : Ledger where
  current := a.current
  nextFree := a.nextFree
  generation := a.generation
  imageNeeded := a.current.isNone || corrected
  pendingNotes := Vector.replicate 8 false
  captured := none
  anchorErases := a.anchorErases
  halted := false

/-- Every stream's third phase (R150 to R152). -/
def rebuildAll (a : Anchored) (all : List (DataSeg × Scanned)) : Vector Rebuilt 8 :=
  tabulate fun i => rebuildChain i a.streams[i].frontier all

/-- The rebuilt tables and collections, the guard and the ledger (R149 to R154, 1 and 2). -/
def State.rebuild (a : Anchored) (all : List (DataSeg × Scanned)) (r : Vector Rebuilt 8) (s : State) : State :=
  let chains := r.toList.flatMap fun x => x.chain.map fun y => y.1
  let segs := all.map (placeScanned chains)
  let segments : Vector Segment 510 := tabulate fun k => segs.getD k.val Segment.unscanned
  let corrected := (List.finRange 8).any fun i => sealCorrected a.streams[i] (r[i].lastCommitted a.streams[i].frontier)
  let s' := { s with
    streams := tabulate fun i => rebuildStream a.streams[i] r[i]
    segments := segments
    staging := []
    ledger := a.ledger corrected
    guard := a.guard (s.guard.working == LockMode.session)
    lowWater := a.lowWater
    vaultLocks := s.lockCells
    freeIndex := s.freeIndex + 1 }
  { s' with pool := s'.segmentsAt .pool, reclaim := s'.segmentsAt .reclaim }

/-- The recovery events (R154, 3): the latch is cleared first. -/
def State.recoveryEvents (torn anchorFault : Bool) (s : State) : State :=
  ((State.raise .recoveryDone { s with eventLatch := 0 }).raiseIf torn .tornFound).raiseIf anchorFault .anchorFault

/-- The completion of the recovery scan (R148 to R154): the scan's results depend on the array alone (R147), so it is read
here whole. -/
def State.recovered (s : State) : State :=
  let a := anchorPhase s.array
  let all := classifyAll a s.array s.freeIndex none (List.finRange 510)
  let r := rebuildAll a all
  let s1 := (s.rebuild a all r).recoveryEvents (r.toList.any fun x => x.torn) a.current.isNone
  State.select { s1.setAllSides with power := .active }

/-- RECOVERY_COMPLETE (R154). Outside RECOVERING no scan runs (log 1). -/
def execRecoveryComplete (s : State) : Result := if s.power = .recovering then .next s.recovered else .next s

end Sys2Proof.Machine
end

