-- ==== Sys2Proof/Machine/Store.lean ====
section
/-! DEFINITION. SEGMENT INFO, DEVICE INFO and DEVICE CONFIG (chapter 5), SUSPEND and RESUME (chapter 6). -/

namespace Sys2Proof.Machine

open Sys2Proof

/-- SEGMENT INFO (R105). -/
def execSegmentInfo (index : Word16) (bytes : Nat) (s : State) : Result :=
  outputFrame .plain (.segmentInfo index) bytes noAction s

/-- DEVICE INFO (R106). -/
def execDeviceInfo (bytes : Nat) (s : State) : Result := outputFrame .plain .deviceInfo bytes noAction s

/-- The checks and action of DEVICE CONFIG (R107). -/
def State.deviceConfigBody (lowWater : Byte) (guardHigh : Bool) (s : State) : State × OutcomeCode :=
  if s.port.armLatch = false then (s, .notArmed)
  else if lowWater.toNat = 0 ∨ 64 < lowWater.toNat then (s, .badArgument)
  else if s.guard.allows guardHigh = false then (s, .guarded)
  else if s.engine.formatRuns = true then (s, .busy)
  else ((State.setPoolSide { s with lowWater := lowWater.toNat }).needImage.selectIfIdle, s.ledger.outcome)

/-- DEVICE CONFIG (R107): writes the pool low-water, sets the pool side against it (R171) and image-needed. -/
def execDeviceConfig (lowWater : Byte) (guardHigh : Bool) (s : State) : Result :=
  actionFrame .plain 2 (State.deviceConfigBody lowWater guardHigh) s

/-- The engine is RUNNING a job that can be suspended: COMMIT or RECLAIM (R127). -/
def Engine.suspendable (e : Engine) : Bool :=
  match e.state, e.job with
  | .running, some (.commit _) => true
  | .running, some (.reclaim _ _) => true
  | _, _ => false

/-- The outcome and action of SUSPEND, in the order of R127. -/
def State.suspendBody (s : State) : State × OutcomeCode :=
  if s.engine.state = .suspendPending ∨ s.engine.state = .suspended then (s, .done)
  else if s.engine.resumeLock = true then (s, .notSuspendable)
  else if s.engine.suspendable = true then ({ s with engine := { s.engine with state := .suspendPending } }, .done)
  else (s, .notSuspendable)

/-- SUSPEND (R127). -/
def execSuspend (s : State) : Result := actionFrame .plain 1 State.suspendBody s

/-- The effect of RESUME by engine state (R129). -/
def State.resumeBody (s : State) : State × OutcomeCode :=
  match s.engine.state with
  | .suspended => ({ s with engine := { s.engine with state := .running, resumeLock := true } }, .done)
  | .suspendPending => ({ s with engine := { s.engine with state := .running } }, .done)
  | .idle => (s, .notSuspended)
  | .running => (s, .notSuspended)

/-- RESUME (R129). -/
def execResume (s : State) : Result := actionFrame .plain 1 State.resumeBody s

end Sys2Proof.Machine
end

