-- ==== Sys2Proof/Machine/VaultJob.lean ====
section
/-! DEFINITION. The VAULT job (R183): a written byte, an erase pulse on a page, the lock cell. -/

namespace Sys2Proof.Machine

open Sys2Proof

/-- A vault byte after its program sequence (R183): driven toward old AND new with at most four pulses. -/
def State.programmedByte (s : State) (page : Fin 4) (offset : Nat) (value : Byte) (pulses : List Byte) : Byte :=
  programVaultByte (s.vaultTarget page offset value) Config.programPulses (s.vault[page].toList.getD offset 0xFF) pulses

/-- One byte of a VAULT WRITE (R183): it stays as it reads where it has not verified, and the job goes on. -/
def State.vaultByteStep (pulses : List Byte) (page : Fin 4) (offset : Nat) (value : Byte) (rest : List Byte) (s : State) :
    State :=
  let s1 := { s with vault := setVaultByte s.vault page offset (s.programmedByte page offset value pulses) }
  if rest = [] then s1.endStep .completed
  else (s1.setJob (.vault (.write page (offset + 1) rest))).endStep .inside

/-- VAULT_WRITE_BYTE_STEP (R183). -/
def execVaultWriteByteStep (pulses : List Byte) (s : State) : Result :=
  match s.engine.job with
  | some (.vault (.write p o (b :: bs))) =>
    s.stepWhen (s.due (.vault (.write p o (b :: bs)))) (State.vaultByteStep pulses p o b bs)
  | _ => .next s

/-- One erase pulse on a page (R183): the job completes at a pulse that passes, or after the twelfth. -/
def State.vaultPulse (residue : Residue) (page : Fin 4) (applied : Nat) (s : State) : State :=
  let s1 := { s with vault := eraseVaultPage s.vault page residue }
  if vaultErased s1.vault page || decide (Config.erasePulses ≤ applied + 1) then s1.endStep .completed
  else (s1.setJob (.vault (.erase page (applied + 1)))).endStep .inside

/-- VAULT_ERASE_PULSE (R183). -/
def execVaultErasePulse (residue : Residue) (s : State) : Result :=
  match s.engine.job with
  | some (.vault (.erase p n)) => s.stepWhen (s.due (.vault (.erase p n))) (State.vaultPulse residue p n)
  | _ => .next s

/-- The lock cell has been programmed (R183; log 21): the volatile copy marks the page locked whether or not it verified. A
programmed cell cannot be erased. -/
def State.lockStep (programmed : Bool) (page : Fin 4) (s : State) : State :=
  State.endStep .completed { s with
    lockCells := s.lockCells.set page.val (s.lockCells[page] || programmed)
    vaultLocks := s.vaultLocks.set page.val true }

/-- VAULT_LOCK_STEP (R183). -/
def execVaultLockStep (programmed : Bool) (s : State) : Result :=
  match s.engine.job with
  | some (.vault (.lock p)) => s.stepWhen (s.due (.vault (.lock p))) (State.lockStep programmed p)
  | _ => .next s

end Sys2Proof.Machine
end

