-- ==== Sys2Proof/Machine/Dispatch.lean ====
section
/-! DEFINITION. The meaning of every command: one arm per row of the table, each one direct call. -/

namespace Sys2Proof.Machine

def exec (i : Instr) (s : State) : Host.Outcome State Fault Refusal :=
  match i with
  | .nullFrame => Sys2Proof.Machine.execNullFrame s
  | .discardedFrame bytes => Sys2Proof.Machine.execDiscardedFrame bytes s
  | .unknownCommand bytes => Sys2Proof.Machine.execUnknownCommand bytes s
  | .ignoredFrame => Sys2Proof.Machine.execIgnoredFrame s
  | .arm => Sys2Proof.Machine.execArm s
  | .disarm => Sys2Proof.Machine.execDisarm s
  | .queryStatus bytes => Sys2Proof.Machine.execQueryStatus bytes s
  | .readEvents bytes => Sys2Proof.Machine.execReadEvents bytes s
  | .clearEvents mask => Sys2Proof.Machine.execClearEvents mask s
  | .setEventEnable enable => Sys2Proof.Machine.execSetEventEnable enable s
  | .deviceInfo bytes => Sys2Proof.Machine.execDeviceInfo bytes s
  | .configureStream stream policy quota highWater backlog guardHigh => Sys2Proof.Machine.execConfigureStream stream policy quota highWater backlog guardHigh s
  | .openStream stream guardHigh => Sys2Proof.Machine.execOpenStream stream guardHigh s
  | .closeStream stream guardHigh => Sys2Proof.Machine.execCloseStream stream guardHigh s
  | .resetStream stream guardHigh => Sys2Proof.Machine.execResetStream stream guardHigh s
  | .streamInfo stream mask bytes => Sys2Proof.Machine.execStreamInfo stream mask bytes s
  | .segmentInfo index bytes => Sys2Proof.Machine.execSegmentInfo index bytes s
  | .append stream tag length payload => Sys2Proof.Machine.execAppend stream tag length payload s
  | .sync => Sys2Proof.Machine.execSync s
  | .fetch stream form operand count bytes => Sys2Proof.Machine.execFetch stream form operand count bytes s
  | .ack stream sequence => Sys2Proof.Machine.execAck stream sequence s
  | .pushMark stream => Sys2Proof.Machine.execPushMark stream s
  | .popMark stream => Sys2Proof.Machine.execPopMark stream s
  | .rewind stream mode => Sys2Proof.Machine.execRewind stream mode s
  | .suspend => Sys2Proof.Machine.execSuspend s
  | .resume => Sys2Proof.Machine.execResume s
  | .deviceConfig lowWater guardHigh => Sys2Proof.Machine.execDeviceConfig lowWater guardHigh s
  | .format guardHigh => Sys2Proof.Machine.execFormat guardHigh s
  | .readGuard bytes => Sys2Proof.Machine.execReadGuard bytes s
  | .writeGuard mode locks inhibit guardHigh => Sys2Proof.Machine.execWriteGuard mode locks inhibit guardHigh s
  | .vaultRead page offset bytes => Sys2Proof.Machine.execVaultRead page offset bytes s
  | .vaultWrite page offset length data => Sys2Proof.Machine.execVaultWrite page offset length data s
  | .vaultErase page => Sys2Proof.Machine.execVaultErase page s
  | .vaultLock page => Sys2Proof.Machine.execVaultLock page s
  | .doze => Sys2Proof.Machine.execDoze s
  | .wake => Sys2Proof.Machine.execWake s
  | .resetEnable => Sys2Proof.Machine.execResetEnable s
  | .reset cut => Sys2Proof.Machine.execReset cut s
  | .identify bytes => Sys2Proof.Machine.execIdentify bytes s
  | .descriptor bytes => Sys2Proof.Machine.execDescriptor bytes s
  | .powerOn => Sys2Proof.Machine.execPowerOn s
  | .powerLoss cut => Sys2Proof.Machine.execPowerLoss cut s
  | .recoveryComplete => Sys2Proof.Machine.execRecoveryComplete s
  | .wakePhaseEnd => Sys2Proof.Machine.execWakePhaseEnd s
  | .commitSealStep pulses => Sys2Proof.Machine.execCommitSealStep pulses s
  | .commitFreeStageStep pulses => Sys2Proof.Machine.execCommitFreeStageStep pulses s
  | .commitOpenStep pulses => Sys2Proof.Machine.execCommitOpenStep pulses s
  | .commitOpenRetireStep pulses => Sys2Proof.Machine.execCommitOpenRetireStep pulses s
  | .commitRecordStep pulses => Sys2Proof.Machine.execCommitRecordStep pulses s
  | .commitCloseStep pulses => Sys2Proof.Machine.execCommitCloseStep pulses s
  | .reclaimErasePulse residue => Sys2Proof.Machine.execReclaimErasePulse residue s
  | .reclaimFreeStageStep pulses => Sys2Proof.Machine.execReclaimFreeStageStep pulses s
  | .reclaimRetireStep pulses => Sys2Proof.Machine.execReclaimRetireStep pulses s
  | .ledgerImageUnitStep pulses => Sys2Proof.Machine.execLedgerImageUnitStep pulses s
  | .ledgerNoteStep pulses => Sys2Proof.Machine.execLedgerNoteStep pulses s
  | .ledgerAnchorErasePulse residue => Sys2Proof.Machine.execLedgerAnchorErasePulse residue s
  | .vaultWriteByteStep pulses => Sys2Proof.Machine.execVaultWriteByteStep pulses s
  | .vaultErasePulse residue => Sys2Proof.Machine.execVaultErasePulse residue s
  | .vaultLockStep programmed => Sys2Proof.Machine.execVaultLockStep programmed s
  | .formatErasePulse residue => Sys2Proof.Machine.execFormatErasePulse residue s
  | .formatFreeStageStep pulses => Sys2Proof.Machine.execFormatFreeStageStep pulses s
  | .formatRetireStep pulses => Sys2Proof.Machine.execFormatRetireStep pulses s
  | .formatAnchorErasePulse residue => Sys2Proof.Machine.execFormatAnchorErasePulse residue s
  | .formatImageUnitStep pulses => Sys2Proof.Machine.execFormatImageUnitStep pulses s
  | .statusCapture => Sys2Proof.Machine.execStatusCapture s
  | .verdict command => Sys2Proof.Machine.execVerdict command s

end Sys2Proof.Machine
end

