-- ==== Sys2Proof/Machine/FrameBytes.lean ====
section
/-! DEFINITION. The frame state byte by byte (R3), as a function of the whole bytes that a frame has carried so far. The rows of
the table name no arrival of a byte, so the state's own frame state shows it only at the rows (log 7). -/

namespace Sys2Proof.Machine

open Sys2Proof

/-- The required frame length of an action command, once it is known (R3, R7). -/
def requiredLength (c : Command) (bytes : List Byte) : Option Nat :=
  match c.shape with
  | .output _ => none
  | .action n => some n
  | .appended n => match bytes with
    | _ :: _ :: _ :: l1 :: l0 :: _ => some (n + (l1 ++ l0 : Word16).toNat)
    | _ => none
  | .written n => match bytes with
    | _ :: _ :: _ :: l :: _ => some (n + l.toNat)
    | _ => none

/-- The frame state once a frame has carried these whole bytes, SEL still low (R3). -/
def frameStateAfter (bytes : List Byte) : FrameState :=
  match bytes with
  | [] => .receivingCommand
  | b :: _ =>
    match commandOf b with
    | none => .discarding
    | some c =>
      match c.shape with
      | .output a => if a + 1 ≤ bytes.length then .outputting else .receivingArguments
      | _ => match requiredLength c bytes with
        | some n => if n < bytes.length then .discarding else .receivingArguments
        | none => .receivingArguments

end Sys2Proof.Machine
end

