-- ==== Sys2Proof/Safety.lean ====
section
/-! DEFINITION. What a sound state is, in the spec's terms: the canonical array, the guard's two copies, the engine and its work,
and the relations of the stream records. -/

namespace Sys2Proof.Machine

open Sys2Proof

/-! ### The guard (R175) -/

/-- SESSION is never anchored, and the two lock modes differ only while the working one is SESSION (R175). -/
def Guard.agrees (g : Guard) : Bool := g.anchored != .session && (g.working == .session || g.working == g.anchored)

/-! ### The engine (R108, R109, R126, R128) -/

/-- The engine is IDLE exactly while it has no current job, only a COMMIT or a RECLAIM job is suspended or about to be (R127),
and a preempted RECLAIM has 1 to 11 pulses behind it while another kind of job runs (R126). -/
def Engine.sound (e : Engine) : Bool :=
  ((e.state == .idle) == e.job.isNone)
    && (e.state == .idle || e.state == .running
      || match e.job with
        | some (.commit _) => true
        | some (.reclaim _ _) => true
        | _ => false)
    && match e.preempted, e.job with
      | none, _ => true
      | some _, none => false
      | some _, some (.reclaim _ _) => false
      | some (_, n), some _ => decide (1 ≤ n) && decide (n ≤ 11)

/-- No trigger of R109 holds: nothing is staged, nothing waits to be erased, and no ledger work waits unless the ledger is
halted. -/
def State.noWork (s : State) : Bool :=
  s.staging.isEmpty && s.reclaim.isEmpty && s.engine.preempted.isNone && !s.ledger.trigger

/-- The power states in which volatile state stands: ACTIVE, DOZING and WAKING (R146). -/
def PowerState.holds (p : PowerState) : Bool := p == .active || p == .dozing || p == .waking

/-- The engine is sound, runs only in the ACTIVE power state, and is IDLE only where no work waits (R108, R109, R146). -/
def State.engineSound (s : State) : Bool :=
  s.engine.sound && (s.power == .active || s.engine.state == .idle)
    && (!s.power.holds || s.engine.state != .idle || s.noWork)

/-! ### The places of the data segments (R97 to R103) -/

/-- Every data segment is where its location says and nowhere else: in the pool, in one stream's chain with that stream as
its owner, in the reclaim queue, or under erasure by the RECLAIM job that names it; a release condition is present just in the
release list. -/
structure State.Placed (s : State) : Prop where
  pool_nodup : s.pool.Nodup
  pool_iff : ∀ k : DataSeg, k ∈ s.pool ↔ s.segments[k].location = .pool
  reclaim_nodup : s.reclaim.Nodup
  reclaim_iff : ∀ k : DataSeg, k ∈ s.reclaim ↔ s.segments[k].location = .reclaim
  chain_nodup : ∀ i : StreamId, s.streams[i].chain.Nodup
  chain_owned : ∀ (i : StreamId) (k : DataSeg),
    k ∈ s.streams[i].chain → s.segments[k].location = .chain ∧ s.segments[k].owner = some i
  chain_exists : ∀ k : DataSeg, s.segments[k].location = .chain → ∃ i : StreamId, k ∈ s.streams[i].chain
  release_iff : ∀ k : DataSeg, s.segments[k].location = .release ↔ s.segments[k].release.isSome = true
  reclaim_first : ∀ k : DataSeg, s.engine.job = some (.reclaim k (.pulse 0)) → s.reclaim.head? = some k
  erasing_job : ∀ (k : DataSeg) (p : ErasePhase), s.engine.job = some (.reclaim k p) → p ≠ .pulse 0 →
    s.segments[k].location = .erasing
  erasing_slot : ∀ (k : DataSeg) (n : Nat), s.engine.preempted = some (k, n) → s.segments[k].location = .erasing
  erasing_named : ∀ k : DataSeg, s.segments[k].location = .erasing →
    (∃ p, s.engine.job = some (.reclaim k p)) ∨ ∃ n, s.engine.preempted = some (k, n)

/-! ### The stream records (R29) -/

/-- The relations 1 and 2 of R29. -/
def Stream.ordered (t : Stream) : Bool :=
  decide (t.durableFrontier ≤ t.volatileFrontier) && decide (t.volatileFrontier ≤ t.lastCommitted)
    && decide (t.lastCommitted < t.nextSeq) && decide (t.volatileFrontier + 1 ≤ t.cursor)
    && decide (t.cursor ≤ t.lastCommitted + 1)

/-- Relation 3 of R29: the staged entries of a stream carry exactly the sequences last committed + 1 to next sequence − 1, in
ascending order. -/
def State.stagedInOrder (s : State) (i : StreamId) : Prop :=
  (s.stagedOf i).map (fun e => e.seq)
    = List.range' (s.streams[i].lastCommitted + 1) (s.streams[i].nextSeq - (s.streams[i].lastCommitted + 1))

/-- The relations 1 to 3 of R29 for every stream, with what ties the rest of the machine to them: no chain segment ends above
the last committed sequence, a captured image records no frontier above the volatile one of the same epoch and no later epoch,
and a FETCH in progress counts no record above the last committed one. -/
structure State.Related (s : State) : Prop where
  ordered : ∀ i : StreamId, s.streams[i].ordered = true
  staged : ∀ i : StreamId, s.stagedInOrder i
  chained : ∀ (i : StreamId) (k : DataSeg), k ∈ s.streams[i].chain → s.segments[k].last ≤ s.streams[i].lastCommitted
  captured_epoch : ∀ (c : Captured) (i : StreamId), s.ledger.captured = some c →
    c.content.streams[i].epoch ≤ s.streams[i].epoch
  captured_frontier : ∀ (c : Captured) (i : StreamId), s.ledger.captured = some c →
    c.content.streams[i].epoch = s.streams[i].epoch → c.content.streams[i].frontier ≤ s.streams[i].volatileFrontier
  fetching : ∀ (n : Snapshot) (b f c : Byte) (w : Word32) (i : StreamId), s.port.snapshot = some n →
    n.command = .fetch b f w c → n.verdict = .done → f = 0 → streamOf b = some i →
    s.streams[i].volatileFrontier + 1 ≤ n.start ∧ n.start + n.recordEnds.length ≤ s.streams[i].lastCommitted + 1

/-! ### Frames (R12) -/

/-- The device serves frames, and the frame at hand is one it serves: neither ignored nor an output frame whose verdict was
formed before (R12, R25). -/
structure Serving (s : State) : Prop where
  active : s.power = .active
  notIgnored : s.port.frameIgnored = false
  noVerdict : s.port.snapshot = none

/-- The port after a frame of so many bytes that records an outcome (R3, R4, R12), with the two flags as it leaves them. -/
def State.framePort (s : State) (bytes : Nat) (o : OutcomeCode) (armed enabled : Bool) : Port :=
  { s.beginFrame.port with
    frameState := .idle, byteCounter := bytes, snapshot := none, outcome := o, armLatch := armed, resetEnable := enabled
    sout := s.beginFrame.port.frameOutput bytes }

/-- The guard allows a guarded command at a level of the GUARD pin: the table of R176. -/
def Guard.permits (g : Guard) (pinHigh : Bool) : Prop := g.working = .opened ∨ (g.working = .pin ∧ pinHigh = true)

/-- The outcome of an accepted command that changes an anchored value (R31, R144). -/
def State.changeOutcome (s : State) : OutcomeCode := if s.ledger.halted = true then .ledgerHalted else .done

/-! ### Refusals (R10, R12, R13) -/

/-- The frame of a command, of so many bytes, is refused: the outcome is recorded, both flags are cleared, and nothing else
changes (R12). -/
def Refuses (c : Instr) (s : State) (bytes : Nat) (o : OutcomeCode) : Prop :=
  exec c s = .next { s with port := s.framePort bytes o false false }

/-- The bytes of an output frame of `n` bytes: the captures, 00h up to the verdict's position, the verdict, the data, 00h (R4). -/
def answerBytes (s : State) (n position : Nat) (verdict : OutcomeCode) (data : List Byte) : List Byte :=
  ([s.statusByte, s.port.outcome.byte] ++ List.replicate (position - 2) 0 ++ verdict.byte :: data ++ List.replicate n 0).take n

/-- An output frame records an outcome, clears both flags and shifts out verdict and data; nothing outside the port changes but
what `r` names (R4, R9, R10, R12). -/
structure Answers (s t : State) (n position : Nat) (o : OutcomeCode) (data : List Byte) : Prop where
  outcome : t.port.outcome = o
  armLatch : t.port.armLatch = false
  resetEnable : t.port.resetEnable = false
  receipt : t.port.receipt = s.port.receipt
  idle : t.port.frameState = .idle
  sout : s.port.frameState = .idle → t.port.sout = answerBytes s n position o data

/-- An output frame is refused: the verdict and 00h are shifted out, and nothing outside the port changes (R10). -/
def OutputRefuses (c : Instr) (s : State) (n position : Nat) (o : OutcomeCode) : Prop :=
  ∃ t, exec c s = .next t ∧ { t with port := s.port } = s ∧ Answers s t n position o []

/-- A field of output data: so many bytes from an offset, most significant byte first. -/
def fieldAt (d : List Byte) (offset len : Nat) : Nat := fromBE ((d.drop offset).take len)

/-! ### Crossings (R167 to R170) -/

/-- The held side of a stream was evaluated at the end of an action: HIGH_WATER with its notice where it has arrived
at-or-above (R167, R168). -/
structure State.HeldEvaluated (s t : State) (i : StreamId) : Prop where
  side : t.streams[i].heldAtOrAbove = decide (t.streams[i].highWater ≤ t.streams[i].held)
  event : t.eventLatch.getLsbD 1 = (s.eventLatch.getLsbD 1 || (t.streams[i].heldAtOrAbove && !s.streams[i].heldAtOrAbove))
  notice : t.streams[i].notices.getLsbD 0
    = (s.streams[i].notices.getLsbD 0 || (t.streams[i].heldAtOrAbove && !s.streams[i].heldAtOrAbove))

/-- The held side was not evaluated: side, event and notice stay. -/
structure State.HeldKept (s t : State) (i : StreamId) : Prop where
  side : t.streams[i].heldAtOrAbove = s.streams[i].heldAtOrAbove
  event : t.eventLatch.getLsbD 1 = s.eventLatch.getLsbD 1
  notice : t.streams[i].notices.getLsbD 0 = s.streams[i].notices.getLsbD 0

/-- The unread side of a stream was evaluated at the end of an action: DRAINED with its notice where it has arrived at-or-below
(R167, R169). -/
structure State.UnreadEvaluated (s t : State) (i : StreamId) : Prop where
  side : t.streams[i].unreadAbove = decide (t.streams[i].backlog < t.streams[i].unread)
  event : t.eventLatch.getLsbD 2 = (s.eventLatch.getLsbD 2 || (s.streams[i].unreadAbove && !t.streams[i].unreadAbove))
  notice : t.streams[i].notices.getLsbD 1
    = (s.streams[i].notices.getLsbD 1 || (s.streams[i].unreadAbove && !t.streams[i].unreadAbove))

/-- The unread side was not evaluated: side, event and notice stay. -/
structure State.UnreadKept (s t : State) (i : StreamId) : Prop where
  side : t.streams[i].unreadAbove = s.streams[i].unreadAbove
  event : t.eventLatch.getLsbD 2 = s.eventLatch.getLsbD 2
  notice : t.streams[i].notices.getLsbD 1 = s.streams[i].notices.getLsbD 1

/-- The pool side is evaluated just where the available count has changed: POOL_LOW where it has arrived below (R167, R170). -/
structure State.PoolEvaluated (s t : State) : Prop where
  kept : t.available = s.available → t.poolBelow = s.poolBelow ∧ t.eventLatch.getLsbD 5 = s.eventLatch.getLsbD 5
  side : t.available ≠ s.available → t.poolBelow = decide (t.available < (t.lowWater : Int))
  event : t.available ≠ s.available →
    t.eventLatch.getLsbD 5 = (s.eventLatch.getLsbD 5 || (t.poolBelow && !s.poolBelow))

/-! ### The sync point and the release list (R66, R67, R101, R140) -/

/-- The sync point after an action that leaves these items of it unsatisfied: with none left, SYNC_DONE is raised and it is
cleared (R66, R67). -/
structure State.SyncLeft (s t : State) (left : List SyncItem → List SyncItem) : Prop where
  absent : s.sync = none → t.sync = none ∧ t.eventLatch.getLsbD 0 = s.eventLatch.getLsbD 0
  waits : ∀ items, s.sync = some items → left items ≠ [] →
    t.sync = some (left items) ∧ t.eventLatch.getLsbD 0 = s.eventLatch.getLsbD 0
  done : ∀ items, s.sync = some items → left items = [] → t.sync = none ∧ t.eventLatch.getLsbD 0 = true

/-- A segment of the release list waits for a frontier of a stream and epoch that a note or image records (R101). -/
def Segment.waitsForFrontier (g : Segment) (i : StreamId) (epoch frontier : Nat) : Bool :=
  g.location == .release && g.owner == some i && g.epoch == epoch
    && match g.release with
      | some (.frontier q) => decide (q ≤ frontier)
      | _ => false

/-- A segment of the release list waits for an image that holds its owner's new epoch (R101). -/
def Segment.waitsForEpoch (g : Segment) (i : StreamId) (epoch : Nat) : Bool :=
  g.location == .release && g.owner == some i && g.release == some (.image epoch)

/-- An image satisfies a segment's release condition (R101, R140). -/
def ImageContent.frees (c : ImageContent) (g : Segment) : Bool :=
  (List.finRange 8).any fun i =>
    g.waitsForFrontier i c.streams[i].epoch c.streams[i].frontier || g.waitsForEpoch i c.streams[i].epoch

/-- The segments whose condition is satisfied have left the release list together (R101): in ascending index order for the tail
of the reclaim queue, or with a RETIRE_PENDING header for the retired list, with SEGMENT_RETIRED; the others stay. -/
structure State.Disposed (s t : State) (freed : Segment → Bool) : Prop where
  reclaim : t.reclaim = s.reclaim
    ++ (List.finRange 510).filter fun k => freed s.segments[k] && s.segments[k].header != .retirePending
  erasable : ∀ k : DataSeg, freed s.segments[k] = true → s.segments[k].header ≠ .retirePending →
    t.segments[k] = { s.segments[k] with location := .reclaim, release := none }
  retired : ∀ k : DataSeg, freed s.segments[k] = true → s.segments[k].header = .retirePending →
    t.segments[k] = { s.segments[k] with location := .retired, release := none }
  others : ∀ k : DataSeg, freed s.segments[k] = false → t.segments[k] = s.segments[k]
  event : t.eventLatch.getLsbD 8 = (s.eventLatch.getLsbD 8
    || (List.finRange 510).any fun k => freed s.segments[k] && s.segments[k].header == .retirePending)

/-- The release walk has taken these segments out of a stream's chain, no segment of which can take a further record: the oldest, as
far as the volatile frontier covers them. Each is in the release list with its last sequence as condition, and with any of them a
note is pending (R82, R83). Of the other fields of the segment table only the entry of `k` has changed. -/
structure State.Released (s t : State) (i : StreamId) (k : DataSeg) (ks : List DataSeg) : Prop where
  chain : s.streams[i].chain = ks ++ t.streams[i].chain
  covered : ∀ j ∈ ks, s.segments[j].last ≤ s.streams[i].volatileFrontier
  first : ∀ j, t.streams[i].chain.head? = some j → s.streams[i].volatileFrontier < s.segments[j].last
  listed : ∀ j ∈ ks, t.segments[j].location = .release ∧ t.segments[j].release = some (.frontier s.segments[j].last)
  kept : ∀ j : DataSeg, j ∉ ks →
    t.segments[j].location = s.segments[j].location ∧ t.segments[j].release = s.segments[j].release
  others : ∀ j : DataSeg, j ≠ k →
    { t.segments[j] with location := s.segments[j].location, release := s.segments[j].release } = s.segments[j]
  noted : ks ≠ [] → t.ledger = { s.ledger with pendingNotes := s.ledger.pendingNotes.set i.val true }
  unnoted : ks = [] → t.ledger = s.ledger

/-- An item of the sync point is a frontier item that the durable frontiers have reached (R66). -/
def State.reachedItem (t : State) : SyncItem → Bool
  | .frontier i e q => e == t.streams[i].epoch && decide (q ≤ t.streams[i].durableFrontier)
  | _ => false

/-- An item of the sync point that the completion of an image satisfies (R44, R65, R66). -/
def State.imagedItem (t : State) (c : ImageContent) : SyncItem → Bool
  | .epochImage i e => c.streams[i].epoch == e
  | .currentImage => true
  | x => t.reachedItem x

/-- An item that waits for the first image begun waits for the image that begins (R65). -/
def SyncItem.begun : SyncItem → SyncItem
  | .nextImage => .currentImage
  | x => x

/-! ### The end of a step (R111, R112, R114, R126, R128) -/

/-- No stream faults where the COMMIT job reaches the head of these entries: a new-segment entry finds a pool segment, one that
awaits a replacement an available one (R114, R121). -/
def State.Proceeds (s : State) (es : List Entry) : Prop :=
  ∀ e, es.head? = some e → (e.placement = .new → s.pool ≠ []) ∧ (e.placement = .awaiting → 1 ≤ s.available)

/-- The COMMIT job has decided the first step for the head entry (R114): the record, the opening steps of a segment, or the seal of
the open one. -/
def State.CommitDecided (t : State) : Prop :=
  ∃ e rest, t.staging = e :: rest
    ∧ (e.placement = .current → t.engine.job = some (.commit .record))
    ∧ (e.placement = .awaiting → 1 ≤ t.available ∧ t.engine.job = some (.commit t.openingStep))
    ∧ (e.placement = .new → t.pool ≠ []
        ∧ t.engine.job = some (.commit (if (t.openSegment e.stream).isSome then .seal else t.openingStep)))

/-- What the engine runs after a selection, with the preempted RECLAIM slot as it stood (R111): LEDGER work first, then COMMIT, then
the preempted RECLAIM at its next pulse, then the head of the reclaim queue; IDLE where nothing waits. -/
structure State.Selected (t : State) (slot : Option (DataSeg × Nat)) : Prop where
  ledger : t.ledger.trigger = true → t.engine.state = .running ∧ t.engine.preempted = slot
    ∧ ∃ w, t.ledger.choose = some w ∧ t.engine.job = some (.ledger w)
  commit : t.ledger.trigger = false → t.staging ≠ [] →
    t.engine.state = .running ∧ t.engine.preempted = slot ∧ t.CommitDecided
  preempted : t.ledger.trigger = false → t.staging = [] → ∀ k n, slot = some (k, n) →
    t.engine.state = .running ∧ t.engine.preempted = none ∧ t.engine.job = some (.reclaim k (.pulse n))
  reclaim : t.ledger.trigger = false → t.staging = [] → slot = none → ∀ k ks, t.reclaim = k :: ks →
    t.engine.state = .running ∧ t.engine.preempted = none ∧ t.engine.job = some (.reclaim k (.pulse 0))
  idle : t.ledger.trigger = false → t.staging = [] → slot = none → t.reclaim = [] →
    t.engine.state = .idle ∧ t.engine.preempted = none ∧ t.engine.job = none

/-- The LEDGER job has started on an IDLE engine, with the choice that it makes at its start and no other change of the engine (R111,
R137). -/
def State.LedgerStarts (s t : State) : Prop :=
  ∃ w, t.ledger.choose = some w ∧ t.engine = { s.engine with state := .running, job := some (.ledger w) }

/-- What a frame that has made ledger work pending leaves of the engine (R109, R111): an IDLE one starts the LEDGER job unless the ledger
is halted; any other goes on as it was. -/
structure State.LedgerWoken (s t : State) : Prop where
  starts : s.engine.state = .idle → s.ledger.halted = false → s.LedgerStarts t
  halted : s.engine.state = .idle → s.ledger.halted = true → t.engine = s.engine
  busy : s.engine.state ≠ .idle → t.engine = s.engine

/-- The stream of the head entry has faulted in a COMMIT step (R34, R121): its record, its entries and its items of the sync point;
and where the next head proceeds, nothing else of streams, staging buffer and sync point. The step is a record boundary (R114). -/
structure State.StreamFaulted (s t : State) (i : StreamId) : Prop where
  state : t.streams[i].state = .faulted
  preFault : t.streams[i].preFault = s.streams[i].state
  reserved : t.streams[i].reserved = 0
  nextSeq : t.streams[i].nextSeq = s.streams[i].lastCommitted + 1
  notice : t.streams[i].notices.getLsbD 6 = true
  heldSide : t.streams[i].heldAtOrAbove = decide (t.streams[i].highWater ≤ t.streams[i].held)
  rest : { t.streams[i] with
    state := s.streams[i].state, preFault := s.streams[i].preFault, reserved := s.streams[i].reserved
    nextSeq := s.streams[i].nextSeq, chain := s.streams[i].chain, notices := s.streams[i].notices
    heldAtOrAbove := s.streams[i].heldAtOrAbove } = s.streams[i]
  streamFault : t.eventLatch.getLsbD 9 = true
  poolEmpty : t.eventLatch.getLsbD 6 = true
  removed : t.staging.Sublist (s.staging.filter fun x => x.stream != i)
  discarded : ∀ items, t.sync = some items → ∀ x ∈ items, x.isStagedOf i = false
  alone : s.Proceeds (s.staging.filter fun x => x.stream != i) →
    t.staging = s.staging.filter (fun x => x.stream != i)
      ∧ s.SyncLeft t (fun items => items.filter fun x => !x.isStagedOf i)
      ∧ ∀ j : StreamId, j ≠ i → t.streams[j] = s.streams[j]
  suspended : s.engine.state = .suspendPending → t.staging ≠ [] →
    t.engine.state = .suspended ∧ t.CommitDecided ∧ t.engine.preempted = s.engine.preempted
  selected : s.engine.state = .running ∨ t.staging = [] → t.Selected s.engine.preempted

/-! ### Erase counts (R104, R123) -/

/-- The erase count that a successful erase gives a segment (R123): one more than its own, or where that is unknown one more than the
highest that the segment table knows, or 1 where it knows none. -/
structure State.CountRaised (s : State) (k : DataSeg) (c : Nat) : Prop where
  known : ∀ x, s.segments[k].eraseCount = some x → c = x + 1
  highest : s.segments[k].eraseCount = none → ∀ (j : DataSeg) (x : Nat), s.segments[j].eraseCount = some x →
    (∀ (n : DataSeg) (y : Nat), s.segments[n].eraseCount = some y → y ≤ x) → c = x + 1
  first : (∀ j : DataSeg, s.segments[j].eraseCount = none) → c = 1

/-! ### Delivered records (R76, R96) -/

/-- Where the record of a segment stands to which so many steps lead, each by the footprint of the stored length before it. -/
def State.recordOffset (s : State) (k : DataSeg) : Nat → Nat
  | 0 => 0
  | n + 1 => s.recordOffset k n + footprint (storedLength s.array (recordAddr k (s.recordOffset k n)))

/-- The stored length of that record can be used: it is 1 to 1012, and the footprint stays within the bytes used. -/
def State.lengthUsable (s : State) (k : DataSeg) (n : Nat) : Prop :=
  1 ≤ storedLength s.array (recordAddr k (s.recordOffset k n))
    ∧ storedLength s.array (recordAddr k (s.recordOffset k n)) ≤ 1012
    ∧ s.recordOffset k (n + 1) ≤ s.segments[k].bytesUsed

/-- A stored record passes the check of FETCH for a stream and a sequence: check field, stream, sequence, completion mark. -/
def State.recordPasses (s : State) (i : StreamId) (q addr : Nat) : Prop :=
  fromBE (readBytes s.array (addr + 8) 2)
      = crc16 (readBytes s.array addr 8 ++ readBytes s.array (addr + 12) (storedLength s.array addr))
    ∧ (readByte s.array (addr + 2)).toNat = i.val ∧ fromBE (readBytes s.array (addr + 4) 4) = q
    ∧ readBytes s.array (addr + 10) 2 = [0, 0]

/-- What FETCH delivers of the record with a sequence, to which so many steps lead in a segment (R75, R76): header and payload, the
check flag at bit 15 of the length, or a header only where a stored length on the way cannot be used. -/
structure State.Delivers (s : State) (i : StreamId) (q : Nat) (k : DataSeg) (n : Nat) (d : List Byte) : Prop where
  sequence : fieldAt d 0 4 = q % 2 ^ 32
  stream : fieldAt d 7 1 = i.val
  located : (∀ j ≤ n, s.lengthUsable k j) → ∀ a, a = recordAddr k (s.recordOffset k n) →
    (s.recordPasses i q a → fieldAt d 4 2 = storedLength s.array a)
      ∧ (¬ s.recordPasses i q a → fieldAt d 4 2 = 0x8000 + storedLength s.array a)
      ∧ fieldAt d 6 1 = (readByte s.array (a + 3)).toNat
      ∧ d.drop 8 = readBytes s.array (a + 12) (storedLength s.array a)
  unlocatable : (∃ j ≤ n, ¬ s.lengthUsable k j) → d.length = 8 ∧ fieldAt d 4 2 = 0x8000 ∧ fieldAt d 6 1 = 0

/-! ### Arguments (R39, R70, R72) -/

/-- Policy, quota and high-water are legal together (R39). -/
def ConfigLegal (p : Byte) (q h : Word16) : Prop :=
  (p = 0 ∧ 1 ≤ q.toNat ∨ p = 1 ∧ 2 ≤ q.toNat) ∧ q.toNat ≤ 510 ∧ 1 ≤ h.toNat ∧ h.toNat ≤ q.toNat

/-- The form and operand of a FETCH keep the rules of form (R70). -/
def LocatorLegal (form : Byte) (operand : Word32) : Prop :=
  (form = 0 ∧ operand = 0) ∨ form = 1 ∨ (2 ≤ form.toNat ∧ form.toNat ≤ 5 ∧ operand.toNat < 65536)

/-- The start sequence of a FETCH, in exact arithmetic (R72); the operand of a relative form is a signed 16-bit offset. -/
def Stream.startsAt (t : Stream) (form : Byte) (operand : Word32) (start : Int) : Prop :=
  (form = 0 → start = t.cursor) ∧ (form = 1 → start = operand.toNat)
    ∧ (form = 2 → start = t.cursor + (operand.setWidth 16).toInt)
    ∧ (form = 3 → ∃ m ms, t.marks = m :: ms ∧ start = m + (operand.setWidth 16).toInt)
    ∧ (form = 4 → start = t.volatileFrontier + 1 + (operand.setWidth 16).toInt)
    ∧ (form = 5 → start = t.lastCommitted - (operand.setWidth 16).toInt)

/-- Every field of an image is in its encoding range (R132). -/
structure ImageContent.InRange (c : ImageContent) : Prop where
  state : ∀ i : StreamId, c.streams[i].state ≠ .faulted
  quota : ∀ i : StreamId, 1 ≤ c.streams[i].quota ∧ c.streams[i].quota ≤ 510
  highWater : ∀ i : StreamId, 1 ≤ c.streams[i].highWater ∧ c.streams[i].highWater ≤ c.streams[i].quota
  backlog : ∀ i : StreamId, c.streams[i].backlog ≤ 65535
  epoch : ∀ i : StreamId, c.streams[i].epoch ≤ 0xFFFFFFFF
  frontier : ∀ i : StreamId, c.streams[i].frontier ≤ 0xFFFFFFFE
  lockMode : c.lockMode ≠ .session
  lowWater : 1 ≤ c.lowWater ∧ c.lowWater ≤ 64
  anchorErases : ∀ a : AnchorSeg, c.anchorErases[a] ≤ 0xFFFFFE

/-! ### Anchor segments (R131 to R134) -/

/-- What a programmed unit of 28 field bytes reads as (R131): the fields, their check, the completion mark. -/
def unitBytes (fields : List Byte) : List Byte := fields ++ be16 (crc16 fields) ++ [0, 0]

/-- An anchor segment of the array holds an image at units 0 to 7, at unit 8 a note or nothing, and nothing beyond; the other one is
erased (R131 to R133). -/
structure HoldsImage (m : Memory) (a : AnchorSeg) (c : ImageContent) (g : Word32) (note : Option (StreamId × Nat × Nat)) :
    Prop where
  image : ∀ u : StreamId, readBytes m (unitAddr a u.val) 32 = unitBytes (imageUnit c g u)
  noted : ∀ i e f, note = some (i, e, f) → readBytes m (unitAddr a 8) 32 = unitBytes (noteUnit i e f g)
    ∧ e ≤ 0xFFFFFFFF ∧ f ≤ 0xFFFFFFFF
  only : ∀ x ∈ m, x.1 / Config.segmentBytes < 2 → x.1 / Config.segmentBytes = a.val
    ∧ x.1 < unitAddr a (if note.isSome then 9 else 8)

/-- A stream's frontier in an image with a note of its epoch applied (R134). -/
def ImageContent.noted (c : ImageContent) (note : Option (StreamId × Nat × Nat)) (i : StreamId) : Nat :=
  match note with
  | some (j, e, f) => if j = i ∧ e = c.streams[i].epoch then max c.streams[i].frontier f else c.streams[i].frontier
  | none => c.streams[i].frontier

/-! ### Recovery (R134, R148 to R154) -/

/-- The values that the first phase of the scan fixes stand (R37, R135, R148, R153): in the ledger, the streams, the guard and the
low-water. -/
structure State.AnchoredTo (t : State) (x : Anchored) : Prop where
  current : t.ledger.current = x.current
  nextFree : t.ledger.nextFree = x.nextFree
  generation : t.ledger.generation = x.generation
  anchorErases : t.ledger.anchorErases = x.anchorErases
  imageNeeded : t.ledger.imageNeeded = true ↔ x.current = none ∨ ∃ i : StreamId,
    (x.streams[i].state = .idle ∨ x.streams[i].state = .opened) ∧ t.streams[i].lastCommitted = 0xFFFFFFFE
  state : ∀ i : StreamId, t.streams[i].state =
    if (x.streams[i].state = .idle ∨ x.streams[i].state = .opened) ∧ t.streams[i].lastCommitted = 0xFFFFFFFE then .sealed
    else x.streams[i].state
  policy : ∀ i : StreamId, t.streams[i].policy = x.streams[i].policy
  quota : ∀ i : StreamId, t.streams[i].quota = x.streams[i].quota
  highWater : ∀ i : StreamId, t.streams[i].highWater = x.streams[i].highWater
  backlog : ∀ i : StreamId, t.streams[i].backlog = x.streams[i].backlog
  epoch : ∀ i : StreamId, t.streams[i].epoch = x.streams[i].epoch
  durableFrontier : ∀ i : StreamId, t.streams[i].durableFrontier = x.streams[i].frontier
  lockMode : t.guard.anchored = x.lockMode
  appendLocks : t.guard.appendLocks = x.appendLocks
  formatInhibit : t.guard.formatInhibit = x.formatInhibit
  lowWater : t.lowWater = x.lowWater

/-- The 32 header bytes of a data segment as they read. -/
def State.headerOf (s : State) (k : DataSeg) : List Byte := readBytes s.array (segmentBase k.index) 32

/-- The record area of a data segment reads FFh from an offset on. -/
def State.erasedBeyond (s : State) (k : DataSeg) (offset : Nat) : Bool := erasedFrom (segmentCells s.array k.index) k offset

/-- The table entry repeats the fields of a header with a verified open stage (R149). -/
structure Segment.Repeats (g : Segment) (h : List Byte) : Prop where
  owner : g.owner = headerOwner h
  epoch : g.epoch = headerField h 11 4
  first : g.first = headerField h 15 4
  eraseCount : g.eraseCount = some (headerField h 5 3)

/-- Where the scan has put a data segment, and with which entry, by what its header and record area read (R149). -/
structure State.SegmentScanned (s t : State) (k : DataSeg) : Prop where
  retired : readHeader (s.headerOf k) = .retired → t.segments[k].location = .retired ∧ t.segments[k].header = .retired
    ∧ t.segments[k].eraseCount = if freeChecks (s.headerOf k) then some (headerField (s.headerOf k) 5 3) else none
  worn : readHeader (s.headerOf k) = .free → 120000 ≤ headerField (s.headerOf k) 5 3 →
    t.segments[k].location = .retired ∧ t.segments[k].header = .free
      ∧ t.segments[k].eraseCount = some (headerField (s.headerOf k) 5 3)
  free : readHeader (s.headerOf k) = .free → headerField (s.headerOf k) 5 3 < 120000 → s.erasedBeyond k 0 = true →
    onlyFreeStage (s.headerOf k) = true → t.segments[k].location = .pool ∧ t.segments[k].header = .free
      ∧ t.segments[k].eraseCount = some (headerField (s.headerOf k) 5 3)
  blank : readHeader (s.headerOf k) = .blank → s.erasedBeyond k 0 = true →
    t.segments[k].location = .pool ∧ t.segments[k].header = .blank
      ∧ ∃ x, t.segments[k].eraseCount = some x ∧ (∀ j < k, ∀ y, verifiedCount (s.headerOf j) = some y → y ≤ x)
        ∧ (x = 0 ∨ ∃ j < k, verifiedCount (s.headerOf j) = some x)
  unusable : (readHeader (s.headerOf k) = .free ∧ headerField (s.headerOf k) 5 3 < 120000
        ∧ (s.erasedBeyond k 0 = false ∨ onlyFreeStage (s.headerOf k) = false))
      ∨ (readHeader (s.headerOf k) = .blank ∧ s.erasedBeyond k 0 = false) ∨ readHeader (s.headerOf k) = .invalid →
    t.segments[k].location = .reclaim ∧ t.segments[k].header = .invalid ∧ t.segments[k].eraseCount = none
  opened : ∀ torn, readHeader (s.headerOf k) = .opened torn → t.segments[k].header = .opened
    ∧ t.segments[k].Repeats (s.headerOf k) ∧ (t.segments[k].location = .chain ∨ t.segments[k].location = .reclaim)
  sealed : readHeader (s.headerOf k) = .sealed → t.segments[k].header = .sealed ∧ t.segments[k].Repeats (s.headerOf k)
    ∧ t.segments[k].last = headerField (s.headerOf k) 21 4 ∧ t.segments[k].bytesUsed = headerField (s.headerOf k) 25 2
    ∧ t.segments[k].poisoned = false ∧ (t.segments[k].location = .chain ∨ t.segments[k].location = .reclaim)
  retirePending : readHeader (s.headerOf k) = .retirePending →
    t.segments[k].header = .retirePending ∧ t.segments[k].Repeats (s.headerOf k)
      ∧ t.segments[k].last = headerField (s.headerOf k) 21 4 ∧ t.segments[k].bytesUsed = headerField (s.headerOf k) 25 2
      ∧ t.segments[k].poisoned = false ∧ (t.segments[k].location = .chain ∨ t.segments[k].location = .retired)

/-- A data segment is a candidate of a stream (R149): OPEN, SEALED or RETIRE_PENDING, with the anchored epoch of its owner. -/
def State.isCandidate (s : State) (i : StreamId) (k : DataSeg) : Prop :=
  (anchorPhase s.array).current ≠ none ∧ headerOwner (s.headerOf k) = some i
    ∧ headerField (s.headerOf k) 11 4 = (anchorPhase s.array).streams[i].epoch
    ∧ ((∃ torn, readHeader (s.headerOf k) = .opened torn) ∨ readHeader (s.headerOf k) = .sealed
      ∨ readHeader (s.headerOf k) = .retirePending)

/-- The record scan of an OPEN candidate (R151). -/
def State.scanOf (s : State) (i : StreamId) (k : DataSeg) : Scan :=
  scanSegment (segmentCells s.array k.index) k i (headerField (s.headerOf k) 15 4)

/-- What the record scan of a segment means (R151): every sequence from its first to the last it found stands there as a good record
before the bytes used, and where nothing was torn or corrupt the rest of the record area reads FFh. -/
structure State.ScanMeans (s : State) (i : StreamId) (k : DataSeg) (r : Scan) : Prop where
  used : r.used ≤ 4064
  records : ∀ q, 1 ≤ q → headerField (s.headerOf k) 15 4 ≤ q → q ≤ r.last →
    ∃ p < r.used, goodRecord (segmentCells s.array k.index) k i p q = true
  clean : r.damaged = false → r.used + 16 ≤ 4064 → s.erasedBeyond k r.used = true

/-- A candidate has a close stage: SEALED, RETIRE_PENDING or a torn close (R150). -/
def State.hasCloseStage (s : State) (k : DataSeg) : Prop := readHeader (s.headerOf k) ≠ .opened false

/-- A segment holds no record (R150). -/
def Segment.holdsNone (g : Segment) : Prop := g.last < g.first

/-- A measured candidate comes before another of its stream (R150): by first sequence; of two that share one, the one without a record
before the one with records, of two without one the one with a close stage before the one without; otherwise by index. -/
def State.precedes (s t : State) (k j : DataSeg) : Prop :=
  t.segments[k].first < t.segments[j].first
    ∨ (t.segments[k].first = t.segments[j].first
      ∧ ((t.segments[k].holdsNone ∧ ¬ t.segments[j].holdsNone)
        ∨ (t.segments[k].holdsNone ∧ t.segments[j].holdsNone ∧ s.hasCloseStage k ∧ ¬ s.hasCloseStage j)
        ∨ ((t.segments[k].holdsNone ↔ t.segments[j].holdsNone)
          ∧ (t.segments[k].holdsNone → (s.hasCloseStage k ↔ s.hasCloseStage j)) ∧ k < j)))

/-- How a stream's chain comes out of its candidates (R150, R152): `order` lists them all in their order, `left` those of them that the
durable frontier does not cover, and the chain is the unbroken series at the start of these. TORN is set just where a record scan found
damage or the series is broken. -/
structure State.SeriesRebuilt (s t : State) (i : StreamId) (order left : List DataSeg) : Prop where
  members : ∀ k : DataSeg, k ∈ order ↔ s.isCandidate i k
  ordered : order.Pairwise (s.precedes t)
  remaining : left = order.filter fun k => decide (t.streams[i].durableFrontier < t.segments[k].last)
    || (order.getLast? == some k && decide (t.segments[k].last = t.streams[i].durableFrontier))
  kept : t.streams[i].chain <+: left
  cut : ∀ k, left[t.streams[i].chain.length]? = some k →
    (t.streams[i].chain = [] → t.streams[i].durableFrontier + 1 < t.segments[k].first)
      ∧ ∀ j, t.streams[i].chain.getLast? = some j → t.segments[k].first ≠ t.segments[j].last + 1
  torn : t.streams[i].notices = 0x80 ↔ t.streams[i].chain ≠ left
    ∨ ∃ k torn, s.isCandidate i k ∧ readHeader (s.headerOf k) = .opened torn ∧ (s.scanOf i k).damaged = true

/-- A stream's chain and record as the scan has rebuilt them from its candidates and its anchored frontier (R150 to R153). -/
structure State.StreamRebuilt (s t : State) (i : StreamId) : Prop where
  candidates : ∀ k ∈ t.streams[i].chain, s.isCandidate i k ∧ t.segments[k].location = .chain
  first : ∀ k, t.streams[i].chain.head? = some k → t.segments[k].first ≤ t.streams[i].durableFrontier + 1
  joined : ∀ n k j, t.streams[i].chain[n]? = some k → t.streams[i].chain[n + 1]? = some j →
    t.segments[j].first = t.segments[k].last + 1
  uncovered : ∀ k ∈ t.streams[i].chain, t.streams[i].durableFrontier ≤ t.segments[k].last
  lastCommitted : ∀ k, t.streams[i].chain.getLast? = some k → t.streams[i].lastCommitted = t.segments[k].last
  emptied : t.streams[i].chain = [] → t.streams[i].lastCommitted = t.streams[i].durableFrontier
  scanned : ∀ k torn, s.isCandidate i k → readHeader (s.headerOf k) = .opened torn →
    t.segments[k].last = (s.scanOf i k).last ∧ t.segments[k].bytesUsed = (s.scanOf i k).used
      ∧ t.segments[k].poisoned = ((s.scanOf i k).damaged || torn) ∧ s.ScanMeans i k (s.scanOf i k)
  series : ∃ order left, s.SeriesRebuilt t i order left
  dropped : ∀ k, s.isCandidate i k → k ∉ t.streams[i].chain →
    t.segments[k].location = if readHeader (s.headerOf k) = .retirePending then .retired else .reclaim
  notices : t.streams[i].notices = 0 ∨ t.streams[i].notices = 0x80
  damaged : ∀ k torn, s.isCandidate i k → readHeader (s.headerOf k) = .opened torn → (s.scanOf i k).damaged = true →
    t.streams[i].notices = 0x80
  broken : ∀ k, s.isCandidate i k → k ∉ t.streams[i].chain → t.streams[i].durableFrontier < t.segments[k].last →
    t.streams[i].notices = 0x80
  torn : t.streams[i].notices = 0x80 → ∃ k, s.isCandidate i k
    ∧ ((∃ torn, readHeader (s.headerOf k) = .opened torn ∧ (s.scanOf i k).damaged = true)
      ∨ (k ∉ t.streams[i].chain ∧ t.streams[i].durableFrontier ≤ t.segments[k].last))

/-! ### FORMAT's way through the data segments (R157) -/

/-- FORMAT erases no such segment: it is retired, or its header is RETIRE_PENDING. -/
def Segment.notErased (g : Segment) : Bool := g.location == .retired || g.header == .retirePending

/-- From an index on, FORMAT comes to this segment without an erase before it, and takes it to the retired list without a pulse. -/
def State.passedOver (s : State) (start : Nat) (j : DataSeg) : Bool :=
  decide (start ≤ j.val) && s.segments[j].location != .retired
    && (List.finRange 510).all fun n => decide (n.val < start) || decide (j < n) || s.segments[n].notErased

/-- The RETIRE_PENDING segments that FORMAT passes over from an index on have joined the retired list; of the other segments only `k`
has changed. -/
structure State.PassesOver (s t : State) (k : DataSeg) (start : Nat) : Prop where
  retired : ∀ j : DataSeg, s.passedOver start j = true →
    t.segments[j] = { s.segments[j] with location := .retired, release := none }
  others : ∀ j : DataSeg, j ≠ k → s.passedOver start j = false → t.segments[j] = s.segments[j]

/-- The work that follows in FORMAT from an index on: the next higher segment that it erases, and with none left anchor segment 1. -/
structure State.FormatProceeds (s t : State) (start : Nat) : Prop where
  segment : ∀ n : DataSeg, start ≤ n.val → (∀ j : DataSeg, start ≤ j.val → j < n → s.segments[j].notErased = true) →
    s.segments[n].notErased = false →
    t.engine = { s.engine with job := some (.format true (.segment n (.pulse 0))), resumeLock := false }
  anchors : (∀ j : DataSeg, start ≤ j.val → s.segments[j].notErased = true) →
    t.engine = { s.engine with job := some (.format true (.anchorErase 0)), resumeLock := false }

/-! ### FORMAT's completion (R27, R158, R171, R179) -/

/-- What the completion of FORMAT leaves, with or without a halt of the ledger. -/
structure State.FormatEnds (s t : State) (l : Ledger) : Prop where
  streams : ∀ i : StreamId, t.streams[i] = Stream.formatted
  guard : t.guard = s.guard.formatted
  lowWater : t.lowWater = 8
  ledger : t.ledger = l
  port : t.port = { s.port with receipt := none }
  sync : t.sync = none
  poolSide : t.poolBelow = decide (t.available < 8)
  selected : t.Selected s.engine.preempted

/-! ### The array (R91, R110, R159) -/

/-- The bytes of the array that a piece of work may change. -/
def ArrayWork.covers (w : ArrayWork) (a : Nat) : Prop :=
  match w with
  | .program item => a ∈ (item.body ++ item.mark).map fun c => c.1
  | .erase index => a / Config.segmentBytes = index
  | .nothing => False
  | .vaultByte _ _ _ => False
  | .vaultErase _ => False
  | .vaultLock _ => False

/-- The work is an erase pulse on a segment of the array. -/
def ArrayWork.erasesArray : ArrayWork → Bool
  | .erase _ => true
  | _ => false

/-- The vault page whose bytes the work is on. -/
def ArrayWork.vaultPage : ArrayWork → Option (Fin 4)
  | .vaultByte page _ _ => some page
  | .vaultErase page => some page
  | _ => none

/-- The vault page whose lock cell the work is on. -/
def ArrayWork.lockPage : ArrayWork → Option (Fin 4)
  | .vaultLock page => some page
  | _ => none

end Sys2Proof.Machine

namespace Sys2Proof

/-! ### Rows of one kind -/

/-- The row cuts a step short: a power loss or a soft reset (R155, R159). -/
def Instr.cuts : Instr → Bool
  | .reset _ => true
  | .powerLoss _ => true
  | _ => false

/-- The row is an erase pulse on the array. -/
def Instr.erasesArray : Instr → Bool
  | .reclaimErasePulse _ => true
  | .ledgerAnchorErasePulse _ => true
  | .formatErasePulse _ => true
  | .formatAnchorErasePulse _ => true
  | _ => false

/-- The row is a step of a VAULT job. -/
def Instr.vaultStep : Instr → Bool
  | .vaultWriteByteStep _ => true
  | .vaultErasePulse _ => true
  | .vaultLockStep _ => true
  | _ => false

/-- The row is a step of a LEDGER job. -/
def Instr.ledgerStep : Instr → Bool
  | .ledgerImageUnitStep _ => true
  | .ledgerNoteStep _ => true
  | .ledgerAnchorErasePulse _ => true
  | _ => false

/-- The row is a step of a job other than FORMAT. -/
def Instr.jobStep (i : Instr) : Bool :=
  i.vaultStep || i.ledgerStep || match i with
    | .commitSealStep _ => true
    | .commitFreeStageStep _ => true
    | .commitOpenStep _ => true
    | .commitOpenRetireStep _ => true
    | .commitRecordStep _ => true
    | .commitCloseStep _ => true
    | .reclaimErasePulse _ => true
    | .reclaimFreeStageStep _ => true
    | .reclaimRetireStep _ => true
    | _ => false

/-- The row is a step of a FORMAT job. -/
def Instr.formatStep : Instr → Bool
  | .formatErasePulse _ => true
  | .formatFreeStageStep _ => true
  | .formatRetireStep _ => true
  | .formatAnchorErasePulse _ => true
  | .formatImageUnitStep _ => true
  | _ => false

/-- The row is a frame in which the device is served an assigned command or a malformed one: neither null nor ignored. -/
def Instr.isFrame : Instr → Bool
  | .discardedFrame _ => true
  | .unknownCommand _ => true
  | .nullFrame => false
  | i => (encodeFrame i).isSome

/-- The row that ends an output command's frame of so many bytes. -/
def OutputCommand.row (bytes : Nat) : OutputCommand → Instr
  | .queryStatus => .queryStatus bytes
  | .readEvents => .readEvents bytes
  | .deviceInfo => .deviceInfo bytes
  | .streamInfo stream mask => .streamInfo stream mask bytes
  | .segmentInfo index => .segmentInfo index bytes
  | .fetch stream form operand count => .fetch stream form operand count bytes
  | .readGuard => .readGuard bytes
  | .vaultRead page offset => .vaultRead page offset bytes
  | .identify => .identify bytes
  | .descriptor => .descriptor bytes

end Sys2Proof
end

