-- ==== Sys2Proof/WellFormed.lean ====
section
/-! DEFINITION. Which commands are well formed: a frame command's row stands for a frame of that command's shape (a frame
of another shape is the row DISCARDED_FRAME, R8), and a step's outcome is one that the cells can have (R110). The meanings
are total: they give an ill-formed row the effect its check names. -/

namespace Sys2Proof

/-- At most four pulses are applied in one program sequence (R110). -/
def Pulses.wellFormed (p : Pulses) : Bool := p.length ≤ Config.programPulses

/-- The bytes an erase pulse leaves lie in the segment (R110). -/
def Residue.wellFormed (size : Nat) (r : Residue) : Bool := r.all fun c => c.1 < size

/-- A cut lets at most four program pulses happen, and erases nothing outside the segment (R159). -/
def Cut.wellFormed (c : Cut) : Bool :=
  Pulses.wellFormed c.pulses && (c.residue.getD []).all fun d => d.1 < Config.segmentBytes

/-- An output frame of a row is long enough to hold the command's arguments (R10). -/
def outputShape (c : OutputCommand) (bytes : Nat) : Bool := c.argBytes + 1 ≤ bytes

/-- The row stands for an event of its kind. -/
def Instr.wellFormed : Instr → Bool
  | .nullFrame => true
  | .discardedFrame _ => true
  | .unknownCommand bytes => 1 ≤ bytes
  | .ignoredFrame => true
  | .arm => true
  | .disarm => true
  | .queryStatus bytes => outputShape .queryStatus bytes
  | .readEvents bytes => outputShape .readEvents bytes
  | .clearEvents _ => true
  | .setEventEnable _ => true
  | .deviceInfo bytes => outputShape .deviceInfo bytes
  | .configureStream _ _ _ _ _ _ => true
  | .openStream _ _ => true
  | .closeStream _ _ => true
  | .resetStream _ _ => true
  | .streamInfo stream mask bytes => outputShape (.streamInfo stream mask) bytes
  | .segmentInfo index bytes => outputShape (.segmentInfo index) bytes
  | .append _ _ length payload => payload.length == length.toNat
  | .sync => true
  | .fetch stream form operand count bytes => outputShape (.fetch stream form operand count) bytes
  | .ack _ _ => true
  | .pushMark _ => true
  | .popMark _ => true
  | .rewind _ _ => true
  | .suspend => true
  | .resume => true
  | .deviceConfig _ _ => true
  | .format _ => true
  | .readGuard bytes => outputShape .readGuard bytes
  | .writeGuard _ _ _ _ => true
  | .vaultRead page offset bytes => outputShape (.vaultRead page offset) bytes
  | .vaultWrite _ _ length data => data.length == length.toNat
  | .vaultErase _ => true
  | .vaultLock _ => true
  | .doze => true
  | .wake => true
  | .resetEnable => true
  | .reset cut => cut.wellFormed
  | .identify bytes => outputShape .identify bytes
  | .descriptor bytes => outputShape .descriptor bytes
  | .powerOn => true
  | .powerLoss cut => cut.wellFormed
  | .recoveryComplete => true
  | .wakePhaseEnd => true
  | .commitSealStep pulses => Pulses.wellFormed pulses
  | .commitFreeStageStep pulses => Pulses.wellFormed pulses
  | .commitOpenStep pulses => Pulses.wellFormed pulses
  | .commitOpenRetireStep pulses => Pulses.wellFormed pulses
  | .commitRecordStep pulses => Pulses.wellFormed pulses
  | .commitCloseStep pulses => Pulses.wellFormed pulses
  | .reclaimErasePulse residue => Residue.wellFormed Config.segmentBytes residue
  | .reclaimFreeStageStep pulses => Pulses.wellFormed pulses
  | .reclaimRetireStep pulses => Pulses.wellFormed pulses
  | .ledgerImageUnitStep pulses => Pulses.wellFormed pulses
  | .ledgerNoteStep pulses => Pulses.wellFormed pulses
  | .ledgerAnchorErasePulse residue => Residue.wellFormed Config.segmentBytes residue
  | .vaultWriteByteStep pulses => pulses.length ≤ Config.programPulses
  | .vaultErasePulse residue => Residue.wellFormed Config.vaultPageBytes residue
  | .vaultLockStep _ => true
  | .formatErasePulse residue => Residue.wellFormed Config.segmentBytes residue
  | .formatFreeStageStep pulses => Pulses.wellFormed pulses
  | .formatRetireStep pulses => Pulses.wellFormed pulses
  | .formatAnchorErasePulse residue => Residue.wellFormed Config.segmentBytes residue
  | .formatImageUnitStep pulses => Pulses.wellFormed pulses
  | .statusCapture => true
  | .verdict _ => true

end Sys2Proof
end

