-- ==== Sys2Proof/Certificates/Slice0/Obligations.lean ====
section
/-! DEFINITION. The statements about the model, for the provers. Each says what the rules of spec/ say of a command, a job step or
the whole machine; OBLIGATIONS.json names the rules. -/

section

open Sys2Proof Sys2Proof.Machine

/-! ### The queue, reset and the whole machine -/

/-- A step takes the command at the front of the queue and runs its meaning on the state with the queue's rest (R22); that the
block idles on an empty queue is the model's choice (log 2). -/
def Obligations.StepRunsFrontCommand : Prop :=
  (∀ (c : Instr) (rest : List Instr) (s : State), s.pending = c :: rest → step s = exec c { s with pending := rest })
    ∧ ∀ s : State, s.pending = [] → step s = .next s

/-- What power-on leaves in the port, the staging buffer, the sync point, the event unit and the engine (R147, R162). -/
def Obligations.ResetStateValues : Prop :=
  State.reset.power = .recovering ∧ State.reset.port.frameState = .idle ∧ State.reset.port.armLatch = false
    ∧ State.reset.port.resetEnable = false ∧ State.reset.port.outcome = .done ∧ State.reset.port.receipt = none
    ∧ State.reset.eventLatch = 0 ∧ State.reset.eventEnable = 0 ∧ State.reset.staging = [] ∧ State.reset.sync = none
    ∧ State.reset.engine.state = .idle ∧ State.reset.engine.job = none ∧ State.reset.engine.preempted = none
    ∧ State.reset.engine.resumeLock = false ∧ State.reset.ledger.halted = false ∧ State.reset.pending = []

/-- The canonical array, the agreement of the guard's copies and the soundness of the engine hold right after reset; and once
recovery has completed on it, so do the places of the segments and the relations of the stream records. That the array is erased
at reset (log 9) and what stands where the spec gives no power-on value (log 10) are the model's choices. -/
def Obligations.InvariantsHoldAtReset : Prop :=
  Memory.wf State.reset.array = true ∧ State.reset.guard.agrees = true ∧ State.reset.engineSound = true
    ∧ ∃ t, exec .recoveryComplete State.reset = .next t ∧ t.power.holds = true ∧ t.engine.formatRuns = false
      ∧ t.engineSound = true ∧ t.Placed ∧ t.Related

/-- Every step keeps the array in its canonical form (R91). -/
def Obligations.StepKeepsArrayCanonical : Prop :=
  ∀ s t : State, Memory.wf s.array = true → step s = .next t → Memory.wf t.array = true

/-- Every step keeps the two copies of the guard in agreement: SESSION is never anchored, and the lock modes differ only while
the working one is SESSION (R175). -/
def Obligations.StepKeepsGuardAgreement : Prop :=
  ∀ s t : State, s.guard.agrees = true → step s = .next t → t.guard.agrees = true

/-- Every step keeps the engine sound: IDLE exactly without a job, suspended only with COMMIT or RECLAIM, running only in the
ACTIVE power state, and IDLE only where no trigger of R109 holds (R108, R109, R126, R128). -/
def Obligations.StepKeepsEngineSound : Prop :=
  ∀ s t : State, s.engineSound = true → step s = .next t → t.engineSound = true

/-- Outside recovery and FORMAT, every step keeps each data segment in exactly one place: pool, one chain, release list, reclaim
queue, under erasure, or retired (R97). -/
def Obligations.StepKeepsPlaces : Prop :=
  ∀ s t : State, s.power.holds = true → s.engine.formatRuns = false → s.engineSound = true → s.Placed → step s = .next t →
    t.power.holds = true → t.Placed

/-- Outside recovery and FORMAT, every step keeps the relations 1 to 3 of R29 in every stream record, with what the other
blocks hold in their support. -/
def Obligations.StepKeepsStreamRelations : Prop :=
  ∀ s t : State, s.power.holds = true → s.engine.formatRuns = false → s.engineSound = true → s.Placed → s.Related →
    step s = .next t → t.power.holds = true → t.Related

/-- Whatever the command, a byte of the array that the step in progress does not work on reads as before: a program sequence changes
its item's bytes alone, an erase pulse its segment's alone, and so does the power loss or soft reset that cuts one short (R91,
R110, R159). A row that is neither a job step nor such a cut, a frame among them, leaves the whole array. And no command sets a bit of
the array unless the step in progress is an erase pulse: programming only changes bits from 1 to 0, also where a power loss or soft
reset cuts a program sequence short; no command but an erase pulse or such a cut sets one at all (R91). -/
def Obligations.OnlyTheStepsWorkChangesTheArray : Prop :=
  ∀ (c : Instr) (s t : State), Memory.wf s.array = true → exec c s = .next t →
    (∀ a : Nat, ¬ s.stepWork.covers a → readByte t.array a = readByte s.array a)
      ∧ (c.jobStep = false → c.formatStep = false → c.cuts = false → t.array = s.array)
      ∧ ((c.erasesArray = false ∧ c.cuts = false) ∨ s.stepWork.erasesArray = false →
        ∀ a : Nat, readByte t.array a &&& readByte s.array a = readByte t.array a)

/-- Vault pages and lock cells change only by a step of a VAULT job, or by the power loss or soft reset that cuts one short: whatever the
command, a page changes only where the step in progress writes or erases that page, a lock cell only where it locks that page, so that
a cut in a step of any other job leaves them all. No command sets a bit of a page unless the step in progress erases it; and a
programmed lock cell stays programmed whatever happens (R155, R159, R183). -/
def Obligations.OnlyVaultStepsChangeTheVault : Prop :=
  ∀ (c : Instr) (s t : State), exec c s = .next t →
    (c.vaultStep = false → c.cuts = false → t.vault = s.vault ∧ t.lockCells = s.lockCells)
      ∧ ∀ p : Fin 4, (s.stepWork.vaultPage ≠ some p → t.vault[p] = s.vault[p])
        ∧ (s.stepWork.lockPage ≠ some p → t.lockCells[p] = s.lockCells[p])
        ∧ (s.stepWork ≠ .vaultErase p → ∀ o : Fin 128, t.vault[p][o] &&& s.vault[p][o] = t.vault[p][o])
        ∧ (s.lockCells[p] = true → t.lockCells[p] = true)

/-! ### Frames (chapter 1) -/

/-- Words of the command table decode to the command each stands for: ARM, READ EVENTS, the CONFIGURE STREAM and OPEN STREAM of
chapter 2's example, an APPEND of three bytes, an ACK, a short FETCH, an unassigned code, a partial byte, no clock at all. -/
def Obligations.FrameBytesDecode : Prop :=
  ∀ (g : Bool) (cut : Cut),
    decodeFrame [0x1A] 0 g cut = .arm
      ∧ decodeFrame [0x2C, 0, 0, 0, 0, 0, 0] 0 g cut = .readEvents 7
      ∧ decodeFrame [0x41, 0x05, 0x01, 0x00, 0x20, 0x00, 0x18, 0x00, 0x0A] 0 g cut = .configureStream 5 1 32 24 10 g
      ∧ decodeFrame [0x42, 0x05] 0 g cut = .openStream 5 g
      ∧ decodeFrame [0x56, 2, 9, 0, 3, 0xA, 0xB, 0xC] 0 g cut = .append 2 9 3 [0xA, 0xB, 0xC]
      ∧ decodeFrame [0x64, 1, 0, 0, 1, 0x2C] 0 g cut = .ack 1 300
      ∧ decodeFrame [0x63, 1, 0, 0, 0, 0, 0] 0 g cut = .discardedFrame 7
      ∧ decodeFrame [0x00, 1, 2] 3 g cut = .unknownCommand 3
      ∧ decodeFrame [0x1A] 5 g cut = .discardedFrame 1
      ∧ decodeFrame [] 0 g cut = .nullFrame

/-- The bytes of a well-formed command's frame decode to that command, whatever its arguments (chapter 1, the command table). -/
def Obligations.FrameRoundTrip : Prop :=
  ∀ (i : Instr) (bytes : List Byte), i.wellFormed = true → encodeFrame i = some bytes →
    decodeFrame bytes 0 i.guardLevel i.cutOf = i

/-- A null frame and an ignored frame leave everything but the frame state (R1, R25). In DOZING and WAKING no frame, be it of an
assigned command, discarded or unknown, changes anything but that SEL is high again, save a WAKE in DOZING, which makes the power
state WAKING (R25, R161). No frame begins where SEL falls outside ACTIVE and RECOVERING (R1): the model's flag remembers it, and
the rest of that frame has no effect, be it after a power-on or a wake (log 11). -/
def Obligations.FramesWithoutEffect : Prop :=
  (∀ s : State,
    (s.port.snapshot = none →
      exec .nullFrame s = .next { s with port := { s.port with frameState := .idle, frameIgnored := false } })
      ∧ exec .ignoredFrame s = .next { s with port := { s.port with frameIgnored := false } }
      ∧ (s.power = .off ∨ s.power = .dozing ∨ s.power = .waking →
        exec .statusCapture s = .next { s with port := { s.port with frameIgnored := true } }))
    ∧ ∀ (c : Instr) (s : State), c.isFrame = true →
      (s.power = .off ∨ s.power = .waking ∨ (s.power = .dozing ∧ c ≠ .wake) →
        exec c s = .next { s with port := { s.port with frameIgnored := false } })
      ∧ (s.power = .dozing →
        exec .wake s = .next { s with port := { s.port with frameIgnored := false }, power := .waking })
      ∧ (s.power = .active ∨ s.power = .recovering → s.port.frameIgnored = true →
        exec c s = .next { s with port := { s.port with frameIgnored := false } })

/-- While the power state is RECOVERING, every well-formed frame but QUERY STATUS records RECOVERING, clears the arm latch and
the reset-enable flag, and changes nothing else (R14). -/
def Obligations.RecoveringRefusesCommands : Prop :=
  ∀ (c : Instr) (bytes : List Byte) (s : State), encodeFrame c = some bytes → c.wellFormed = true → c ≠ .nullFrame →
    (∀ n, c ≠ .queryStatus n) → s.power = .recovering → s.port.frameIgnored = false → s.port.snapshot = none →
    ∃ t, exec c s = .next t ∧ { t with port := s.port } = s ∧ t.port.outcome = .recovering ∧ t.port.armLatch = false
      ∧ t.port.resetEnable = false ∧ t.port.receipt = s.port.receipt ∧ t.port.frameState = .idle

/-- Every outcome other than DONE and LEDGER_HALTED is a refusal, and a refused frame changes nothing but the port, the notices
and the event latch (R12). -/
def Obligations.RefusedFramesChangeNothing : Prop :=
  ∀ (c : Instr) (bytes : List Byte) (s t : State), encodeFrame c = some bytes → (∀ n, c ≠ .queryStatus n) → Serving s →
    exec c s = .next t → t.port.outcome ≠ .done → t.port.outcome ≠ .ledgerHalted →
    { t with port := s.port, eventLatch := s.eventLatch, streams := s.streams } = s
      ∧ t.port.receipt = s.port.receipt
      ∧ ∀ i : StreamId, { t.streams[i] with notices := s.streams[i].notices } = s.streams[i]

/-- A frame of the wrong shape records FRAME_LENGTH, one with an unassigned code UNKNOWN_COMMAND; both raise FRAME_ERROR, clear
the two flags and touch nothing else, in ACTIVE and RECOVERING alike (R8, R10, R11). -/
def Obligations.MalformedFramesAreDiscarded : Prop :=
  ∀ (n : Nat) (s : State), s.power = .active ∨ s.power = .recovering → s.port.frameIgnored = false → s.port.snapshot = none →
    exec (.discardedFrame n) s
        = .next { s with port := s.framePort n .frameLength false false, eventLatch := s.eventLatch ||| 0x4000 }
      ∧ exec (.unknownCommand n) s
        = .next { s with port := s.framePort n .unknownCommand false false, eventLatch := s.eventLatch ||| 0x4000 }

/-- ARM leaves the arm latch set, DISARM leaves it clear, RESET ENABLE leaves the reset-enable flag set; each clears the other flag,
records DONE and changes nothing else (R19, R20). The reset-enable flag is clear after power-on and soft reset, and only RESET ENABLE
sets it. Every other processed frame leaves it clear, whatever it is and whatever its outcome, QUERY STATUS too, and all but QUERY
STATUS the arm latch; null frames, and frames ignored in DOZING and WAKING, leave both. Bit 5 of the status byte reports it (R20). -/
def Obligations.ArmDisarmAndResetEnable : Prop :=
  (∀ s : State, Serving s →
    exec .arm s = .next { s with port := s.framePort 1 .done true false }
      ∧ exec .disarm s = .next { s with port := s.framePort 1 .done false false }
      ∧ exec .resetEnable s = .next { s with port := s.framePort 1 .done false true })
    ∧ (∀ (c : Instr) (s : State), c.isFrame = true → s.power = .active ∨ s.power = .recovering →
      s.port.frameIgnored = false → s.port.snapshot = none →
      ∃ t, exec c s = .next t ∧ (c ≠ .resetEnable ∨ s.power = .recovering → t.port.resetEnable = false)
        ∧ ((∀ n, c ≠ .queryStatus n) → (c ≠ .arm ∨ s.power = .recovering) → t.port.armLatch = false))
    ∧ (∀ (c : Instr) (s t : State), exec c s = .next t → s.port.resetEnable = false → t.port.resetEnable = true →
      c = .resetEnable)
    ∧ (∀ (c : Instr) (s t : State), exec c s = .next t →
      (c = .nullFrame ∧ s.port.snapshot = none) ∨ c = .ignoredFrame
        ∨ (c.isFrame = true ∧ (s.power = .dozing ∨ s.power = .waking)) →
      t.port.resetEnable = s.port.resetEnable ∧ t.port.armLatch = s.port.armLatch)
    ∧ (∀ (s : State) (cut : Cut),
      (s.power = .off → ∃ t, exec .powerOn s = .next t ∧ t.port.resetEnable = false)
        ∧ (Serving s → ∃ t, exec (.reset cut) s = .next t ∧ t.port.resetEnable = false))
    ∧ State.reset.port.resetEnable = false
    ∧ ∀ s : State, s.power ≠ .recovering → s.statusByte.getLsbD 5 = s.port.resetEnable

/-- QUERY STATUS leaves the outcome register, the arm latch and the receipt, clears the reset-enable flag, raises nothing, and
shifts out the receipt, in ACTIVE and RECOVERING alike (R17). -/
def Obligations.QueryStatusIsTransparent : Prop :=
  ∀ (n : Nat) (s : State), s.power = .active ∨ s.power = .recovering → s.port.frameIgnored = false → s.port.snapshot = none →
    8 ≤ n → s.port.frameState = .idle →
    ∃ t, exec (.queryStatus n) s = .next t ∧ { t with port := s.port } = s ∧ t.port.outcome = s.port.outcome
      ∧ t.port.armLatch = s.port.armLatch ∧ t.port.receipt = s.port.receipt ∧ t.port.resetEnable = false
      ∧ t.port.sout = [s.statusByte, s.port.outcome.byte, 0] ++ receiptBytes s.port.receipt ++ List.replicate (n - 8) 0

/-- SEL falling clears the byte counter and captures the outcome byte and the status byte, bit by bit as R5 has it, and 40h during
recovery, and nothing outside the port changes (R1, R5, R6). -/
def Obligations.StatusCaptureAtSelFalling : Prop :=
  (∀ s : State, s.power = .active → s.port.frameState = .idle →
    ∃ t, exec .statusCapture s = .next t ∧ { t with port := s.port } = s ∧ t.port.frameState = .receivingCommand
      ∧ t.port.byteCounter = 0 ∧ t.port.outcomeByte = s.port.outcome.byte
      ∧ (t.port.statusByte.getLsbD 7 = true ↔ (∃ i : StreamId, s.streams[i].state = .faulted) ∨ s.ledger.halted = true)
      ∧ t.port.statusByte.getLsbD 6 = false
      ∧ t.port.statusByte.getLsbD 5 = s.port.resetEnable
      ∧ (t.port.statusByte.getLsbD 4 = true ↔ s.eventLatch &&& s.eventEnable ≠ 0)
      ∧ t.port.statusByte.getLsbD 3 = s.port.armLatch
      ∧ (t.port.statusByte.getLsbD 2 = true ↔ s.staging ≠ [])
      ∧ (t.port.statusByte.getLsbD 1 = true ↔ s.engine.state = .suspended)
      ∧ (t.port.statusByte.getLsbD 0 = true ↔ s.engine.state = .running ∨ s.engine.state = .suspendPending))
    ∧ ∀ s : State, s.power = .recovering → s.port.frameState = .idle →
      ∃ t, exec .statusCapture s = .next t ∧ { t with port := s.port } = s ∧ t.port.frameState = .receivingCommand
        ∧ t.port.byteCounter = 0 ∧ t.port.outcomeByte = s.port.outcome.byte ∧ t.port.statusByte = 0x40

/-- An output command's verdict is formed once (R9): it is fixed with its data as the state at that moment has them, RECOVERING during
recovery but for QUERY STATUS (R14), the frame goes on outputting, and nothing outside the port changes. A later VERDICT (log 1)
or job step leaves it. The frame's end then records it, shifts out what it fixed (R4), and changes nothing else but by the SEL-high
actions of FETCH and STREAM INFO (R9, R10, R12). Where no frame is served, VERDICT has no effect (log 1). -/
def Obligations.VerdictIsFixed : Prop :=
  (∀ (c : OutputCommand) (s : State), (s.power ≠ .active ∧ s.power ≠ .recovering) ∨ s.port.frameIgnored = true →
    exec (.verdict c) s = .next s)
  ∧ ∀ (c : OutputCommand) (s : State), s.power = .active ∨ s.power = .recovering → s.port.frameIgnored = false →
    (s.port.snapshot = none →
      ∃ t, exec (.verdict c) s = .next t ∧ { t with port := s.port } = s ∧ t.port.frameState = .outputting
        ∧ t.port.snapshot = some (s.snapshotOf c) ∧ t.port.byteCounter = c.argBytes + 1
        ∧ t.port.outcome = s.port.outcome ∧ t.port.armLatch = s.port.armLatch
        ∧ t.port.resetEnable = s.port.resetEnable ∧ t.port.receipt = s.port.receipt
        ∧ (s.port.frameState = .idle → t.port.statusByte = s.statusByte ∧ t.port.outcomeByte = s.port.outcome.byte)
        ∧ (s.port.frameState ≠ .idle →
          t.port.statusByte = s.port.statusByte ∧ t.port.outcomeByte = s.port.outcomeByte))
    ∧ ((s.snapshotOf c).command = c ∧ ((s.snapshotOf c).verdict ≠ .done → (s.snapshotOf c).data = [])
      ∧ (s.power = .recovering → c ≠ .queryStatus → (s.snapshotOf c).verdict = .recovering)
      ∧ (s.power = .recovering → c = .queryStatus → (s.snapshotOf c).verdict = .done))
    ∧ ∀ n : Snapshot, s.port.snapshot = some n →
      (∀ c' : OutputCommand, exec (.verdict c') s = .next s)
      ∧ (∀ (j : Instr) (t : State), j.jobStep = true ∨ j.formatStep = true → exec j s = .next t →
        t.port.snapshot = some n)
      ∧ (n.command = c → ∀ bytes : Nat, ∃ t, exec (c.row bytes) s = .next t ∧ t.port.sout = s.port.frameOutput bytes
        ∧ t.port.snapshot = none ∧ t.port.frameState = .idle ∧ t.port.byteCounter = bytes
        ∧ t.port.resetEnable = false ∧ t.port.receipt = s.port.receipt
        ∧ (c ≠ .queryStatus → t.port.outcome = n.verdict ∧ t.port.armLatch = false)
        ∧ (c = .queryStatus → t.port.outcome = s.port.outcome ∧ t.port.armLatch = s.port.armLatch)
        ∧ (n.verdict.isFrameError = false →
          n.verdict ≠ .done ∨ (∀ b f w k, c ≠ .fetch b f w k) ∧ (∀ b m, c ≠ .streamInfo b m) →
          { t with port := s.port } = s))

/-- READ EVENTS, DEVICE INFO, SEGMENT INFO, READ GUARD, VAULT READ, IDENTIFY and DESCRIPTOR change nothing beyond what R12 changes,
and answer DONE where their arguments are in range (R105, R106, R172, R180, R181, R184, R185). SEGMENT INFO is refused BAD_ARGUMENT
for an index of 512 or above (R105), VAULT READ for a page of 4 or an offset of 128 or above, and BUSY while a VAULT job runs
(R181). -/
def Obligations.InformationCommandsChangeNothing : Prop :=
  (∀ (c : Instr) (s : State), Serving s → c.wellFormed = true →
    (∃ n, c = .readEvents n ∨ c = .deviceInfo n ∨ c = .readGuard n ∨ c = .identify n ∨ c = .descriptor n
      ∨ (∃ k : Word16, k.toNat < 512 ∧ c = .segmentInfo k n)
      ∨ ∃ p o : Byte, p.toNat < 4 ∧ o.toNat < 128 ∧ s.engine.vaultRuns = false ∧ c = .vaultRead p o n) →
    ∃ t, exec c s = .next t ∧ { t with port := s.port } = s ∧ t.port.outcome = .done ∧ t.port.armLatch = false
      ∧ t.port.resetEnable = false ∧ t.port.receipt = s.port.receipt)
    ∧ ∀ (s : State) (n : Nat), Serving s → 3 ≤ n →
      (∀ k : Word16, 512 ≤ k.toNat → OutputRefuses (.segmentInfo k n) s n 3 .badArgument)
      ∧ ∀ p o : Byte, (4 ≤ p.toNat ∨ 128 ≤ o.toNat → OutputRefuses (.vaultRead p o n) s n 3 .badArgument)
        ∧ (p.toNat < 4 → o.toNat < 128 → s.engine.vaultRuns = true → OutputRefuses (.vaultRead p o n) s n 3 .busy)

/-- What the information commands shift out: READ EVENTS (R172) and READ GUARD (R180) byte by byte; the stream descriptor field by
field (R47); the segment descriptor of a data and of an anchor segment (R105); DEVICE INFO (R106); VAULT READ, which cycles through
its page (R181); IDENTIFY (R184) and DESCRIPTOR (R185). A field that is narrower than the number it shows holds its low bytes (log
22, log 27). -/
def Obligations.AnswersOfInformationCommands : Prop :=
  (∀ s : State, Serving s → s.port.frameState = .idle →
    (∃ t, exec (.readEvents 8) s = .next t ∧ t.port.sout = [s.statusByte, s.port.outcome.byte, 0,
        s.eventLatch.extractLsb' 8 8, s.eventLatch.extractLsb' 0 8, s.eventEnable.extractLsb' 8 8,
        s.eventEnable.extractLsb' 0 8, 0])
      ∧ (∃ t, exec (.readGuard 8) s = .next t ∧ t.port.sout = [s.statusByte, s.port.outcome.byte, 0,
        lockModeCode s.guard.working, s.guard.appendLocks, flagCode s.guard.formatInhibit, lockModeCode s.guard.anchored,
        lockBits s.vaultLocks])
      ∧ (∀ (b m : Byte) (i : StreamId), b.toNat = i.val →
        ∃ t d, exec (.streamInfo b m 70) s = .next t ∧ t.port.sout = [s.statusByte, s.port.outcome.byte, 0, 0] ++ d
          ∧ d = s.streamDescriptor i)
      ∧ (∀ k : Word16, k.toNat < 512 →
        ∃ t, exec (.segmentInfo k 32) s = .next t
          ∧ t.port.sout = [s.statusByte, s.port.outcome.byte, 0, 0] ++ s.segmentDescriptor k.toNat)
      ∧ (∃ t, exec (.deviceInfo 29) s = .next t ∧ t.port.sout = [s.statusByte, s.port.outcome.byte, 0] ++ s.deviceInfo)
      ∧ (∀ (b o : Byte) (p : Fin 4) (n : Nat), b.toNat = p.val → o.toNat < 128 → s.engine.vaultRuns = false → 3 ≤ n →
        ∃ t, exec (.vaultRead b o n) s = .next t ∧ t.port.sout.length = n
          ∧ ∀ (j : Nat) (q : Fin 128), 4 + j < n → (o.toNat + j) % 128 = q.val → t.port.sout[4 + j]? = some s.vault[p][q])
      ∧ (∃ t d, exec (.identify 15) s = .next t
        ∧ t.port.sout = [s.statusByte, s.port.outcome.byte, 0, 0xA7, 0x4C, 0x15, 0x01] ++ d
        ∧ d.length = 8 ∧ fieldAt d 0 8 = Config.uniqueId.toNat)
      ∧ ∃ t, exec (.descriptor 36) s = .next t ∧ t.port.sout = [s.statusByte, s.port.outcome.byte, 0,
          0x20, 0x01, 0x10, 0x00, 0x02, 0x00, 0x02, 0x0F, 0xE0, 0x08, 0x08, 0x00, 0x10, 0x04, 0x03, 0xF4, 0x10, 0x04, 0x80,
          0x10, 0x08, 0x01, 0xD4, 0xC0, 0x80, 0x0C, 0x04, 0x00, 0x00, 0x00, 0x00, 0x00, 0x00])
    ∧ (∀ (s : State) (i : StreamId), (s.streamDescriptor i).length = 66
      ∧ fieldAt (s.streamDescriptor i) 0 1 = i.val
      ∧ fieldAt (s.streamDescriptor i) 1 1
        = (match s.streams[i].state with | .idle => 0 | .opened => 1 | .sealed => 2 | .faulted => 3)
      ∧ fieldAt (s.streamDescriptor i) 2 1 = (match s.streams[i].policy with | .block => 0 | .wrap => 1)
      ∧ fieldAt (s.streamDescriptor i) 3 4 = s.streams[i].epoch % 2 ^ 32
      ∧ fieldAt (s.streamDescriptor i) 7 2 = s.streams[i].quota % 2 ^ 16
      ∧ fieldAt (s.streamDescriptor i) 9 2 = s.streams[i].highWater % 2 ^ 16
      ∧ fieldAt (s.streamDescriptor i) 11 2 = s.streams[i].backlog % 2 ^ 16
      ∧ fieldAt (s.streamDescriptor i) 13 4 = s.streams[i].nextSeq % 2 ^ 32
      ∧ fieldAt (s.streamDescriptor i) 17 4 = s.streams[i].lastCommitted % 2 ^ 32
      ∧ fieldAt (s.streamDescriptor i) 21 4 = s.streams[i].volatileFrontier % 2 ^ 32
      ∧ fieldAt (s.streamDescriptor i) 25 4 = s.streams[i].durableFrontier % 2 ^ 32
      ∧ fieldAt (s.streamDescriptor i) 29 4 = s.streams[i].cursor % 2 ^ 32
      ∧ fieldAt (s.streamDescriptor i) 33 4 = s.streams[i].unread % 2 ^ 32
      ∧ fieldAt (s.streamDescriptor i) 37 1 = s.streams[i].marks.length % 2 ^ 8
      ∧ (∀ j : Fin 4, fieldAt (s.streamDescriptor i) (38 + 4 * j.val) 4 = s.streams[i].marks.getD j.val 0 % 2 ^ 32)
      ∧ fieldAt (s.streamDescriptor i) 54 2 = s.streams[i].held % 2 ^ 16
      ∧ fieldAt (s.streamDescriptor i) 56 2 = s.streams[i].reserved % 2 ^ 16
      ∧ fieldAt (s.streamDescriptor i) 58 1 = s.stagedCount i % 2 ^ 8
      ∧ fieldAt (s.streamDescriptor i) 59 2 = s.streams[i].chain.length % 2 ^ 16
      ∧ fieldAt (s.streamDescriptor i) 61 1 = s.streams[i].notices.toNat
      ∧ fieldAt (s.streamDescriptor i) 62 4 = s.streams[i].overrun % 2 ^ 32)
    ∧ (∀ (s : State) (k : DataSeg), (s.segmentDescriptor (k.val + 2)).length = 28
      ∧ fieldAt (s.segmentDescriptor (k.val + 2)) 0 2 = k.val + 2
      ∧ fieldAt (s.segmentDescriptor (k.val + 2)) 2 1 = (match s.segments[k].location with
          | .pool => 0 | .chain => 1 | .release => 2 | .reclaim => 3 | .erasing => 4 | .retired => 5)
      ∧ fieldAt (s.segmentDescriptor (k.val + 2)) 3 1 = (match s.segments[k].header with
          | .free => 0 | .opened => 1 | .sealed => 2 | .retirePending => 3 | .retired => 4 | .invalid => 5 | .blank => 6)
      ∧ fieldAt (s.segmentDescriptor (k.val + 2)) 4 1 = (if s.segments[k].poisoned = true then 1 else 0)
      ∧ (∀ o : StreamId, s.segments[k].owner = some o → (s.segments[k].header = .opened ∨ s.segments[k].header = .sealed
            ∨ s.segments[k].header = .retirePending) →
          fieldAt (s.segmentDescriptor (k.val + 2)) 5 1 = o.val
          ∧ fieldAt (s.segmentDescriptor (k.val + 2)) 6 4 = s.segments[k].epoch % 2 ^ 32
          ∧ fieldAt (s.segmentDescriptor (k.val + 2)) 10 4 = s.segments[k].first % 2 ^ 32
          ∧ fieldAt (s.segmentDescriptor (k.val + 2)) 14 4 = s.segments[k].last % 2 ^ 32)
      ∧ (s.segments[k].header ≠ .opened → s.segments[k].header ≠ .sealed → s.segments[k].header ≠ .retirePending →
          fieldAt (s.segmentDescriptor (k.val + 2)) 5 1 = 0xFF ∧ fieldAt (s.segmentDescriptor (k.val + 2)) 6 12 = 0)
      ∧ (∀ x, s.segments[k].eraseCount = some x → fieldAt (s.segmentDescriptor (k.val + 2)) 18 3 = x % 2 ^ 24)
      ∧ (s.segments[k].eraseCount = none → fieldAt (s.segmentDescriptor (k.val + 2)) 18 3 = 0xFFFFFF)
      ∧ fieldAt (s.segmentDescriptor (k.val + 2)) 21 2 = s.segments[k].bytesUsed % 2 ^ 16
      ∧ (s.segments[k].release = none → fieldAt (s.segmentDescriptor (k.val + 2)) 23 5 = 0)
      ∧ (∀ q, s.segments[k].release = some (.frontier q) → fieldAt (s.segmentDescriptor (k.val + 2)) 23 1 = 1
          ∧ fieldAt (s.segmentDescriptor (k.val + 2)) 24 4 = q % 2 ^ 32)
      ∧ ∀ e, s.segments[k].release = some (.image e) → fieldAt (s.segmentDescriptor (k.val + 2)) 23 1 = 2
          ∧ fieldAt (s.segmentDescriptor (k.val + 2)) 24 4 = e % 2 ^ 32)
    ∧ (∀ (s : State) (a : AnchorSeg), (s.segmentDescriptor a.val).length = 28
      ∧ fieldAt (s.segmentDescriptor a.val) 0 2 = a.val ∧ fieldAt (s.segmentDescriptor a.val) 2 1 = 6
      ∧ fieldAt (s.segmentDescriptor a.val) 3 1 = 0xFF ∧ fieldAt (s.segmentDescriptor a.val) 5 1 = 0xFF
      ∧ fieldAt (s.segmentDescriptor a.val) 6 12 = 0
      ∧ fieldAt (s.segmentDescriptor a.val) 18 3 = s.ledger.anchorErases[a] % 2 ^ 24
      ∧ fieldAt (s.segmentDescriptor a.val) 23 5 = 0
      ∧ (s.ledger.current = some a → fieldAt (s.segmentDescriptor a.val) 4 1 = 2
          ∧ fieldAt (s.segmentDescriptor a.val) 21 2 = 32 * s.ledger.nextFree % 2 ^ 16)
      ∧ (s.ledger.current ≠ some a → fieldAt (s.segmentDescriptor a.val) 4 1 = 0
          ∧ fieldAt (s.segmentDescriptor a.val) 21 2 = 0))
    ∧ (∀ s : State, s.deviceInfo.length = 26
      ∧ fieldAt s.deviceInfo 0 2 = s.pool.length % 2 ^ 16
      ∧ (-(2 ^ 15 : Int) ≤ s.available → s.available < 2 ^ 15 →
          (BitVec.ofNat 16 (fieldAt s.deviceInfo 2 2)).toInt = s.available)
      ∧ fieldAt s.deviceInfo 4 2 = s.reclaim.length % 2 ^ 16
      ∧ fieldAt s.deviceInfo 6 2 = ((List.finRange 510).filter fun k => s.segments[k].location == .release).length
      ∧ fieldAt s.deviceInfo 8 2 = ((List.finRange 510).filter fun k => s.segments[k].location == .retired).length
      ∧ (∀ k : DataSeg, s.segments[k].location = .erasing → (∀ j : DataSeg, s.segments[j].location = .erasing → j = k) →
          fieldAt s.deviceInfo 10 2 = k.val + 2)
      ∧ ((∀ k : DataSeg, s.segments[k].location ≠ .erasing) → fieldAt s.deviceInfo 10 2 = 0xFFFF)
      ∧ fieldAt s.deviceInfo 12 1
        = (match s.engine.state with | .idle => 0 | .running => 1 | .suspendPending => 2 | .suspended => 3)
      ∧ fieldAt s.deviceInfo 13 1 = (match s.engine.job with
          | none => 0 | some (.ledger _) => 1 | some (.commit _) => 2 | some (.reclaim _ _) => 3 | some (.vault _) => 4
          | some (.format _ _) => 5)
      ∧ (∀ f : Byte, f.toNat = fieldAt s.deviceInfo 14 1 → f.getLsbD 0 = s.engine.preempted.isSome
          ∧ f.getLsbD 1 = s.engine.resumeLock ∧ f.getLsbD 2 = s.ledger.imageNeeded
          ∧ (f.getLsbD 3 = true ↔ ∃ i : StreamId, s.ledger.pendingNotes[i] = true)
          ∧ f.getLsbD 4 = s.sync.isSome ∧ f.getLsbD 5 = s.ledger.halted ∧ f.getLsbD 6 = false ∧ f.getLsbD 7 = false)
      ∧ (∀ a, s.ledger.current = some a → fieldAt s.deviceInfo 15 1 = a.val)
      ∧ fieldAt s.deviceInfo 16 1 = s.ledger.nextFree % 2 ^ 8
      ∧ fieldAt s.deviceInfo 17 4 = s.ledger.generation.toNat
      ∧ fieldAt s.deviceInfo 21 1 = s.lowWater % 2 ^ 8
      ∧ fieldAt s.deviceInfo 22 2 = (s.staging.map fun e => footprint e.payload.length).sum % 2 ^ 16
      ∧ fieldAt s.deviceInfo 24 1 = s.staging.length % 2 ^ 8
      ∧ fieldAt s.deviceInfo 25 1 = (s.streams.toList.map fun t => t.reserved).sum % 2 ^ 8)
    ∧ identityBytes.length = 12 ∧ descriptorBytes.length = 32

/-! ### Events (chapter 9) -/

/-- CLEAR EVENTS clears just the latch bits in its mask, and changes nothing else outside the port (R174). -/
def Obligations.ClearEventsResult : Prop :=
  ∀ (w : Word16) (s : State), Serving s →
    ∃ t, exec (.clearEvents w) s = .next t
      ∧ { t with eventLatch := s.eventLatch } = { s with port := s.framePort 3 .done false false }
      ∧ ∀ b : Nat, t.eventLatch.getLsbD b = (s.eventLatch.getLsbD b && !w.getLsbD b)

/-- SET EVENT ENABLE writes the whole enable, whatever the value and the engine state, records DONE and changes nothing else;
ALERT is low after it just where an event is both pending and enabled (R173). -/
def Obligations.SetEventEnableResult : Prop :=
  ∀ (w : Word16) (s : State), Serving s →
    ∃ t, exec (.setEventEnable w) s = .next t
      ∧ t = { s with port := s.framePort 3 .done false false, eventEnable := w }
      ∧ (t.alertLow = true ↔ ∃ b : Nat, s.eventLatch.getLsbD b = true ∧ w.getLsbD b = true)

/-! ### Streams (chapter 2) -/

/-- CONFIGURE STREAM on an IDLE, empty stream writes the four fields, sets its two sides against them, sets image-needed, and changes
nothing else but an IDLE engine, which starts the LEDGER job unless the ledger is halted (R39, R40, R111, R171). It is refused, in this
order, NOT_ARMED, NO_STREAM, BAD_ARGUMENT, GUARDED, and WRONG_STATE where the stream is not IDLE or not empty (R39). -/
def Obligations.ConfigureStreamResult : Prop :=
  (∀ (s : State) (b p : Byte) (q h l : Word16) (g : Bool) (i : StreamId) (pol : Policy), Serving s → s.engineSound = true →
    s.port.armLatch = true → b.toNat = i.val → (p = 0 ∧ pol = .block ∧ 1 ≤ q.toNat ∨ p = 1 ∧ pol = .wrap ∧ 2 ≤ q.toNat) →
    q.toNat ≤ 510 → 1 ≤ h.toNat → h.toNat ≤ q.toNat → s.guard.permits g → s.streams[i].state = .idle →
    (∀ e ∈ s.staging, e.stream ≠ i) → s.streams[i].lastCommitted = s.streams[i].volatileFrontier →
    ∃ t, exec (.configureStream b p q h l g) s = .next t ∧ { t with engine := s.engine } = { s with
      port := s.framePort 9 s.changeOutcome false false
      ledger := { s.ledger with imageNeeded := true }
      streams := s.streams.set i.val { s.streams[i] with
        policy := pol, quota := q.toNat, highWater := h.toNat, backlog := l.toNat
        heldAtOrAbove := decide (h.toNat ≤ s.streams[i].held), unreadAbove := decide (l.toNat < s.streams[i].unread) } }
      ∧ s.LedgerWoken t)
    ∧ ∀ (s : State) (b p : Byte) (q h l : Word16) (g : Bool), Serving s →
      (s.port.armLatch = false → Refuses (.configureStream b p q h l g) s 9 .notArmed)
      ∧ (s.port.armLatch = true → 8 ≤ b.toNat → Refuses (.configureStream b p q h l g) s 9 .noStream)
      ∧ (s.port.armLatch = true → b.toNat < 8 → ¬ ConfigLegal p q h →
        Refuses (.configureStream b p q h l g) s 9 .badArgument)
      ∧ (s.port.armLatch = true → b.toNat < 8 → ConfigLegal p q h → ¬ s.guard.permits g →
        Refuses (.configureStream b p q h l g) s 9 .guarded)
      ∧ ∀ i : StreamId, s.port.armLatch = true → b.toNat = i.val → ConfigLegal p q h → s.guard.permits g →
        (s.streams[i].state ≠ .idle ∨ (∃ e ∈ s.staging, e.stream = i)
          ∨ s.streams[i].lastCommitted ≠ s.streams[i].volatileFrontier) →
        Refuses (.configureStream b p q h l g) s 9 .wrongState

/-- OPEN STREAM takes an IDLE stream to OPEN, CLOSE STREAM an OPEN or FAULTED one to IDLE; both set image-needed and change nothing
else but an IDLE engine, which starts the LEDGER job unless the ledger is halted (R31 to R33, R109, R111). Each is
refused, in this order, NOT_ARMED, NO_STREAM, GUARDED, and WRONG_STATE in the other states (R32, R33). -/
def Obligations.OpenAndCloseStream : Prop :=
  (∀ (s : State) (b : Byte) (g : Bool) (i : StreamId), Serving s → s.engineSound = true → s.port.armLatch = true →
    b.toNat = i.val → s.guard.permits g →
    (s.streams[i].state = .idle → ∃ t, exec (.openStream b g) s = .next t ∧ { t with engine := s.engine } = { s with
        port := s.framePort 2 s.changeOutcome false false
        ledger := { s.ledger with imageNeeded := true }
        streams := s.streams.set i.val { s.streams[i] with state := .opened } }
      ∧ s.LedgerWoken t)
    ∧ (s.streams[i].state = .opened ∨ s.streams[i].state = .faulted →
      ∃ t, exec (.closeStream b g) s = .next t ∧ { t with engine := s.engine } = { s with
        port := s.framePort 2 s.changeOutcome false false
        ledger := { s.ledger with imageNeeded := true }
        streams := s.streams.set i.val { s.streams[i] with state := .idle } }
      ∧ s.LedgerWoken t)
    ∧ (s.streams[i].state ≠ .idle → Refuses (.openStream b g) s 2 .wrongState)
    ∧ (s.streams[i].state ≠ .opened → s.streams[i].state ≠ .faulted → Refuses (.closeStream b g) s 2 .wrongState))
    ∧ ∀ (s : State) (b : Byte) (g : Bool) (c : Instr), Serving s → c = .openStream b g ∨ c = .closeStream b g →
      (s.port.armLatch = false → Refuses c s 2 .notArmed)
      ∧ (s.port.armLatch = true → 8 ≤ b.toNat → Refuses c s 2 .noStream)
      ∧ (s.port.armLatch = true → b.toNat < 8 → ¬ s.guard.permits g → Refuses c s 2 .guarded)

/-- RESET STREAM: the record starts a new epoch, the staged entries go, the chain joins the release list to wait for the image with the
new epoch, image-needed is set and a pending note cancelled; other streams and the array stay (R42 to R44). The sync point's staged
items of the stream are satisfied, its frontier item waits for that image (R44, R66, R67), and the pool side is evaluated (R171). A
segment or an item that waits for the image of an earlier reset waits for the newer epoch's instead: log 18, the model's choice. Where
no item of the sync point is left SYNC_DONE is raised in this frame: log 35, the model's reading. An IDLE engine starts the LEDGER job
unless the ledger is halted (R111); a LEDGER job that had chosen the cancelled note chooses again (log 16, the model's reading), any
other job goes on. It is refused, in this order, NOT_ARMED, NO_STREAM, GUARDED, BUSY, WRONG_STATE (R42). -/
def Obligations.ResetStreamResult : Prop :=
  (∀ (s : State) (b : Byte) (g : Bool) (i : StreamId), Serving s → s.engineSound = true → s.port.armLatch = true →
    b.toNat = i.val → s.guard.permits g → s.engine.holdsCommit = false → s.streams[i].epoch ≠ Config.max32 →
    ∃ t, exec (.resetStream b g) s = .next t
      ∧ t.port = s.framePort 2 s.changeOutcome false false
      ∧ t.streams[i] = { s.streams[i] with
          state := .idle, epoch := s.streams[i].epoch + 1, nextSeq := 1, lastCommitted := 0, volatileFrontier := 0
          durableFrontier := 0, cursor := 1, marks := [], chain := [], reserved := 0, notices := 0, overrun := 0
          heldAtOrAbove := decide (s.streams[i].highWater ≤ 0), unreadAbove := false }
      ∧ (∀ j : StreamId, j ≠ i → t.streams[j] = s.streams[j])
      ∧ t.staging = s.staging.filter (fun e => e.stream != i)
      ∧ (∀ k : DataSeg, k ∈ s.streams[i].chain → t.segments[k]
          = { s.segments[k] with location := .release, release := some (.image (s.streams[i].epoch + 1)) })
      ∧ (∀ k : DataSeg, k ∉ s.streams[i].chain → s.segments[k].location = .release → s.segments[k].owner = some i →
          t.segments[k] = { s.segments[k] with release := some (.image (s.streams[i].epoch + 1)) })
      ∧ (∀ k : DataSeg, k ∉ s.streams[i].chain → (s.segments[k].location ≠ .release ∨ s.segments[k].owner ≠ some i) →
          t.segments[k] = s.segments[k])
      ∧ t.ledger = { s.ledger with imageNeeded := true, pendingNotes := s.ledger.pendingNotes.set i.val false }
      ∧ s.SyncLeft t (fun items => (items.filter fun x => !x.isStagedOf i).map (SyncItem.rewait i (s.streams[i].epoch + 1)))
      ∧ s.PoolEvaluated t
      ∧ (∀ n : Nat, n ≠ 0 → n ≠ 5 → t.eventLatch.getLsbD n = s.eventLatch.getLsbD n)
      ∧ (s.engine.job ≠ some (.ledger (.note i)) → s.LedgerWoken t)
      ∧ (s.engine.job = some (.ledger (.note i)) →
        ∃ w, t.ledger.choose = some w ∧ t.engine = { s.engine with job := some (.ledger w) })
      ∧ t.pool = s.pool ∧ t.reclaim = s.reclaim ∧ t.array = s.array ∧ t.guard = s.guard ∧ t.power = s.power
      ∧ t.lowWater = s.lowWater ∧ t.eventEnable = s.eventEnable)
    ∧ (∀ (i j : StreamId) (e f q : Nat), (SyncItem.staged j f q).isStagedOf i = (j == i)
      ∧ (SyncItem.frontier j f q).isStagedOf i = false
      ∧ SyncItem.rewait i e (.frontier i f q) = .epochImage i e ∧ (j ≠ i → SyncItem.rewait i e (.frontier j f q) = .frontier j f q)
      ∧ (j ≠ i → SyncItem.rewait i e (.epochImage j f) = .epochImage j f)
      ∧ SyncItem.rewait i e (.staged j f q) = .staged j f q ∧ SyncItem.rewait i e .nextImage = .nextImage
      ∧ SyncItem.rewait i e .currentImage = .currentImage)
    ∧ ∀ (s : State) (b : Byte) (g : Bool), Serving s →
      (s.port.armLatch = false → Refuses (.resetStream b g) s 2 .notArmed)
      ∧ (s.port.armLatch = true → 8 ≤ b.toNat → Refuses (.resetStream b g) s 2 .noStream)
      ∧ (s.port.armLatch = true → b.toNat < 8 → ¬ s.guard.permits g → Refuses (.resetStream b g) s 2 .guarded)
      ∧ (s.port.armLatch = true → b.toNat < 8 → s.guard.permits g → s.engine.state ≠ .idle →
        (∃ c, s.engine.job = some (.commit c)) → Refuses (.resetStream b g) s 2 .busy)
      ∧ ∀ i : StreamId, s.port.armLatch = true → b.toNat = i.val → s.guard.permits g →
        (s.engine.state = .idle ∨ ∀ c, s.engine.job ≠ some (.commit c)) → s.streams[i].epoch = 0xFFFFFFFF →
        Refuses (.resetStream b g) s 2 .wrongState

/-- STREAM INFO clears the notices that its mask names and its descriptor showed where the 66 bytes up to the notices byte are out,
and changes nothing else outside the port (R46, R48). Where its verdict was formed earlier in the frame, a notice set since then
stays (R48). It is refused NO_STREAM alone (R46). -/
def Obligations.StreamInfoClearsShownNotices : Prop :=
  (∀ (s : State) (b m : Byte) (n : Nat) (i : StreamId), Serving s → b.toNat = i.val → 3 ≤ n →
    ∃ t, exec (.streamInfo b m n) s = .next t ∧ t.port.outcome = .done ∧ t.port.armLatch = false
      ∧ t.port.resetEnable = false ∧ t.port.receipt = s.port.receipt
      ∧ (66 ≤ n → { t with port := s.port } = { s with
          streams := s.streams.set i.val { s.streams[i] with notices := s.streams[i].notices &&& ~~~m } })
      ∧ (n < 66 → { t with port := s.port } = s))
    ∧ (∀ (s : State) (b m : Byte) (i : StreamId), s.power = .active → b.toNat = i.val →
      (s.snapshotOf (.streamInfo b m)).verdict = .done
        ∧ (s.snapshotOf (.streamInfo b m)).data = s.streamDescriptor i
        ∧ (s.snapshotOf (.streamInfo b m)).notices = s.streams[i].notices)
    ∧ (∀ (s : State) (b m : Byte) (n : Nat) (i : StreamId) (v : Snapshot), s.power = .active →
      s.port.frameIgnored = false → s.port.snapshot = some v → v.command = .streamInfo b m → v.verdict = .done →
      b.toNat = i.val →
      ∃ t, exec (.streamInfo b m n) s = .next t ∧ t.port.outcome = .done ∧ t.port.armLatch = false
        ∧ t.port.resetEnable = false ∧ t.port.receipt = s.port.receipt
        ∧ (66 ≤ n → { t with port := s.port } = { s with
          streams := s.streams.set i.val { s.streams[i] with
            notices := s.streams[i].notices &&& ~~~(m &&& v.notices) } })
        ∧ (n < 66 → { t with port := s.port } = s))
    ∧ ∀ (s : State) (b m : Byte) (n : Nat), Serving s → 8 ≤ b.toNat → 3 ≤ n →
      OutputRefuses (.streamInfo b m n) s n 3 .noStream

/-! ### The store (chapter 5) and the guard (chapter 10) -/

/-- DEVICE CONFIG writes the pool low-water, sets the pool side against it and image-needed, and changes nothing else but an IDLE
engine, which starts the LEDGER job unless the ledger is halted (R107, R111, R171). It is refused, in this order, NOT_ARMED,
BAD_ARGUMENT, GUARDED, and BUSY while a FORMAT job runs (R107). -/
def Obligations.DeviceConfigResult : Prop :=
  (∀ (s : State) (w : Byte) (g : Bool), Serving s → s.engineSound = true → s.port.armLatch = true → 1 ≤ w.toNat →
    w.toNat ≤ 64 → s.guard.permits g → s.engine.formatRuns = false →
    ∃ t, exec (.deviceConfig w g) s = .next t ∧ { t with engine := s.engine } = { s with
      port := s.framePort 2 s.changeOutcome false false
      lowWater := w.toNat
      poolBelow := decide (s.available < (w.toNat : Int))
      ledger := { s.ledger with imageNeeded := true } } ∧ s.LedgerWoken t)
    ∧ ∀ (s : State) (w : Byte) (g : Bool), Serving s →
      (s.port.armLatch = false → Refuses (.deviceConfig w g) s 2 .notArmed)
      ∧ (s.port.armLatch = true → w.toNat = 0 ∨ 64 < w.toNat → Refuses (.deviceConfig w g) s 2 .badArgument)
      ∧ (s.port.armLatch = true → 1 ≤ w.toNat → w.toNat ≤ 64 → ¬ s.guard.permits g → Refuses (.deviceConfig w g) s 2 .guarded)
      ∧ (s.port.armLatch = true → 1 ≤ w.toNat → w.toNat ≤ 64 → s.guard.permits g → s.engine.formatRuns = true →
        Refuses (.deviceConfig w g) s 2 .busy)

/-- WRITE GUARD: the written values take effect, SESSION only in the working copy, and image-needed is set just where the
anchored guard has changed; there an IDLE engine starts the LEDGER job unless the ledger is halted, and nothing else changes (R111,
R178). It is refused, in this order, NOT_ARMED, BAD_ARGUMENT for a lock mode above 03h or a format
inhibit above 01h, and GUARDED (R178). -/
def Obligations.WriteGuardResult : Prop :=
  (∀ (s : State) (m l f : Byte) (g : Bool) (mode : LockMode), Serving s → s.engineSound = true → s.port.armLatch = true →
    lockModeCode mode = m → (f = 0 ∨ f = 1) → s.guard.permits g →
    ∃ t, exec (.writeGuard m l f g) s = .next t
      ∧ t.guard = { working := mode, anchored := if mode = .session then s.guard.anchored else mode, appendLocks := l
                    formatInhibit := f == 1 }
      ∧ ((t.guard.anchored = s.guard.anchored ∧ t.guard.appendLocks = s.guard.appendLocks
            ∧ t.guard.formatInhibit = s.guard.formatInhibit) →
          t = { s with port := s.framePort 4 .done false false, guard := t.guard })
      ∧ ((t.guard.anchored ≠ s.guard.anchored ∨ t.guard.appendLocks ≠ s.guard.appendLocks
            ∨ t.guard.formatInhibit ≠ s.guard.formatInhibit) →
          { t with engine := s.engine } = { s with
            port := s.framePort 4 s.changeOutcome false false
            guard := t.guard
            ledger := { s.ledger with imageNeeded := true } } ∧ s.LedgerWoken t))
    ∧ ∀ (s : State) (m l f : Byte) (g : Bool), Serving s →
      (s.port.armLatch = false → Refuses (.writeGuard m l f g) s 4 .notArmed)
      ∧ (s.port.armLatch = true → 4 ≤ m.toNat ∨ 2 ≤ f.toNat → Refuses (.writeGuard m l f g) s 4 .badArgument)
      ∧ (s.port.armLatch = true → m.toNat < 4 → f.toNat < 2 → ¬ s.guard.permits g →
        Refuses (.writeGuard m l f g) s 4 .guarded)

/-- VAULT WRITE, VAULT ERASE and VAULT LOCK on an IDLE engine and an unlocked page start the VAULT job and change nothing else
(R113, R182). Each is refused, in this order, NOT_ARMED, BAD_ARGUMENT, BUSY unless the engine is IDLE, and VAULT_LOCKED (R182); a
VAULT WRITE frame of another length than its length field says is discarded (R7, R8). -/
def Obligations.VaultCommandsStartTheirJob : Prop :=
  (∀ (s : State) (b o n : Byte) (data : List Byte) (p : Fin 4), Serving s → s.port.armLatch = true → b.toNat = p.val →
    s.engine.state = .idle → s.vaultLocks[p] = false →
    (1 ≤ n.toNat → o.toNat + n.toNat ≤ 128 → data.length = n.toNat →
        exec (.vaultWrite b o n data) s = .next { s with
          port := s.framePort (4 + data.length) .done false false
          engine := { s.engine with state := .running, job := some (.vault (.write p o.toNat data)) } })
      ∧ exec (.vaultErase b) s = .next { s with
          port := s.framePort 2 .done false false
          engine := { s.engine with state := .running, job := some (.vault (.erase p 0)) } }
      ∧ exec (.vaultLock b) s = .next { s with
          port := s.framePort 2 .done false false
          engine := { s.engine with state := .running, job := some (.vault (.lock p)) } })
    ∧ (∀ (s : State) (b o n : Byte) (data : List Byte), Serving s →
      (data.length ≠ n.toNat → exec (.vaultWrite b o n data) s = .next { s with
        port := s.framePort (4 + data.length) .frameLength false false, eventLatch := s.eventLatch ||| 0x4000 })
      ∧ (data.length = n.toNat → s.port.armLatch = false → Refuses (.vaultWrite b o n data) s (4 + data.length) .notArmed)
      ∧ (data.length = n.toNat → s.port.armLatch = true →
        4 ≤ b.toNat ∨ 128 ≤ o.toNat ∨ n.toNat = 0 ∨ 128 < n.toNat ∨ 128 < o.toNat + n.toNat →
        Refuses (.vaultWrite b o n data) s (4 + data.length) .badArgument)
      ∧ (data.length = n.toNat → s.port.armLatch = true → b.toNat < 4 → 1 ≤ n.toNat → o.toNat + n.toNat ≤ 128 →
        s.engine.state ≠ .idle → Refuses (.vaultWrite b o n data) s (4 + data.length) .busy)
      ∧ ∀ p : Fin 4, data.length = n.toNat → s.port.armLatch = true → b.toNat = p.val → 1 ≤ n.toNat →
        o.toNat + n.toNat ≤ 128 → s.engine.state = .idle → s.vaultLocks[p] = true →
        Refuses (.vaultWrite b o n data) s (4 + data.length) .vaultLocked)
    ∧ ∀ (s : State) (b : Byte) (c : Instr), Serving s → c = .vaultErase b ∨ c = .vaultLock b →
      (s.port.armLatch = false → Refuses c s 2 .notArmed)
      ∧ (s.port.armLatch = true → 4 ≤ b.toNat → Refuses c s 2 .badArgument)
      ∧ (s.port.armLatch = true → b.toNat < 4 → s.engine.state ≠ .idle → Refuses c s 2 .busy)
      ∧ ∀ p : Fin 4, s.port.armLatch = true → b.toNat = p.val → s.engine.state = .idle → s.vaultLocks[p] = true →
        Refuses c s 2 .vaultLocked

/-! ### Appending (chapter 3) -/

/-- An APPEND whose footprint fits the projected free bytes is staged with the stream's next sequence and the placement current
segment; the receipt names it, and nothing else changes but the engine (R50, R54, R58). A frame of another length than its length
field says is discarded (R49); before placement APPEND is refused, in this order, NO_STREAM, BAD_ARGUMENT, GUARDED by the append lock
alone, BUSY while a FORMAT job runs, WRONG_STATE unless the stream is OPEN, and STAGE_FULL, without notice or event (R50, R177). -/
def Obligations.AppendIntoCurrentSegment : Prop :=
  (∀ (s : State) (b tag : Byte) (l : Word16) (payload : List Byte) (i : StreamId) (free : Nat), Serving s →
    s.engineSound = true → b.toNat = i.val → payload.length = l.toNat → 1 ≤ l.toNat → l.toNat ≤ 1012 →
    s.guard.appendLocks.getLsbD i.val = false → s.engine.formatRuns = false → s.streams[i].state = .opened →
    footprint l.toNat ≤ s.freeStaging → s.staging.length < 16 → s.projectedFree i = some free → footprint l.toNat ≤ free →
    s.streams[i].nextSeq ≠ 0xFFFFFFFE →
    ∃ t, exec (.append b tag l payload) s = .next t ∧ { t with engine := s.engine } = { s with
        port := { s.framePort (5 + payload.length) .done false false with receipt := some (i, s.streams[i].nextSeq) }
        streams := s.streams.set i.val { s.streams[i] with nextSeq := s.streams[i].nextSeq + 1 }
        staging := s.staging ++ [{ stream := i, seq := s.streams[i].nextSeq, tag := tag, payload := payload
                                   placement := .current }] }
      ∧ (s.engine.state = .idle → t.engine.state = .running ∧ t.engine.job = some (.commit .record))
      ∧ (s.engine.state ≠ .idle → t.engine = s.engine))
    ∧ ∀ (s : State) (b tag : Byte) (l : Word16) (payload : List Byte), Serving s →
      (payload.length ≠ l.toNat → exec (.append b tag l payload) s = .next { s with
        port := s.framePort (5 + payload.length) .frameLength false false, eventLatch := s.eventLatch ||| 0x4000 })
      ∧ (payload.length = l.toNat → 8 ≤ b.toNat → Refuses (.append b tag l payload) s (5 + payload.length) .noStream)
      ∧ ∀ i : StreamId, payload.length = l.toNat → b.toNat = i.val →
        (l.toNat = 0 ∨ 1012 < l.toNat → Refuses (.append b tag l payload) s (5 + payload.length) .badArgument)
        ∧ (1 ≤ l.toNat → l.toNat ≤ 1012 → s.guard.appendLocks.getLsbD i.val = true →
          Refuses (.append b tag l payload) s (5 + payload.length) .guarded)
        ∧ (1 ≤ l.toNat → l.toNat ≤ 1012 → s.guard.appendLocks.getLsbD i.val = false → s.engine.formatRuns = true →
          Refuses (.append b tag l payload) s (5 + payload.length) .busy)
        ∧ (1 ≤ l.toNat → l.toNat ≤ 1012 → s.guard.appendLocks.getLsbD i.val = false → s.engine.formatRuns = false →
          s.streams[i].state ≠ .opened → Refuses (.append b tag l payload) s (5 + payload.length) .wrongState)
        ∧ (1 ≤ l.toNat → l.toNat ≤ 1012 → s.guard.appendLocks.getLsbD i.val = false → s.engine.formatRuns = false →
          s.streams[i].state = .opened → s.freeStaging < footprint l.toNat ∨ 16 ≤ s.staging.length →
          Refuses (.append b tag l payload) s (5 + payload.length) .stageFull)

/-- An APPEND that needs a new segment, below its quota and with a segment available, is staged with the placement new segment
and takes a reservation: held rises and available falls by 1, and the held side and the pool side are evaluated (R55, R57, R58, R63,
R168, R170). At its quota a BLOCK stream is refused QUOTA_FULL with the QUOTA_HIT notice and event; without an available segment
below the quota APPEND is refused POOL_EMPTY with that event alone (R50, R55, R57). -/
def Obligations.AppendIntoNewSegment : Prop :=
  ∀ (s : State) (b tag : Byte) (l : Word16) (payload : List Byte) (i : StreamId), Serving s →
    b.toNat = i.val → payload.length = l.toNat → 1 ≤ l.toNat → l.toNat ≤ 1012 →
    s.guard.appendLocks.getLsbD i.val = false → s.engine.formatRuns = false → s.streams[i].state = .opened →
    footprint l.toNat ≤ s.freeStaging → s.staging.length < 16 →
    (∀ free, s.projectedFree i = some free → free < footprint l.toNat) →
    (s.engineSound = true → s.streams[i].held < s.streams[i].quota → 1 ≤ s.available → s.streams[i].nextSeq ≠ 0xFFFFFFFE →
    ∃ t, exec (.append b tag l payload) s = .next t ∧ t.port.outcome = .done
      ∧ t.port.receipt = some (i, s.streams[i].nextSeq)
      ∧ t.staging = s.staging ++ [{ stream := i, seq := s.streams[i].nextSeq, tag := tag, payload := payload
                                    placement := .new }]
      ∧ t.streams[i].reserved = s.streams[i].reserved + 1 ∧ t.streams[i].nextSeq = s.streams[i].nextSeq + 1
      ∧ t.streams[i].held = s.streams[i].held + 1 ∧ t.available = s.available - 1
      ∧ t.streams[i].chain = s.streams[i].chain ∧ t.streams[i].cursor = s.streams[i].cursor
      ∧ t.streams[i].volatileFrontier = s.streams[i].volatileFrontier
      ∧ s.HeldEvaluated t i ∧ s.UnreadKept t i ∧ s.PoolEvaluated t
      ∧ (∀ n : Nat, n ≠ 1 → n ≠ 5 → t.eventLatch.getLsbD n = s.eventLatch.getLsbD n)
      ∧ (s.engine.state = .idle → t.engine.state = .running ∧ t.CommitDecided)
      ∧ (s.engine.state ≠ .idle → t.engine = s.engine)
      ∧ (∀ j : StreamId, j ≠ i → t.streams[j] = s.streams[j])
      ∧ t.segments = s.segments ∧ t.pool = s.pool ∧ t.reclaim = s.reclaim ∧ t.ledger = s.ledger ∧ t.array = s.array
      ∧ t.guard = s.guard)
    ∧ (s.streams[i].quota ≤ s.streams[i].held → s.streams[i].policy = .block →
      exec (.append b tag l payload) s = .next { s with
        port := s.framePort (5 + payload.length) .quotaFull false false
        streams := s.streams.set i.val { s.streams[i] with notices := s.streams[i].notices ||| 0x04 }
        eventLatch := s.eventLatch ||| 0x0008 })
    ∧ (s.streams[i].held < s.streams[i].quota → s.available < 1 →
      exec (.append b tag l payload) s = .next { s with
        port := s.framePort (5 + payload.length) .poolEmpty false false, eventLatch := s.eventLatch ||| 0x0040 })

/-- An APPEND to a WRAP stream at its quota drops the oldest closed segment: it joins the release list, frontier, cursor and
overrun count advance as R59 has it, a note is pending, and held is unchanged (R56, R58, R59). The record takes a reservation and the
next sequence and is staged at the tail with the placement new segment; an IDLE engine selects, any other goes on (R58). The held
side and the pool side are evaluated, the unread side where the cursor has moved (R168 to R170). Without a drop candidate APPEND is
refused QUOTA_FULL with the notice and the event (R56), with one but no available segment POOL_EMPTY, and nothing is dropped (R57). -/
def Obligations.WrapDropAtAcceptance : Prop :=
  ∀ (s : State) (b tag : Byte) (l : Word16) (payload : List Byte) (i : StreamId), Serving s →
    b.toNat = i.val → payload.length = l.toNat → 1 ≤ l.toNat → l.toNat ≤ 1012 →
    s.guard.appendLocks.getLsbD i.val = false → s.engine.formatRuns = false → s.streams[i].state = .opened →
    footprint l.toNat ≤ s.freeStaging → s.staging.length < 16 →
    (∀ free, s.projectedFree i = some free → free < footprint l.toNat) → s.streams[i].policy = .wrap →
    s.streams[i].quota ≤ s.streams[i].held →
    (∀ d : DataSeg, s.engineSound = true → s.dropCandidate i = some d → 1 ≤ s.available → s.streams[i].nextSeq ≠ 0xFFFFFFFE →
    ∃ t, exec (.append b tag l payload) s = .next t ∧ t.port.outcome = .done
      ∧ t.port.receipt = some (i, s.streams[i].nextSeq)
      ∧ t.segments[d] = { s.segments[d] with location := .release, release := some (.frontier s.segments[d].last) }
      ∧ (∀ k : DataSeg, k ≠ d → t.segments[k] = s.segments[k])
      ∧ s.streams[i].chain = d :: t.streams[i].chain
      ∧ t.streams[i].volatileFrontier = max s.streams[i].volatileFrontier s.segments[d].last
      ∧ t.streams[i].cursor = max s.streams[i].cursor (t.streams[i].volatileFrontier + 1)
      ∧ t.streams[i].overrun = min 0xFFFFFFFF (s.streams[i].overrun
          + (s.segments[d].last - max s.streams[i].volatileFrontier (s.segments[d].first - 1)))
      ∧ (max s.streams[i].volatileFrontier (s.segments[d].first - 1) < s.segments[d].last →
          t.eventLatch.getLsbD 4 = true ∧ t.streams[i].notices.getLsbD 3 = true)
      ∧ (s.segments[d].last ≤ max s.streams[i].volatileFrontier (s.segments[d].first - 1) →
          t.eventLatch.getLsbD 4 = s.eventLatch.getLsbD 4
            ∧ t.streams[i].notices.getLsbD 3 = s.streams[i].notices.getLsbD 3)
      ∧ t.ledger = { s.ledger with pendingNotes := s.ledger.pendingNotes.set i.val true }
      ∧ t.streams[i].held = s.streams[i].held ∧ t.available = s.available - 1
      ∧ t.staging = s.staging ++ [{ stream := i, seq := s.streams[i].nextSeq, tag := tag, payload := payload
                                    placement := .new }]
      ∧ t.streams[i].nextSeq = s.streams[i].nextSeq + 1 ∧ t.streams[i].reserved = s.streams[i].reserved + 1
      ∧ t.streams[i].state = .opened
      ∧ (s.engine.state = .idle → t.engine.state = .running ∧ t.Selected s.engine.preempted)
      ∧ (s.engine.state ≠ .idle → t.engine = s.engine)
      ∧ s.HeldEvaluated t i ∧ s.PoolEvaluated t
      ∧ (t.streams[i].cursor ≠ s.streams[i].cursor → s.UnreadEvaluated t i)
      ∧ (t.streams[i].cursor = s.streams[i].cursor → s.UnreadKept t i)
      ∧ t.streams[i].lastCommitted = s.streams[i].lastCommitted
      ∧ t.streams[i].durableFrontier = s.streams[i].durableFrontier ∧ t.streams[i].marks = s.streams[i].marks
      ∧ (∀ j : StreamId, j ≠ i → t.streams[j] = s.streams[j]) ∧ t.pool = s.pool ∧ t.array = s.array)
    ∧ (s.dropCandidate i = none → exec (.append b tag l payload) s = .next { s with
        port := s.framePort (5 + payload.length) .quotaFull false false
        streams := s.streams.set i.val { s.streams[i] with notices := s.streams[i].notices ||| 0x04 }
        eventLatch := s.eventLatch ||| 0x0008 })
    ∧ (s.dropCandidate i ≠ none → s.available < 1 → exec (.append b tag l payload) s = .next { s with
        port := s.framePort (5 + payload.length) .poolEmpty false false, eventLatch := s.eventLatch ||| 0x0040 })

/-- The APPEND that is assigned the last sequence is accepted as any other: where it fits the current segment, or where it needs a new
one and may take it, with a drop or without, it is staged with that sequence and its placement, the receipt names it, and the engine
selects where it is IDLE (R36, R54 to R58). In the same action its stream becomes SEALED with the next sequence FFFFFFFFh,
image-needed is set, and SEQUENCE_END is raised with its notice (R36); so whenever such an APPEND records DONE. -/
def Obligations.LastSequenceSealsTheStream : Prop :=
  (∀ (s : State) (b tag : Byte) (l : Word16) (payload : List Byte) (i : StreamId) (p : Placement), Serving s →
    s.engineSound = true → b.toNat = i.val → payload.length = l.toNat → 1 ≤ l.toNat → l.toNat ≤ 1012 →
    s.guard.appendLocks.getLsbD i.val = false → s.engine.formatRuns = false → s.streams[i].state = .opened →
    footprint l.toNat ≤ s.freeStaging → s.staging.length < 16 → s.streams[i].nextSeq = 0xFFFFFFFE →
    (p = .current ∧ ∃ free, s.projectedFree i = some free ∧ footprint l.toNat ≤ free)
      ∨ (p = .new ∧ (∀ free, s.projectedFree i = some free → free < footprint l.toNat) ∧ 1 ≤ s.available
        ∧ (s.streams[i].held < s.streams[i].quota ∨ (s.streams[i].policy = .wrap ∧ s.dropCandidate i ≠ none))) →
    ∃ t, exec (.append b tag l payload) s = .next t ∧ t.port.outcome = .done ∧ t.port.receipt = some (i, 0xFFFFFFFE)
      ∧ t.staging = s.staging ++ [{ stream := i, seq := 0xFFFFFFFE, tag := tag, payload := payload, placement := p }]
      ∧ t.streams[i].state = .sealed ∧ t.streams[i].nextSeq = 0xFFFFFFFF ∧ t.ledger.imageNeeded = true
      ∧ t.streams[i].notices.getLsbD 5 = true ∧ t.eventLatch.getLsbD 10 = true
      ∧ t.streams[i].reserved = (if p = .new then s.streams[i].reserved + 1 else s.streams[i].reserved)
      ∧ t.streams[i].lastCommitted = s.streams[i].lastCommitted
      ∧ (s.engine.state = .idle → t.engine.state = .running ∧ t.Selected s.engine.preempted)
      ∧ (s.engine.state ≠ .idle → t.engine = s.engine)
      ∧ (∀ j : StreamId, j ≠ i → t.streams[j] = s.streams[j]) ∧ t.pool = s.pool ∧ t.array = s.array ∧ t.guard = s.guard)
    ∧ ∀ (s t : State) (b tag : Byte) (l : Word16) (payload : List Byte) (i : StreamId), Serving s → s.engineSound = true →
      b.toNat = i.val → s.streams[i].nextSeq = 0xFFFFFFFE → exec (.append b tag l payload) s = .next t →
      t.port.outcome = .done →
      t.streams[i].state = .sealed ∧ t.streams[i].nextSeq = 0xFFFFFFFF ∧ t.ledger.imageNeeded = true
        ∧ t.streams[i].notices.getLsbD 5 = true ∧ t.eventLatch.getLsbD 10 = true
        ∧ t.port.receipt = some (i, 0xFFFFFFFE)

/-- SYNC replaces the sync point by the items of R65 and makes a note pending for each stream whose frontiers differ; with no item
at all it raises SYNC_DONE at once; where a note is made pending an IDLE engine starts the LEDGER job unless the ledger is halted, and
nothing else changes (R64, R65, R67, R111). An item names a stream's newest staged entry, or its volatile frontier where
it differs from the durable one, or the image: the next one begun where image-needed is set, else the one in progress. That an
image which has yielded to a compaction is in progress until the compaction captures is the model's choice (log 17). -/
def Obligations.SyncRecordsItsItems : Prop :=
  (∀ s : State, Serving s → s.engineSound = true →
    ∃ t, exec .sync s = .next t ∧ t.port = s.framePort 1 .done false false
      ∧ (s.beginFrame.syncItems ≠ [] → t.sync = some s.beginFrame.syncItems ∧ t.eventLatch = s.eventLatch)
      ∧ (s.beginFrame.syncItems = [] → t.sync = none ∧ t.eventLatch = s.eventLatch ||| 1)
      ∧ (∀ i : StreamId, t.ledger.pendingNotes[i] = true ↔ s.ledger.pendingNotes[i] = true
          ∨ s.streams[i].volatileFrontier ≠ s.streams[i].durableFrontier)
      ∧ { t.ledger with pendingNotes := s.ledger.pendingNotes } = s.ledger
      ∧ { t with sync := s.sync, eventLatch := s.eventLatch, ledger := s.ledger, engine := s.engine } = { s with port := t.port }
      ∧ ((∃ i : StreamId, s.streams[i].volatileFrontier ≠ s.streams[i].durableFrontier) → s.LedgerWoken t)
      ∧ ((∀ i : StreamId, s.streams[i].volatileFrontier = s.streams[i].durableFrontier) → t.engine = s.engine))
    ∧ ∀ (s : State) (x : SyncItem), x ∈ s.beginFrame.syncItems ↔
      (∃ (i : StreamId) (e : Entry), (s.staging.filter fun e => e.stream == i).getLast? = some e
        ∧ x = .staged i s.streams[i].epoch e.seq)
      ∨ (∃ i : StreamId, s.streams[i].volatileFrontier ≠ s.streams[i].durableFrontier
        ∧ x = .frontier i s.streams[i].epoch s.streams[i].volatileFrontier)
      ∨ (s.ledger.imageNeeded = true ∧ x = .nextImage)
      ∨ (s.ledger.imageNeeded = false ∧ s.ledger.captured.isSome = true ∧ (∃ w, s.engine.job = some (.ledger w))
        ∧ x = .currentImage)

/-! ### Reading (chapter 4) -/

/-- FETCH resolves its start sequence by its form (R72): at or below the volatile frontier or below 1 it is refused EXPIRED, above last
committed NOT_YET but in the CURSOR form (R73). Otherwise it shifts out the smaller of the count and what is committed, which may be
nothing in the CURSOR form, then the end marker (R74, R77). A record stands where the stored lengths before it in its chain segment
lead, and is delivered as its header field by field, the check flag set where its check, stream, sequence or completion mark fails,
and its payload; from the first length that cannot be used on, as a header only (R75, R76). The end marker is the header with the next
sequence and length 0 (R77). At SEL high the CURSOR form alone moves the cursor, past the records that were completely out, and the
unread side is evaluated (R78, R79, R169); so too where the verdict was formed earlier in the frame. Before that it is refused, in this
order, NO_STREAM, BAD_ARGUMENT, BUSY, MARK_EMPTY (R70, R71). -/
def Obligations.FetchAtTheCursor : Prop :=
  (∀ (s : State) (b form c : Byte) (w : Word32) (n : Nat) (i : StreamId) (start : Int), Serving s → b.toNat = i.val → 8 ≤ n →
    LocatorLegal form w → 1 ≤ c.toNat → c.toNat ≤ 16 → s.engine.runs = false → s.streams[i].startsAt form w start →
    (start < 1 ∨ start ≤ (s.streams[i].volatileFrontier : Int) → OutputRefuses (.fetch b form w c n) s n 8 .expired)
    ∧ (1 ≤ start → (s.streams[i].volatileFrontier : Int) < start → (s.streams[i].lastCommitted : Int) < start → form ≠ 0 →
      OutputRefuses (.fetch b form w c n) s n 8 .notYet)
    ∧ ∀ q m : Nat, start = q → 1 ≤ q → s.streams[i].volatileFrontier < q → q ≤ s.streams[i].lastCommitted ∨ form = 0 →
      m = min c.toNat (s.streams[i].lastCommitted + 1 - q) →
      ((s.snapshotOf (.fetch b form w c)).verdict = .done ∧ (s.snapshotOf (.fetch b form w c)).start = q
        ∧ (s.snapshotOf (.fetch b form w c)).data = (s.delivery i q m).flatten ++ endMarker i (q + m)
        ∧ (s.snapshotOf (.fetch b form w c)).recordEnds
          = (List.range m).map fun j => ((s.delivery i q m).take (j + 1)).flatten.length)
      ∧ ∃ t, exec (.fetch b form w c n) s = .next t
        ∧ Answers s t n 8 .done ((s.delivery i q m).flatten ++ endMarker i (q + m))
        ∧ (form ≠ 0 → { t with port := s.port } = s)
        ∧ ∀ j : Nat, form = 0 → j ≤ m → j = 0 ∨ 9 + ((s.delivery i q m).take j).flatten.length ≤ n →
          (j < m → n < 9 + ((s.delivery i q m).take (j + 1)).flatten.length) →
          (j = 0 → { t with port := s.port } = s)
          ∧ (1 ≤ j → t.streams[i].cursor = q + j ∧ s.UnreadEvaluated t i
            ∧ { t.streams[i] with cursor := s.streams[i].cursor, notices := s.streams[i].notices
                                  unreadAbove := s.streams[i].unreadAbove } = s.streams[i]
            ∧ (∀ x : StreamId, x ≠ i → t.streams[x] = s.streams[x])
            ∧ (∀ x : Nat, x ≠ 2 → t.eventLatch.getLsbD x = s.eventLatch.getLsbD x)
            ∧ { t with port := s.port, streams := s.streams, eventLatch := s.eventLatch } = s))
    ∧ (∀ (s : State) (b form c : Byte) (w : Word32) (n : Nat) (i : StreamId) (v : Snapshot) (j : Nat), s.power = .active →
      s.port.frameIgnored = false → s.port.snapshot = some v → v.command = .fetch b form w c → v.verdict = .done →
      b.toNat = i.val → j = (v.recordEnds.filter fun e => decide (9 + e ≤ n)).length →
      ∃ t, exec (.fetch b form w c n) s = .next t ∧ t.port.outcome = .done ∧ t.port.armLatch = false
        ∧ t.port.resetEnable = false ∧ t.port.receipt = s.port.receipt ∧ t.port.sout = s.port.frameOutput n
        ∧ (form ≠ 0 ∨ j = 0 → { t with port := s.port } = s)
        ∧ (form = 0 → 1 ≤ j → t.streams[i].cursor = v.start + j ∧ s.UnreadEvaluated t i
          ∧ { t.streams[i] with cursor := s.streams[i].cursor, notices := s.streams[i].notices
                                unreadAbove := s.streams[i].unreadAbove } = s.streams[i]
          ∧ (∀ x : StreamId, x ≠ i → t.streams[x] = s.streams[x])
          ∧ { t with port := s.port, streams := s.streams, eventLatch := s.eventLatch } = s))
    ∧ (∀ (s : State) (b form c : Byte) (w : Word32) (n : Nat), Serving s → 8 ≤ n →
      (8 ≤ b.toNat → OutputRefuses (.fetch b form w c n) s n 8 .noStream)
      ∧ (b.toNat < 8 → ¬ LocatorLegal form w ∨ c.toNat = 0 ∨ 16 < c.toNat →
        OutputRefuses (.fetch b form w c n) s n 8 .badArgument)
      ∧ (b.toNat < 8 → LocatorLegal form w → 1 ≤ c.toNat → c.toNat ≤ 16 → s.engine.runs = true →
        OutputRefuses (.fetch b form w c n) s n 8 .busy)
      ∧ ∀ i : StreamId, b.toNat = i.val → form = 3 → w.toNat < 65536 → 1 ≤ c.toNat → c.toNat ≤ 16 →
        s.engine.runs = false → s.streams[i].marks = [] → OutputRefuses (.fetch b form w c n) s n 8 .markEmpty)
    ∧ (∀ (s : State) (i : StreamId) (q m : Nat), (s.delivery i q m).length = m
      ∧ ∀ (j x : Nat) (us vs : List DataSeg) (k : DataSeg), j < m → s.streams[i].chain = us ++ k :: vs →
        (∀ u ∈ us, q + j < s.segments[u].first ∨ s.segments[u].last < q + j) →
        s.segments[k].first + x = q + j → q + j ≤ s.segments[k].last →
        ∃ d, (s.delivery i q m)[j]? = some d ∧ s.Delivers i (q + j) k x d)
    ∧ ∀ (i : StreamId) (q : Nat), (endMarker i q).length = 8 ∧ fieldAt (endMarker i q) 0 4 = q % 2 ^ 32
      ∧ fieldAt (endMarker i q) 4 2 = 0 ∧ fieldAt (endMarker i q) 6 1 = 0 ∧ fieldAt (endMarker i q) 7 1 = i.val

/-- ACK above the volatile frontier: frontier and cursor move, and the oldest segments of the chain, as long as each is closed and
covered by the new frontier, leave it for the release list with their last sequences as conditions; the first that is not stays
with all later ones; a note is pending where any left (R81 to R83). The held side is evaluated where any left, the unread side
where the cursor moved (R168, R169); the array, the marks and the durable frontier stay. At or below the frontier DONE is recorded
and nothing changes. ACK is refused, in this order, NO_STREAM, BUSY while a FORMAT job runs, and NOT_YET above last committed (R80). -/
def Obligations.AckResult : Prop :=
  (∀ (s : State) (b : Byte) (q : Word32) (i : StreamId), Serving s → b.toNat = i.val → s.engine.formatRuns = false →
    (s.engineSound = true → s.streams[i].volatileFrontier < q.toNat → q.toNat ≤ s.streams[i].lastCommitted →
      ∃ t ks, exec (.ack b q) s = .next t ∧ t.port = s.framePort 6 .done false false
        ∧ t.streams[i].volatileFrontier = q.toNat ∧ t.streams[i].cursor = max s.streams[i].cursor (q.toNat + 1)
        ∧ s.streams[i].chain = ks ++ t.streams[i].chain
        ∧ (∀ (us vs : List DataSeg) (k : DataSeg), s.streams[i].chain = us ++ k :: vs → us.length < ks.length →
          s.closed i k vs.isEmpty = true ∧ s.segments[k].last ≤ q.toNat)
        ∧ (∀ (k : DataSeg) (vs : List DataSeg), t.streams[i].chain = k :: vs →
          s.closed i k vs.isEmpty = false ∨ q.toNat < s.segments[k].last)
        ∧ (∀ k ∈ ks, t.segments[k]
            = { s.segments[k] with location := .release, release := some (.frontier s.segments[k].last) })
        ∧ (∀ k : DataSeg, k ∉ ks → t.segments[k] = s.segments[k])
        ∧ (ks ≠ [] → t.ledger = { s.ledger with pendingNotes := s.ledger.pendingNotes.set i.val true })
        ∧ (ks = [] → t.ledger = s.ledger)
        ∧ (ks ≠ [] → s.HeldEvaluated t i) ∧ (ks = [] → s.HeldKept t i)
        ∧ (t.streams[i].cursor ≠ s.streams[i].cursor → s.UnreadEvaluated t i)
        ∧ (t.streams[i].cursor = s.streams[i].cursor → s.UnreadKept t i)
        ∧ (∀ n : Nat, n ≠ 1 → n ≠ 2 → t.eventLatch.getLsbD n = s.eventLatch.getLsbD n)
        ∧ (ks ≠ [] → s.LedgerWoken t) ∧ (ks = [] → t.engine = s.engine)
        ∧ t.streams[i].marks = s.streams[i].marks ∧ t.streams[i].durableFrontier = s.streams[i].durableFrontier
        ∧ t.streams[i].lastCommitted = s.streams[i].lastCommitted ∧ t.streams[i].nextSeq = s.streams[i].nextSeq
        ∧ (∀ j : StreamId, j ≠ i → t.streams[j] = s.streams[j])
        ∧ t.pool = s.pool ∧ t.reclaim = s.reclaim ∧ t.staging = s.staging ∧ t.sync = s.sync ∧ t.array = s.array)
    ∧ (q.toNat ≤ s.streams[i].volatileFrontier → q.toNat ≤ s.streams[i].lastCommitted →
        exec (.ack b q) s = .next { s with port := s.framePort 6 .done false false })
    ∧ (s.streams[i].lastCommitted < q.toNat → Refuses (.ack b q) s 6 .notYet))
    ∧ ∀ (s : State) (b : Byte) (q : Word32), Serving s →
      (8 ≤ b.toNat → Refuses (.ack b q) s 6 .noStream)
      ∧ (b.toNat < 8 → s.engine.formatRuns = true → Refuses (.ack b q) s 6 .busy)

/-- PUSH MARK pushes the cursor; on a full stack the bottom mark goes first, with the MARK_LOST notice and event. POP MARK removes
the top mark and leaves the cursor; on an empty stack it is refused MARK_EMPTY, without notice or event. Nothing else
changes (R86, R87). Both are refused, in this order, NO_STREAM, and BUSY while a FORMAT job runs (section 4.4). -/
def Obligations.MarkCommandsResult : Prop :=
  (∀ (s : State) (b : Byte) (i : StreamId), Serving s → b.toNat = i.val → s.engine.formatRuns = false →
    (s.streams[i].marks.length < 4 → exec (.pushMark b) s = .next { s with
        port := s.framePort 2 .done false false
        streams := s.streams.set i.val { s.streams[i] with marks := s.streams[i].cursor :: s.streams[i].marks } })
      ∧ (s.streams[i].marks.length = 4 → exec (.pushMark b) s = .next { s with
        port := s.framePort 2 .done false false
        streams := s.streams.set i.val { s.streams[i] with
          marks := s.streams[i].cursor :: s.streams[i].marks.dropLast, notices := s.streams[i].notices ||| 0x10 }
        eventLatch := s.eventLatch ||| 0x80 })
      ∧ (∀ m ms, s.streams[i].marks = m :: ms → exec (.popMark b) s = .next { s with
        port := s.framePort 2 .done false false, streams := s.streams.set i.val { s.streams[i] with marks := ms } })
      ∧ (s.streams[i].marks = [] → exec (.popMark b) s = .next { s with port := s.framePort 2 .markEmpty false false }))
    ∧ ∀ (s : State) (b : Byte) (c : Instr), Serving s → c = .pushMark b ∨ c = .popMark b →
      (8 ≤ b.toNat → Refuses c s 2 .noStream)
      ∧ (b.toNat < 8 → s.engine.formatRuns = true → Refuses c s 2 .busy)

/-- REWIND: TOP and TOP_POP take the cursor to the top mark, clamped to the range from the volatile frontier + 1 to last committed
+ 1, TOP_POP removes it, OLDEST goes to the volatile frontier + 1; the unread side is evaluated where the cursor changed, and
frontiers and everything else stay (R88, R89, R169). It is refused, in this order, NO_STREAM, BAD_ARGUMENT for a mode of 03h or
above, BUSY while a FORMAT job runs, and MARK_EMPTY for TOP and TOP_POP on an empty stack (R85, R88). -/
def Obligations.RewindMovesTheCursor : Prop :=
  (∀ (s : State) (b : Byte) (i : StreamId), Serving s → b.toNat = i.val → s.engine.formatRuns = false →
    s.streams[i].volatileFrontier ≤ s.streams[i].lastCommitted →
    ∀ mode : Byte, mode.toNat < 3 → (mode ≠ 2 → s.streams[i].marks ≠ []) →
    ∃ t, exec (.rewind b mode) s = .next t ∧ t.port = s.framePort 3 .done false false
      ∧ (mode = 2 → t.streams[i].cursor = s.streams[i].volatileFrontier + 1)
      ∧ (mode ≠ 2 → ∀ m ms, s.streams[i].marks = m :: ms → t.streams[i].cursor
          = max (s.streams[i].volatileFrontier + 1) (min m (s.streams[i].lastCommitted + 1)))
      ∧ t.streams[i].marks = (if mode = 1 then s.streams[i].marks.tail else s.streams[i].marks)
      ∧ { t.streams[i] with cursor := s.streams[i].cursor, marks := s.streams[i].marks, notices := s.streams[i].notices
                            unreadAbove := s.streams[i].unreadAbove } = s.streams[i]
      ∧ (t.streams[i].cursor ≠ s.streams[i].cursor → s.UnreadEvaluated t i)
      ∧ (t.streams[i].cursor = s.streams[i].cursor → s.UnreadKept t i)
      ∧ (∀ n : Nat, n ≠ 1 → t.streams[i].notices.getLsbD n = s.streams[i].notices.getLsbD n)
      ∧ (∀ n : Nat, n ≠ 2 → t.eventLatch.getLsbD n = s.eventLatch.getLsbD n)
      ∧ (∀ j : StreamId, j ≠ i → t.streams[j] = s.streams[j])
      ∧ { t with port := s.port, streams := s.streams, eventLatch := s.eventLatch } = s)
    ∧ ∀ (s : State) (b mode : Byte), Serving s →
      (8 ≤ b.toNat → Refuses (.rewind b mode) s 3 .noStream)
      ∧ (b.toNat < 8 → 3 ≤ mode.toNat → Refuses (.rewind b mode) s 3 .badArgument)
      ∧ (b.toNat < 8 → mode.toNat < 3 → s.engine.formatRuns = true → Refuses (.rewind b mode) s 3 .busy)
      ∧ ∀ i : StreamId, b.toNat = i.val → mode.toNat < 2 → s.engine.formatRuns = false → s.streams[i].marks = [] →
        Refuses (.rewind b mode) s 3 .markEmpty

/-! ### The engine's commands (chapter 6) -/

/-- SUSPEND decides in the order of R127: DONE without effect where a suspension is pending or in force, NOT_SUSPENDABLE under the
resume lock, accepted for a running COMMIT or RECLAIM job, NOT_SUSPENDABLE otherwise; accepting it changes the engine state alone.
-/
def Obligations.SuspendDecides : Prop :=
  ∀ s : State, Serving s →
    (s.engine.state = .suspendPending ∨ s.engine.state = .suspended →
        exec .suspend s = .next { s with port := s.framePort 1 .done false false })
      ∧ (s.engine.state = .idle ∨ s.engine.state = .running → s.engine.resumeLock = true →
        exec .suspend s = .next { s with port := s.framePort 1 .notSuspendable false false })
      ∧ (∀ c k p, s.engine.state = .running → s.engine.resumeLock = false →
        (s.engine.job = some (.commit c) ∨ s.engine.job = some (.reclaim k p)) →
        exec .suspend s = .next { s with
          port := s.framePort 1 .done false false, engine := { s.engine with state := .suspendPending } })
      ∧ (s.engine.state = .idle ∨ s.engine.state = .running → s.engine.resumeLock = false →
        (s.engine.state = .idle ∨ s.engine.job = none ∨ (∃ w, s.engine.job = some (.ledger w))
          ∨ (∃ w, s.engine.job = some (.vault w)) ∨ ∃ a w, s.engine.job = some (.format a w)) →
        exec .suspend s = .next { s with port := s.framePort 1 .notSuspendable false false })

/-- RESUME: a suspended engine runs its held job again with the resume lock set, a pending suspension is cancelled without it, and
otherwise RESUME is refused NOT_SUSPENDED (R129). -/
def Obligations.ResumeByEngineState : Prop :=
  ∀ s : State, Serving s →
    (s.engine.state = .suspended → exec .resume s = .next { s with
        port := s.framePort 1 .done false false, engine := { s.engine with state := .running, resumeLock := true } })
      ∧ (s.engine.state = .suspendPending → exec .resume s = .next { s with
        port := s.framePort 1 .done false false, engine := { s.engine with state := .running } })
      ∧ (s.engine.state = .idle ∨ s.engine.state = .running →
        exec .resume s = .next { s with port := s.framePort 1 .notSuspended false false })

/-! ### Power, recovery and FORMAT (chapter 8) -/

/-- FORMAT on an IDLE engine discards the sync point, starts its job at the first data segment that is neither retired nor
RETIRE_PENDING, or at the anchor erase where there is none, and changes nothing else (R156, R157). It is refused, in this order,
NOT_ARMED, GUARDED by the lock mode or the format inhibit, and BUSY unless the engine is IDLE (R156, R176). -/
def Obligations.FormatIsAccepted : Prop :=
  ∀ (s : State) (g : Bool), Serving s →
    (s.port.armLatch = true → s.guard.permits g → s.guard.formatInhibit = false → s.engine.state = .idle →
    ∃ w, exec (.format g) s = .next { s with
        port := s.framePort 1 .done false false
        sync := none
        engine := { s.engine with state := .running, job := some (.format false w) } }
      ∧ ((∃ k : DataSeg, w = .segment k (.pulse 0) ∧ s.segments[k].location ≠ .retired
            ∧ s.segments[k].header ≠ .retirePending
            ∧ ∀ j : DataSeg, j < k → s.segments[j].location = .retired ∨ s.segments[j].header = .retirePending)
          ∨ (w = .anchorErase 0
            ∧ ∀ j : DataSeg, s.segments[j].location = .retired ∨ s.segments[j].header = .retirePending)))
    ∧ (s.port.armLatch = false → Refuses (.format g) s 1 .notArmed)
    ∧ (s.port.armLatch = true → ¬ s.guard.permits g ∨ s.guard.formatInhibit = true → Refuses (.format g) s 1 .guarded)
    ∧ (s.port.armLatch = true → s.guard.permits g → s.guard.formatInhibit = false → s.engine.state ≠ .idle →
      Refuses (.format g) s 1 .busy)

/-- DOZE on an IDLE engine without ledger work makes the power state DOZING and is refused BUSY otherwise, WAKE in ACTIVE records
DONE, the end of the wake phase makes it ACTIVE; nothing else changes (R25, R160, R161). -/
def Obligations.DozeAndWake : Prop :=
  ∀ s : State,
    (Serving s → s.engine.state = .idle → s.ledger.workPending = false →
        exec .doze s = .next { s with port := s.framePort 1 .done false false, power := .dozing })
      ∧ (Serving s → s.engine.state ≠ .idle ∨ s.ledger.imageNeeded = true ∨ (∃ i : StreamId, s.ledger.pendingNotes[i] = true) →
        Refuses .doze s 1 .busy)
      ∧ (Serving s → exec .wake s = .next { s with port := s.framePort 1 .done false false })
      ∧ (s.power = .dozing → exec .wake s
          = .next { s with port := { s.port with frameIgnored := false }, power := .waking })
      ∧ (s.power = .waking → exec .wakePhaseEnd s = .next { s with power := .active })

/-- Power-on gives every volatile item its reset value and enters RECOVERING; power loss leaves the OFF state with the vault's lock
cells and pages and the array as the interrupted step left them, and no frame in progress is acted on (R24, R147, R159). What stands
where the spec gives no power-on value (log 10), and the flag by which a frame in progress is remembered (log 11), are the model's
choices. -/
def Obligations.PowerOnAndPowerLoss : Prop :=
  ∀ s : State,
    (s.power = .off → ∃ t, exec .powerOn s = .next t ∧ { t with port := State.reset.port } = { State.reset with
        array := s.array, vault := s.vault, lockCells := s.lockCells, freeIndex := s.freeIndex, pending := s.pending }
      ∧ t.port = { Port.reset with frameIgnored := s.port.frameIgnored })
    ∧ ∀ cut : Cut, s.power ≠ .off → ∃ t, exec (.powerLoss cut) s = .next t ∧ t.power = .off
      ∧ t.staging = [] ∧ t.sync = none ∧ t.port.receipt = none ∧ t.engine = Engine.reset
      ∧ t.array = (s.abandonStep cut).array ∧ t.vault = (s.abandonStep cut).vault
      ∧ t.lockCells = (s.abandonStep cut).lockCells
      ∧ (s.engine.runs = false → t.array = s.array ∧ t.vault = s.vault ∧ t.lockCells = s.lockCells)
      ∧ (t.port.frameIgnored = true ↔ s.port.frameState ≠ .idle ∨ s.port.frameIgnored = true)
      ∧ (∀ c : Instr, c.isFrame = true →
        exec c t = .next { t with port := { t.port with frameIgnored := false } })
      ∧ (t.port.frameIgnored = true → ∃ u, exec .powerOn t = .next u ∧ u.power = .recovering
        ∧ ∀ c : Instr, c.isFrame = true → exec c u = .next { u with port := { u.port with frameIgnored := false } })

/-- RESET with the reset-enable flag set abandons the step in progress, gives every volatile item its reset value but for a
working SESSION lock, and enters RECOVERING with the array, the vault and the lock cells as the step was left (R21, R155); with the
flag clear it is refused NOT_ENABLED (R21). -/
def Obligations.SoftReset : Prop :=
  ∀ (s : State) (cut : Cut), Serving s →
    (s.port.resetEnable = true → ∃ t, exec (.reset cut) s = .next t ∧ t.power = .recovering ∧ t.staging = []
        ∧ t.sync = none ∧ t.eventLatch = 0 ∧ t.eventEnable = 0 ∧ t.engine = Engine.reset ∧ t.ledger.halted = false
        ∧ t.port.frameState = .idle ∧ t.port.outcome = .done ∧ t.port.armLatch = false ∧ t.port.resetEnable = false
        ∧ t.port.receipt = none ∧ (t.guard.working = .session ↔ s.guard.working = .session)
        ∧ t.array = (s.abandonStep cut).array ∧ t.vault = (s.abandonStep cut).vault
        ∧ t.lockCells = (s.abandonStep cut).lockCells
        ∧ (s.engine.runs = false → t.array = s.array ∧ t.vault = s.vault ∧ t.lockCells = s.lockCells))
      ∧ (s.port.resetEnable = false →
        exec (.reset cut) s = .next { s with port := s.framePort 1 .notEnabled false false })

/-- The end of the recovery scan leads from RECOVERING to ACTIVE without touching array, vault or port, and leaves what it reads there.
The anchored values are those of the image in force with every applicable note (R134, R148): where an anchor segment holds one image and
at most one note, their values; with no current segment the defaults of R145, as where nothing is programmed in either. A state IDLE or
OPEN with last committed FFFFFFFEh becomes SEALED (R37). Every data segment is where R149 puts it (logs 13 and 33: the count kept for a
RETIRED header and row 2 for a worn FREE one are the model's). Of a stream's candidates in their order, those that the durable frontier
does not cover are kept as far as they make an unbroken series, which begins no later than the frontier + 1: that prefix, whole, is the
chain, so a series without a gap loses nothing; every other candidate is covered, or stands at or after the first break, and leaves for
the reclaim queue or the retired list (R84, R150, R152). Last committed is the last of the chain's last segment, or the frontier (R153).
An OPEN candidate ends where its record scan does, every sequence to its last standing there as a good record (R151). TORN is set just
where a scan found damage or a candidate was cut off (R151, R152), and then TORN_FOUND is raised; RECOVERY_DONE always, ANCHOR_FAULT
without a current segment, nothing else. Pool and reclaim queue are in ascending order, sides are set silently, a kept SESSION stays,
and the engine selects (R154). -/
def Obligations.RecoveryCompletes : Prop :=
  ∀ s : State, s.power = .recovering →
    ∃ t, exec .recoveryComplete s = .next t ∧ t.power = .active ∧ t.port = s.port ∧ t.array = s.array
      ∧ t.vault = s.vault ∧ t.lockCells = s.lockCells ∧ t.vaultLocks = s.lockCells ∧ t.staging = []
      ∧ t.eventEnable = s.eventEnable ∧ t.eventLatch.getLsbD 11 = true
      ∧ (t.eventLatch.getLsbD 12 = true ↔ ∃ i : StreamId, t.streams[i].notices = 0x80)
      ∧ (t.eventLatch.getLsbD 13 = true ↔ t.ledger.current = none)
      ∧ (∀ b : Nat, t.eventLatch.getLsbD b = true → b = 11 ∨ b = 12 ∨ b = 13)
      ∧ t.pool = t.segmentsAt .pool ∧ t.reclaim = t.segmentsAt .reclaim
      ∧ (∀ k : DataSeg, t.segments[k].location ≠ .release ∧ t.segments[k].location ≠ .erasing)
      ∧ (∀ i : StreamId, t.streams[i].nextSeq = t.streams[i].lastCommitted + 1
          ∧ t.streams[i].volatileFrontier = t.streams[i].durableFrontier
          ∧ t.streams[i].cursor = t.streams[i].durableFrontier + 1 ∧ t.streams[i].marks = []
          ∧ t.streams[i].reserved = 0 ∧ t.streams[i].overrun = 0 ∧ t.streams[i].preFault = .idle
          ∧ t.streams[i].heldAtOrAbove = decide (t.streams[i].highWater ≤ t.streams[i].held)
          ∧ t.streams[i].unreadAbove = decide (t.streams[i].backlog < t.streams[i].unread))
      ∧ t.poolBelow = decide (t.available < (t.lowWater : Int))
      ∧ t.guard.working = (if s.guard.working = .session then .session else t.guard.anchored)
      ∧ t.ledger.captured = none ∧ t.ledger.halted = false ∧ t.ledger.lowestNote = none
      ∧ t.Selected s.engine.preempted
      ∧ t.AnchoredTo (anchorPhase s.array)
      ∧ (t.ledger.current = none → t.AnchoredTo Anchored.default ∧ ∀ i : StreamId, t.streams[i].chain = [])
      ∧ ((∀ x ∈ s.array, 8192 ≤ x.1) → t.ledger.current = none)
      ∧ (∀ (a : AnchorSeg) (c : ImageContent) (g : Word32) (note : Option (StreamId × Nat × Nat)),
          HoldsImage s.array a c g note → c.InRange → t.AnchoredTo
            { current := some a, nextFree := if note.isSome then 9 else 8, generation := g
              anchorErases := c.anchorErases, streams := tabulate fun i => { c.streams[i] with frontier := c.noted note i }
              lockMode := c.lockMode, appendLocks := c.appendLocks, formatInhibit := c.formatInhibit
              lowWater := c.lowWater })
      ∧ (∀ k : DataSeg, s.SegmentScanned t k) ∧ (∀ i : StreamId, s.StreamRebuilt t i)
      ∧ (s.engineSound = true → t.engineSound = true ∧ t.Placed)

/-- The results of the scan depend only on the contents of the array (R147): two recoveries of the same array, with the same
draw of free values (log 12), rebuild the same streams, segments, collections, ledger, low-water and anchored guard. -/
def Obligations.RecoveryDependsOnTheArray : Prop :=
  ∀ s s' t t' : State, s.power = .recovering → s'.power = .recovering → s.array = s'.array → s.freeIndex = s'.freeIndex →
    s.engine = s'.engine → exec .recoveryComplete s = .next t → exec .recoveryComplete s' = .next t' →
    t.streams = t'.streams ∧ t.segments = t'.segments ∧ t.pool = t'.pool ∧ t.reclaim = t'.reclaim ∧ t.ledger = t'.ledger
      ∧ t.lowWater = t'.lowWater ∧ t.guard.anchored = t'.guard.anchored ∧ t.guard.appendLocks = t'.guard.appendLocks
      ∧ t.guard.formatInhibit = t'.guard.formatInhibit ∧ t.eventLatch = t'.eventLatch ∧ t.engine = t'.engine

/-! ### Job steps (chapters 6, 7 and 10) -/

/-- What job steps leave alone: a step of a COMMIT, RECLAIM, LEDGER or VAULT job changes no configuration, no epoch, no volatile
frontier, no cursor, no mark and no overrun count; a last committed sequence only by a record step, a durable frontier only by
a LEDGER step, and the port, the guard, the power state, the event enable and the low-water by none (R31, R85, R118, R140). POOL_LOW
is raised just where a step has made the available count arrive below the low-water (R170). -/
def Obligations.JobStepsFrame : Prop :=
  ∀ (c : Instr) (s t : State), c.jobStep = true → exec c s = .next t →
    t.power = s.power ∧ t.port = s.port ∧ t.guard = s.guard ∧ t.eventEnable = s.eventEnable ∧ t.lowWater = s.lowWater
      ∧ t.pending = s.pending ∧ t.freeIndex = s.freeIndex ∧ s.PoolEvaluated t
      ∧ (c.vaultStep = false → t.vaultLocks = s.vaultLocks ∧ t.vault = s.vault)
      ∧ (c.vaultStep = true → t.array = s.array ∧ t.segments = s.segments)
      ∧ ∀ i : StreamId,
        { t.streams[i] with
          state := s.streams[i].state, preFault := s.streams[i].preFault, nextSeq := s.streams[i].nextSeq
          lastCommitted := s.streams[i].lastCommitted, durableFrontier := s.streams[i].durableFrontier
          chain := s.streams[i].chain, reserved := s.streams[i].reserved, notices := s.streams[i].notices
          heldAtOrAbove := s.streams[i].heldAtOrAbove, unreadAbove := s.streams[i].unreadAbove } = s.streams[i]
        ∧ ((∀ p, c ≠ .commitRecordStep p) → t.streams[i].lastCommitted = s.streams[i].lastCommitted)
        ∧ (c.ledgerStep = false → t.streams[i].durableFrontier = s.streams[i].durableFrontier)
        ∧ (t.streams[i].state ≠ s.streams[i].state → t.streams[i].state = .faulted)

/-! ### COMMIT steps (chapter 6) -/

/-- The seal step writes the close stage with the SEALED mark over the segment's last sequence and bytes used; the segment is
SEALED, or poisoned where the write failed (R115). Either way the release walk is applied to the chain, whose segments are now all
closed: the oldest, as far as the frontier covers them, join the release list with a note pending, and the held side is evaluated
where any left (R82, R83, R115, R168); and the job goes on with the opening steps (R115, R116). -/
def Obligations.CommitSealStepResult : Prop :=
  ∀ (s : State) (p : Pulses) (e : Entry) (rest : List Entry) (k : DataSeg) (m : Memory) (ok : Bool),
    s.due (.commit .seal) = true → s.staging = e :: rest → s.streams[e.stream].chain.getLast? = some k →
    program s.array (sealItem k s.segments[k].last s.segments[k].bytesUsed) p = (m, ok) →
    ∃ t, exec (.commitSealStep p) s = .next t ∧ t.array = m
      ∧ t.segments[k].header = (if ok then .sealed else s.segments[k].header)
      ∧ t.segments[k].poisoned = (if ok then s.segments[k].poisoned else true)
      ∧ t.segments[k].last = s.segments[k].last ∧ t.segments[k].bytesUsed = s.segments[k].bytesUsed
      ∧ (t.engine.job = some (.commit .freeStage) ∨ t.engine.job = some (.commit .openStage))
      ∧ t.engine = { s.engine with job := some (.commit t.openingStep), resumeLock := false }
      ∧ t.staging = s.staging ∧ t.pool = s.pool ∧ t.port = s.port ∧ t.guard = s.guard
      ∧ t.sync = s.sync ∧ t.reclaim = s.reclaim
      ∧ t.streams[e.stream].lastCommitted = s.streams[e.stream].lastCommitted
      ∧ { t.streams[e.stream] with chain := s.streams[e.stream].chain, notices := s.streams[e.stream].notices
                                   heldAtOrAbove := s.streams[e.stream].heldAtOrAbove } = s.streams[e.stream]
      ∧ (∀ j : StreamId, j ≠ e.stream → t.streams[j] = s.streams[j])
      ∧ (∀ n : Nat, n ≠ 1 → t.eventLatch.getLsbD n = s.eventLatch.getLsbD n)
      ∧ (e.placement = .new → ∃ ks, s.Released t e.stream k ks ∧ (ks ≠ [] → s.HeldEvaluated t e.stream)
        ∧ (ks = [] → s.HeldKept t e.stream))

/-- The opening steps on the pool head: a verified free stage makes it FREE and leads to the open stage; a verified open stage moves
it to the tail of the stream's chain with the fields of R100. For a new-segment entry it uses up a reservation, and held and available
stay (R116); for a replacement every entry of the stream that awaits one is placed into it, held rises and available falls by 1, and
the held side and the pool side are evaluated (R120, R168, R170). A failed one sends the head to the retired list with
SEGMENT_RETIRED and a retire write to come, and the pool side is evaluated (R117). -/
def Obligations.CommitOpeningStepsResult : Prop :=
  ∀ (s : State) (p : Pulses) (e : Entry) (rest : List Entry) (k : DataSeg) (ks : List DataSeg) (m : Memory) (ok : Bool),
    s.staging = e :: rest → s.pool = k :: ks →
    (s.due (.commit .freeStage) = true → program s.array (freeStageItem k s.segments[k].eraseCount) p = (m, ok) →
      ∃ t, exec (.commitFreeStageStep p) s = .next t ∧ t.array = m ∧ t.staging = s.staging ∧ t.engine.resumeLock = false
        ∧ s.PoolEvaluated t
        ∧ (ok = true → t.segments[k] = { s.segments[k] with header := .free } ∧ t.pool = s.pool
            ∧ t.engine.job = some (.commit .openStage) ∧ t.streams = s.streams)
        ∧ (ok = false → t.segments[k].location = .retired ∧ t.pool = ks ∧ t.engine.job = some (.commit (.openRetire k))
            ∧ t.eventLatch.getLsbD 8 = true ∧ t.streams = s.streams))
    ∧ (s.due (.commit .openStage) = true →
      program s.array (openStageItem k e.stream s.streams[e.stream].epoch e.seq) p = (m, ok) →
      ∃ t, exec (.commitOpenStep p) s = .next t ∧ t.array = m ∧ t.engine.resumeLock = false ∧ s.PoolEvaluated t
        ∧ (∀ j : StreamId, j ≠ e.stream → t.streams[j] = s.streams[j])
        ∧ (ok = true → t.segments[k] = { s.segments[k] with
              location := .chain, header := .opened, owner := some e.stream, epoch := s.streams[e.stream].epoch
              first := e.seq, last := e.seq - 1, bytesUsed := 0 }
            ∧ t.pool = ks ∧ t.engine.job = some (.commit .record)
            ∧ t.streams[e.stream].chain = s.streams[e.stream].chain ++ [k]
            ∧ (e.placement = .new → t.streams[e.stream].reserved = s.streams[e.stream].reserved - 1
                ∧ t.staging = s.staging ∧ s.HeldKept t e.stream
                ∧ (1 ≤ s.streams[e.stream].reserved →
                  t.streams[e.stream].held = s.streams[e.stream].held ∧ t.available = s.available))
            ∧ (e.placement = .awaiting → t.streams[e.stream].reserved = s.streams[e.stream].reserved
                ∧ t.staging.head? = some { e with placement := .current }
                ∧ t.staging = s.staging.map (fun x =>
                    if x.stream = e.stream ∧ x.placement = .awaiting then { x with placement := .current } else x)
                ∧ t.streams[e.stream].held = s.streams[e.stream].held + 1 ∧ t.available = s.available - 1
                ∧ s.HeldEvaluated t e.stream))
        ∧ (ok = false → t.segments[k].location = .retired ∧ t.pool = ks ∧ t.engine.job = some (.commit (.openRetire k))
            ∧ t.eventLatch.getLsbD 8 = true ∧ t.streams = s.streams ∧ t.staging = s.staging))

/-- The retire write after a failed opening makes the header RETIRED if it verifies. The close step makes its segment
RETIRE_PENDING whether or not it verifies, raises SEGMENT_RETIRED, and applies the release walk as the seal step does (R119, R82, R83,
R168). After both the job opens a further segment where one may be taken: for a new-segment entry with the pool not empty, for one
that awaits a replacement with one available; and the stream faults where none may (R117, R119 to R121): the FAULT notice,
STREAM_FAULT and POOL_EMPTY, its entries and reservations gone, its items of the sync point satisfied with SYNC_DONE for the last, the
held side evaluated; and at this record boundary the next head is reached (R34, R67, R114, R168). -/
def Obligations.CommitRetireAndCloseSteps : Prop :=
  ∀ (s : State) (p : Pulses) (e : Entry) (rest : List Entry) (k : DataSeg) (m : Memory) (ok : Bool),
    s.staging = e :: rest →
    (s.due (.commit (.openRetire k)) = true → program s.array (retireItem k 0x03) p = (m, ok) →
      ∃ t, exec (.commitOpenRetireStep p) s = .next t ∧ t.array = m ∧ t.pool = s.pool ∧ t.ledger = s.ledger
        ∧ t.segments[k].header = (if ok then .retired else s.segments[k].header) ∧ t.engine.resumeLock = false
        ∧ s.PoolEvaluated t
        ∧ ((e.placement = .new ∧ s.pool ≠ []) ∨ (e.placement = .awaiting ∧ 1 ≤ s.available) →
            t.streams = s.streams ∧ t.staging = s.staging ∧ t.sync = s.sync
            ∧ t.engine = { s.engine with job := some (.commit t.openingStep), resumeLock := false })
        ∧ (e.placement = .new → s.pool ≠ [] →
            t.engine.job = some (.commit .freeStage) ∨ t.engine.job = some (.commit .openStage))
        ∧ ((e.placement = .new ∧ s.pool = []) ∨ (e.placement = .awaiting ∧ s.available < 1) →
            s.StreamFaulted t e.stream
            ∧ (s.Proceeds (s.staging.filter fun x => x.stream != e.stream) → s.HeldEvaluated t e.stream)
            ∧ t.streams[e.stream].chain = s.streams[e.stream].chain ∧ (∀ x ∈ t.staging, x.stream ≠ e.stream)))
    ∧ (s.due (.commit (.close k)) = true → e.placement = .awaiting →
      program s.array (retirePendingItem k s.segments[k].last s.segments[k].bytesUsed) p = (m, ok) →
      ∃ t, exec (.commitCloseStep p) s = .next t ∧ t.array = m ∧ t.segments[k].header = .retirePending
        ∧ t.segments[k].last = s.segments[k].last ∧ t.segments[k].bytesUsed = s.segments[k].bytesUsed
        ∧ t.eventLatch.getLsbD 8 = true ∧ t.pool = s.pool ∧ t.engine.resumeLock = false ∧ s.PoolEvaluated t
        ∧ (1 ≤ s.available → t.staging = s.staging ∧ t.sync = s.sync
            ∧ (t.engine.job = some (.commit .freeStage) ∨ t.engine.job = some (.commit .openStage))
            ∧ t.engine = { s.engine with job := some (.commit t.openingStep), resumeLock := false }
            ∧ (∀ j : StreamId, j ≠ e.stream → t.streams[j] = s.streams[j]))
        ∧ (s.available < 1 → s.StreamFaulted t e.stream
            ∧ (∀ x ∈ t.staging, x.stream ≠ e.stream) ∧ t.eventLatch.getLsbD 9 = true)
        ∧ (s.streams[e.stream].chain.getLast? = some k → ∃ ks, s.Released t e.stream k ks
            ∧ (1 ≤ s.available → (ks ≠ [] → s.HeldEvaluated t e.stream) ∧ (ks = [] → s.HeldKept t e.stream))
            ∧ (s.available < 1 → s.Proceeds (s.staging.filter fun x => x.stream != e.stream) →
              ks = [] ∨ s.streams[e.stream].heldAtOrAbove = true → s.HeldEvaluated t e.stream)))

/-- The record step writes the head entry's record at the segment's bytes used (R118, R119). Verified, the record is committed: last
committed and the segment's fields move on, the unread side is evaluated (DRAINED with its notice, R169), and the entry leaves the
buffer; further entries leave only with a stream that faults as the job reaches the next head (R114, R121), and where none does, the
rest stays and the sync point loses the items that the last committed sequence has reached, SYNC_DONE being raised with the last
(R66, R67). Failed, the segment is poisoned, the head and the stream's later entries up to its next new-segment entry await a
replacement, and the close step follows. A record boundary clears the resume lock; a pending suspension takes hold there with the next
step decided, unless the buffer is empty; otherwise the engine runs what R111 has it select (R112, R128). -/
def Obligations.CommitRecordStepResult : Prop :=
  ∀ (s : State) (p : Pulses) (e : Entry) (rest : List Entry) (k : DataSeg) (m : Memory) (ok : Bool),
    s.due (.commit .record) = true → s.staging = e :: rest → s.streams[e.stream].chain.getLast? = some k →
    s.segments[k].bytesUsed + footprint e.payload.length ≤ 4064 →
    program s.array (recordItem (recordAddr k s.segments[k].bytesUsed) e) p = (m, ok) →
    ∃ t, exec (.commitRecordStep p) s = .next t ∧ t.array = m ∧ t.port = s.port ∧ t.guard = s.guard ∧ t.pool = s.pool
      ∧ (∀ j : DataSeg, j ≠ k → t.segments[j] = s.segments[j]) ∧ t.engine.resumeLock = false ∧ s.PoolEvaluated t
      ∧ (ok = true → t.streams[e.stream].lastCommitted = e.seq
          ∧ t.segments[k] = { s.segments[k] with
              last := e.seq, bytesUsed := s.segments[k].bytesUsed + footprint e.payload.length }
          ∧ t.staging.Sublist rest ∧ t.streams[e.stream].chain = s.streams[e.stream].chain
          ∧ s.UnreadEvaluated t e.stream
          ∧ (∀ x ∈ rest, x ∉ t.staging → t.streams[x.stream].state = .faulted)
          ∧ (s.Proceeds rest → t.staging = rest
              ∧ s.SyncLeft t (fun items => items.filter fun x =>
                  !SyncItem.committedIn e.stream s.streams[e.stream].epoch e.seq x)
              ∧ ∀ j : StreamId, t.streams[j].state = s.streams[j].state
                ∧ (j ≠ e.stream → t.streams[j] = s.streams[j]))
          ∧ (s.engine.state = .suspendPending → t.staging ≠ [] → t.engine.state = .suspended ∧ t.CommitDecided
              ∧ t.engine.preempted = s.engine.preempted)
          ∧ (s.engine.state = .running ∨ t.staging = [] → t.Selected s.engine.preempted))
      ∧ (ok = false → t.segments[k] = { s.segments[k] with poisoned := true } ∧ t.streams = s.streams
          ∧ t.engine = { s.engine with job := some (.commit (.close k)), resumeLock := false } ∧ t.sync = s.sync
          ∧ t.staging = { e with placement := .awaiting } :: markAwaiting e.stream rest
          ∧ t.staging.map (fun x => (x.stream, x.seq, x.tag, x.payload))
              = s.staging.map (fun x => (x.stream, x.seq, x.tag, x.payload)))

/-! ### RECLAIM steps (chapter 6) -/

/-- RECLAIM: the segment is ERASING after its first pulse; a pulse that passes leads to the free stage with the count raised by one, or
where it is unknown with one more than the highest known count, or 1 where none is known; the twelfth that does not to the retire write;
after an earlier one that does not, a pending suspension takes hold before the next pulse (R128), and with ledger or staged work waiting
the job moves into the preempted slot with its pulses and the engine selects (R112, R126). A verified free stage below the wear-out
threshold returns the segment to the pool tail with a FREE header; the retire step sends it to the retired list with SEGMENT_RETIRED;
either ends the job, and the engine selects (R111, R123 to R125). POOL_LOW is evaluated where the available count changed (R170). -/
def Obligations.ReclaimStepsResult : Prop :=
  ∀ (s : State) (k : DataSeg),
    (∀ (r : Residue) (n : Nat), s.due (.reclaim k (.pulse n)) = true →
      ∃ t, exec (.reclaimErasePulse r) s = .next t ∧ t.array = erasePulse s.array k.index r
        ∧ t.segments[k] = { s.segments[k] with location := .erasing } ∧ t.reclaim = s.reclaim.filter (· != k)
        ∧ t.pool = s.pool ∧ t.engine.resumeLock = false ∧ s.PoolEvaluated t
        ∧ (segmentErased t.array k.index = true → ∃ c, s.CountRaised k c
            ∧ t.engine = { s.engine with job := some (.reclaim k (.freeStage c)), resumeLock := false })
        ∧ (segmentErased t.array k.index = false → 11 ≤ n →
            t.engine = { s.engine with job := some (.reclaim k (.retire 0x02 false)), resumeLock := false })
        ∧ (segmentErased t.array k.index = false → n < 11 →
            (s.engine.state = .suspendPending → t.engine = { s.engine with
                state := .suspended, job := some (.reclaim k (.pulse (n + 1))), resumeLock := false })
            ∧ (s.engine.state = .running → s.engine.preempted = none → t.Selected (some (k, n + 1)))))
    ∧ (∀ (p : Pulses) (c : Nat) (m : Memory) (ok : Bool), s.due (.reclaim k (.freeStage c)) = true →
      program s.array (freeStageItem k (some c)) p = (m, ok) →
      ∃ t, exec (.reclaimFreeStageStep p) s = .next t ∧ t.array = m ∧ t.segments[k].eraseCount = some c
        ∧ t.reclaim = s.reclaim ∧ t.engine.resumeLock = false ∧ s.PoolEvaluated t
        ∧ (ok = true → c < 120000 → t.segments[k].location = .pool ∧ t.segments[k].header = .free
            ∧ t.segments[k].poisoned = false ∧ t.segments[k].owner = none ∧ t.segments[k].bytesUsed = 0
            ∧ t.pool = s.pool ++ [k] ∧ t.Selected s.engine.preempted)
        ∧ (ok = true → 120000 ≤ c → t.pool = s.pool
            ∧ t.engine = { s.engine with job := some (.reclaim k (.retire 0x01 true)), resumeLock := false })
        ∧ (ok = false → t.pool = s.pool
            ∧ t.engine = { s.engine with job := some (.reclaim k (.retire 0x02 true)), resumeLock := false }))
    ∧ (∀ (p : Pulses) (cause : Byte) (erased : Bool) (m : Memory) (ok : Bool),
      s.due (.reclaim k (.retire cause erased)) = true → program s.array (retireItem k cause) p = (m, ok) →
      ∃ t, exec (.reclaimRetireStep p) s = .next t ∧ t.array = m ∧ t.segments[k].location = .retired
        ∧ t.segments[k].header = (if ok then .retired else s.segments[k].header) ∧ t.reclaim = s.reclaim
        ∧ t.segments[k].eraseCount = s.segments[k].eraseCount ∧ t.eventLatch.getLsbD 8 = true ∧ t.pool = s.pool
        ∧ t.engine.resumeLock = false ∧ s.PoolEvaluated t ∧ t.Selected s.engine.preempted)

/-! ### LEDGER steps (chapter 7) -/

/-- The note step writes the stream's epoch and volatile frontier at the next free unit, which advances either way (R139, R141).
Verified, the stream's durable frontier has reached that value; the stream's segments in the release list that wait for no more of
this epoch join the reclaim queue in ascending index order, a RETIRE_PENDING one the retired list with SEGMENT_RETIRED (R101); the
sync point loses the items that the durable frontiers have reached, SYNC_DONE being raised with the last (R66, R67, R140); and the
job chooses again, or ends and the engine selects (R137). Failed, the note is pending again and is written again, after a compaction
where no unit is left. -/
def Obligations.LedgerNoteStepResult : Prop :=
  ∀ (s : State) (p : Pulses) (i : StreamId) (a : AnchorSeg) (m : Memory) (ok : Bool),
    s.due (.ledger (.note i)) = true → s.ledger.current = some a →
    program s.array (unitItem a s.ledger.nextFree
      (noteUnit i s.streams[i].epoch s.streams[i].volatileFrontier s.ledger.generation)) p = (m, ok) →
    ∃ t, exec (.ledgerNoteStep p) s = .next t ∧ t.array = m ∧ t.ledger.nextFree = s.ledger.nextFree + 1
      ∧ t.ledger.generation = s.ledger.generation ∧ t.ledger.current = s.ledger.current
      ∧ t.ledger.imageNeeded = s.ledger.imageNeeded
      ∧ (∀ j : StreamId, j ≠ i → t.ledger.pendingNotes[j] = s.ledger.pendingNotes[j])
      ∧ t.engine.resumeLock = false ∧ t.pool = s.pool
      ∧ (ok = true → t.ledger.pendingNotes[i] = false
          ∧ t.streams[i].durableFrontier = max s.streams[i].durableFrontier s.streams[i].volatileFrontier
          ∧ s.Disposed t (fun g => g.waitsForFrontier i s.streams[i].epoch s.streams[i].volatileFrontier)
          ∧ (s.Proceeds s.staging → s.SyncLeft t (fun items => items.filter fun x => !t.reachedItem x))
          ∧ (∀ w, t.ledger.choose = some w → t.engine = { s.engine with job := some (.ledger w), resumeLock := false })
          ∧ (t.ledger.choose = none → t.Selected s.engine.preempted))
      ∧ (ok = false → t.ledger.pendingNotes[i] = true ∧ t.streams = s.streams ∧ t.segments = s.segments
          ∧ t.reclaim = s.reclaim ∧ t.sync = s.sync ∧ t.engine = { s.engine with
              job := some (.ledger (if s.ledger.nextFree + 2 ≤ 128 then .note i
                else .compactErase (if a = 0 then 1 else 0) 1 0))
              resumeLock := false })
      ∧ ∀ j : StreamId, t.streams[j].volatileFrontier = s.streams[j].volatileFrontier
          ∧ (j ≠ i → t.streams[j].durableFrontier = s.streams[j].durableFrontier)

/-- Image units outside compaction: the first captures the image and clears image-needed and every pending note, and a sync point that
waits for the next image begun waits for this one (R65, R138); a later one before part 7 leads to the next part. Part 7 makes the
image's generation the ledger's and every stream's durable frontier at least the recorded one in its epoch; the segments of the
release list whose condition the image satisfies leave it (R101); the sync point loses the image's items and the frontier items
reached, with SYNC_DONE for the last (R66, R67, R140); and the job chooses again, or ends and the engine selects (R137). A failed
unit is spent, and the image starts again from part 0, in a compaction where it no longer fits (R141). What is captured is of every
stream its configuration, its epoch, its volatile frontier and its state, of a FAULTED one the state before the fault; the anchored
guard, the pool low-water and the anchor erase counts; with the next generation (R132, R138). -/
def Obligations.LedgerImageStepsResult : Prop :=
  (∀ (s : State), s.freshCapture.generation = s.ledger.generation + 1 ∧ s.freshCapture.part = 0
    ∧ s.freshCapture.content.lockMode = s.guard.anchored ∧ s.freshCapture.content.appendLocks = s.guard.appendLocks
    ∧ s.freshCapture.content.formatInhibit = s.guard.formatInhibit ∧ s.freshCapture.content.lowWater = s.lowWater
    ∧ s.freshCapture.content.anchorErases = s.ledger.anchorErases
    ∧ ∀ i : StreamId, s.freshCapture.content.streams[i] = {
        state := if s.streams[i].state = .faulted then s.streams[i].preFault else s.streams[i].state
        policy := s.streams[i].policy, quota := s.streams[i].quota, highWater := s.streams[i].highWater
        backlog := s.streams[i].backlog, epoch := s.streams[i].epoch, frontier := s.streams[i].volatileFrontier })
  ∧ ∀ (s : State) (p : Pulses) (m : Memory) (a : AnchorSeg), s.due (.ledger .image) = true → s.ledger.current = some a →
    (s.ledger.captured = none →
      (program s.array (unitItem a s.ledger.nextFree s.freshCapture.fields) p = (m, true) →
        ∃ t, exec (.ledgerImageUnitStep p) s = .next t ∧ t.array = m
          ∧ t.ledger = { s.ledger with
              captured := some { s.freshCapture with part := 1 }, imageNeeded := false
              pendingNotes := Vector.replicate 8 false, nextFree := s.ledger.nextFree + 1 }
          ∧ t.streams = s.streams ∧ t.segments = s.segments ∧ t.sync = s.sync.map (·.map SyncItem.begun)
          ∧ t.engine = { s.engine with resumeLock := false })
      ∧ (program s.array (unitItem a s.ledger.nextFree s.freshCapture.fields) p = (m, false) →
        ∃ t, exec (.ledgerImageUnitStep p) s = .next t ∧ t.array = m
          ∧ t.ledger = { s.ledger with
              captured := some s.freshCapture, imageNeeded := false
              pendingNotes := Vector.replicate 8 false, nextFree := s.ledger.nextFree + 1 }
          ∧ t.streams = s.streams ∧ t.segments = s.segments ∧ t.sync = s.sync.map (·.map SyncItem.begun)
          ∧ t.engine = { s.engine with
              job := some (.ledger (if s.ledger.nextFree + 9 ≤ 128 then .image
                else .compactErase (if a = 0 then 1 else 0) 1 0))
              resumeLock := false }))
    ∧ ∀ c : Captured, s.ledger.captured = some c →
      (c.part < 7 → program s.array (unitItem a s.ledger.nextFree c.fields) p = (m, true) →
        ∃ t, exec (.ledgerImageUnitStep p) s = .next t ∧ t.array = m ∧ t.engine.job = some (.ledger .image)
          ∧ t.ledger = { s.ledger with captured := some { c with part := c.part + 1 }, nextFree := s.ledger.nextFree + 1 }
          ∧ t.streams = s.streams ∧ t.segments = s.segments ∧ t.sync = s.sync
          ∧ t.engine = { s.engine with resumeLock := false })
      ∧ (c.part = 7 → program s.array (unitItem a s.ledger.nextFree c.fields) p = (m, true) →
        ∃ t, exec (.ledgerImageUnitStep p) s = .next t ∧ t.array = m ∧ t.ledger.generation = c.generation
          ∧ t.ledger.captured = none ∧ t.ledger.current = some a ∧ t.ledger.nextFree = s.ledger.nextFree + 1
          ∧ t.ledger.imageNeeded = s.ledger.imageNeeded ∧ t.ledger.pendingNotes = s.ledger.pendingNotes
          ∧ s.Disposed t c.content.frees
          ∧ (s.Proceeds s.staging → s.SyncLeft t (fun items => items.filter fun x => !t.imagedItem c.content x))
          ∧ (∀ w, t.ledger.choose = some w → t.engine = { s.engine with job := some (.ledger w), resumeLock := false })
          ∧ (t.ledger.choose = none → t.Selected s.engine.preempted)
          ∧ ∀ i : StreamId, (c.content.streams[i].epoch = s.streams[i].epoch → t.streams[i].durableFrontier
                = max s.streams[i].durableFrontier c.content.streams[i].frontier)
              ∧ (c.content.streams[i].epoch ≠ s.streams[i].epoch →
                t.streams[i].durableFrontier = s.streams[i].durableFrontier))
      ∧ (program s.array (unitItem a s.ledger.nextFree c.fields) p = (m, false) →
        ∃ t, exec (.ledgerImageUnitStep p) s = .next t ∧ t.array = m ∧ t.streams = s.streams
          ∧ t.segments = s.segments ∧ t.sync = s.sync
          ∧ t.ledger = { s.ledger with captured := some { c with part := 0 }, nextFree := s.ledger.nextFree + 1 }
          ∧ (s.ledger.nextFree + 9 ≤ 128 → t.engine.job = some (.ledger .image))
          ∧ (128 < s.ledger.nextFree + 9 →
            t.engine.job = some (.ledger (.compactErase (if a = 0 then 1 else 0) 1 0))))

/-- Compaction: a passing pulse counts and leads to the capture, the twelfth that fails halts the ledger, and the engine selects; the
first unit captures, and a sync point that waits for the next image begun waits for this one (R65); a later unit before part 7 leads
to the next part; part 7 makes the target current with next free unit 8 and hands on as any image does: durable frontiers, release
list, sync point (R101, R140), and the job chooses again, or ends and the engine selects (R137). A failed unit leads from the first
attempt to the second, and from the second to the halt (R142 to R144). -/
def Obligations.LedgerCompactionStepsResult : Prop :=
  ∀ (s : State) (a : AnchorSeg) (v : Nat),
    (∀ (r : Residue) (n : Nat), s.due (.ledger (.compactErase a v n)) = true →
      ∃ t, exec (.ledgerAnchorErasePulse r) s = .next t ∧ t.array = erasePulse s.array a.val r
        ∧ t.ledger.current = s.ledger.current ∧ t.ledger.nextFree = s.ledger.nextFree
        ∧ t.ledger.generation = s.ledger.generation
        ∧ (segmentErased t.array a.val = true → t.engine.job = some (.ledger (.compactCapture a v))
            ∧ t.ledger.anchorErases[a] = min (s.ledger.anchorErases[a] + 1) 0xFFFFFE)
        ∧ (segmentErased t.array a.val = false → n < 11 → t.engine.job = some (.ledger (.compactErase a v (n + 1)))
            ∧ t.ledger = s.ledger)
        ∧ (segmentErased t.array a.val = false → 11 ≤ n → t.ledger.halted = true ∧ t.ledger.imageNeeded = true
            ∧ t.ledger.captured = none ∧ t.eventLatch.getLsbD 15 = true ∧ t.Selected s.engine.preempted))
    ∧ (∀ (p : Pulses) (m : Memory), s.due (.ledger (.compactCapture a v)) = true →
      (program s.array (unitItem a 0 s.freshCapture.fields) p = (m, true) →
        ∃ t, exec (.ledgerImageUnitStep p) s = .next t ∧ t.array = m
          ∧ t.engine.job = some (.ledger (.compactImage a v)) ∧ t.streams = s.streams ∧ t.segments = s.segments
          ∧ t.sync = s.sync.map (·.map SyncItem.begun)
          ∧ t.ledger = { s.ledger with
              captured := some { s.freshCapture with part := 1 }, imageNeeded := false
              pendingNotes := Vector.replicate 8 false })
      ∧ (program s.array (unitItem a 0 s.freshCapture.fields) p = (m, false) →
        ∃ t, exec (.ledgerImageUnitStep p) s = .next t ∧ t.array = m ∧ t.ledger.imageNeeded = true
          ∧ t.ledger.captured = none ∧ t.ledger.current = s.ledger.current ∧ t.ledger.generation = s.ledger.generation
          ∧ (v = 1 → t.engine.job = some (.ledger (.compactErase a 2 0)) ∧ t.ledger.halted = s.ledger.halted)
          ∧ (v ≠ 1 → t.ledger.halted = true ∧ t.eventLatch.getLsbD 15 = true ∧ t.Selected s.engine.preempted)))
    ∧ ∀ (p : Pulses) (m : Memory) (c : Captured), s.due (.ledger (.compactImage a v)) = true →
      s.ledger.captured = some c →
      (c.part < 7 → program s.array (unitItem a c.part c.fields) p = (m, true) →
        ∃ t, exec (.ledgerImageUnitStep p) s = .next t ∧ t.array = m
          ∧ t.engine = { s.engine with job := some (.ledger (.compactImage a v)), resumeLock := false }
          ∧ t.ledger = { s.ledger with captured := some { c with part := c.part + 1 } }
          ∧ t.streams = s.streams ∧ t.segments = s.segments ∧ t.sync = s.sync)
      ∧ (c.part = 7 → program s.array (unitItem a 7 c.fields) p = (m, true) →
        ∃ t, exec (.ledgerImageUnitStep p) s = .next t ∧ t.array = m ∧ t.ledger.current = some a
          ∧ t.ledger.nextFree = 8 ∧ t.ledger.generation = c.generation ∧ t.ledger.captured = none
          ∧ s.Disposed t c.content.frees
          ∧ (s.Proceeds s.staging → s.SyncLeft t (fun items => items.filter fun x => !t.imagedItem c.content x))
          ∧ (∀ w, t.ledger.choose = some w → t.engine = { s.engine with job := some (.ledger w), resumeLock := false })
          ∧ (t.ledger.choose = none → t.Selected s.engine.preempted)
          ∧ ∀ i : StreamId, (c.content.streams[i].epoch = s.streams[i].epoch → t.streams[i].durableFrontier
                = max s.streams[i].durableFrontier c.content.streams[i].frontier)
              ∧ (c.content.streams[i].epoch ≠ s.streams[i].epoch →
                t.streams[i].durableFrontier = s.streams[i].durableFrontier))
      ∧ (program s.array (unitItem a c.part c.fields) p = (m, false) →
        ∃ t, exec (.ledgerImageUnitStep p) s = .next t ∧ t.array = m ∧ t.ledger.imageNeeded = true
          ∧ t.ledger.captured = none ∧ t.ledger.current = s.ledger.current ∧ t.ledger.generation = s.ledger.generation
          ∧ (v = 1 → t.engine.job = some (.ledger (.compactErase a 2 0)) ∧ t.ledger.halted = s.ledger.halted)
          ∧ (v ≠ 1 → t.ledger.halted = true ∧ t.eventLatch.getLsbD 15 = true ∧ t.Selected s.engine.preempted))

/-! ### VAULT steps (chapter 10) -/

/-- VAULT steps: a written byte never gains a bit, loses none beyond old AND new, and reads that without resistance; the job goes on with
the next byte, and completes after the last. An erase pulse without residue leaves the page FFh; one after which the page reads so
completes the job, as the twelfth does, and any other leaves a further pulse. The lock step marks the page locked whether or not its
cell took, and completes the job; a write and an erase
leave every lock as it is. Where a job completes the engine selects (R111); nothing
else changes, so that no failure raises an event, sets a notice or changes the outcome (R183), but for what the head entry of the
staging buffer brings where a COMMIT job selected here cannot proceed (R121). -/
def Obligations.VaultStepsResult : Prop :=
  ∀ (s : State) (p : Fin 4),
    (∀ (pulses : List Byte) (o : Fin 128) (v : Byte) (vs : List Byte), s.due (.vault (.write p o.val (v :: vs))) = true →
      ∃ t, exec (.vaultWriteByteStep pulses) s = .next t ∧ t.array = s.array ∧ t.lockCells = s.lockCells
        ∧ t.vaultLocks = s.vaultLocks
        ∧ t.vault[p][o] &&& s.vault[p][o] = t.vault[p][o]
        ∧ t.vault[p][o] &&& (s.vault[p][o] &&& v) = s.vault[p][o] &&& v
        ∧ (pulses = [] → t.vault[p][o] = s.vault[p][o] &&& v)
        ∧ (∀ j : Fin 128, j ≠ o → t.vault[p][j] = s.vault[p][j]) ∧ (∀ q : Fin 4, q ≠ p → t.vault[q] = s.vault[q])
        ∧ (vs ≠ [] → t.engine = { s.engine with job := some (.vault (.write p (o.val + 1) vs)), resumeLock := false })
        ∧ (vs = [] → t.Selected s.engine.preempted ∧ t.engine.resumeLock = false)
        ∧ (vs ≠ [] ∨ s.Proceeds s.staging → { t with vault := s.vault, engine := s.engine } = s))
    ∧ (∀ (r : Residue) (n : Nat), s.due (.vault (.erase p n)) = true →
      ∃ t, exec (.vaultErasePulse r) s = .next t ∧ t.array = s.array ∧ t.lockCells = s.lockCells
        ∧ t.vaultLocks = s.vaultLocks
        ∧ t.vault = eraseVaultPage s.vault p r ∧ (∀ q : Fin 4, q ≠ p → t.vault[q] = s.vault[q])
        ∧ (r = [] → ∀ j : Fin 128, t.vault[p][j] = 0xFF)
        ∧ (vaultErased t.vault p = true ↔ ∀ j : Fin 128, t.vault[p][j] = 0xFF)
        ∧ (r = [] ∨ 11 ≤ n → ∀ w, t.engine.job ≠ some (.vault w))
        ∧ (vaultErased t.vault p = true ∨ 11 ≤ n → t.Selected s.engine.preempted ∧ t.engine.resumeLock = false)
        ∧ (vaultErased t.vault p = false → n < 11 →
          t.engine = { s.engine with job := some (.vault (.erase p (n + 1))), resumeLock := false })
        ∧ ((vaultErased t.vault p = false ∧ n < 11) ∨ s.Proceeds s.staging →
          { t with vault := s.vault, engine := s.engine } = s))
    ∧ ∀ cell : Bool, s.due (.vault (.lock p)) = true →
      ∃ t, exec (.vaultLockStep cell) s = .next t ∧ t.vaultLocks[p] = true ∧ t.lockCells[p] = (s.lockCells[p] || cell)
        ∧ t.vault = s.vault ∧ t.array = s.array
        ∧ (∀ q : Fin 4, q ≠ p → t.vaultLocks[q] = s.vaultLocks[q] ∧ t.lockCells[q] = s.lockCells[q])
        ∧ t.Selected s.engine.preempted ∧ t.engine.resumeLock = false
        ∧ (s.Proceeds s.staging →
          { t with vaultLocks := s.vaultLocks, lockCells := s.lockCells, engine := s.engine } = s)

/-! ### FORMAT steps (chapter 8) -/

/-- FORMAT on a data segment: the first pulse makes it ERASING out of pool, chain and release list; a pulse that passes leads to the
free stage, the twelfth that does not to the retire write; a verified free stage below the threshold puts it at the pool tail, any
other leads to the retire write; a retire step puts it into the retired list. Once it is disposed of the job goes on with the next
higher segment that is neither retired nor RETIRE_PENDING, and after the last with anchor segment 1; the RETIRE_PENDING ones between
join the retired list in that same step without a pulse, with SEGMENT_RETIRED, and those before the first segment at the end of the
job's first step (log 29, the model's choice of the moment). The new count of an unknown one is one more than the highest known, or 1.
While the job runs, streams' records but for their chains, the ledger, the sync point and every side stay, and the engine state too
(R122 to R125, R157). -/
def Obligations.FormatSegmentStepsResult : Prop :=
  ∀ (s : State) (k : DataSeg) (b : Bool),
    (∀ (r : Residue) (n : Nat), s.due (.format b (.segment k (.pulse n))) = true → s.segments[k].header ≠ .retirePending →
      s.segments[k].location ≠ .retired →
      ∃ t, exec (.formatErasePulse r) s = .next t ∧ t.array = erasePulse s.array k.index r
        ∧ t.segments[k] = { s.segments[k] with location := .erasing, release := none } ∧ k ∉ t.pool
        ∧ (∀ i : StreamId, k ∉ t.streams[i].chain ∧ { t.streams[i] with chain := s.streams[i].chain } = s.streams[i])
        ∧ t.ledger = s.ledger ∧ t.poolBelow = s.poolBelow ∧ t.sync = s.sync ∧ t.engine.state = s.engine.state
        ∧ (b = true → (∀ j : DataSeg, j ≠ k → t.segments[j] = s.segments[j]) ∧ t.pool = s.pool.filter (· != k)
            ∧ t.eventLatch = s.eventLatch ∧ ∀ i : StreamId, t.streams[i].chain = s.streams[i].chain.filter (· != k))
        ∧ (b = false → s.PassesOver t k 0 ∧ t.pool = s.pool.filter (fun j => j != k && !s.passedOver 0 j)
            ∧ t.eventLatch.getLsbD 8 = (s.eventLatch.getLsbD 8 || (List.finRange 510).any (s.passedOver 0))
            ∧ ∀ i : StreamId, t.streams[i].chain = s.streams[i].chain.filter (fun j => j != k && !s.passedOver 0 j))
        ∧ (segmentErased t.array k.index = true → ∃ c, s.CountRaised k c
            ∧ t.engine = { s.engine with job := some (.format true (.segment k (.freeStage c))), resumeLock := false })
        ∧ (segmentErased t.array k.index = false → n < 11 → t.engine
            = { s.engine with job := some (.format true (.segment k (.pulse (n + 1)))), resumeLock := false })
        ∧ (segmentErased t.array k.index = false → 11 ≤ n → t.engine
            = { s.engine with job := some (.format true (.segment k (.retire 0x02 false))), resumeLock := false }))
    ∧ (∀ (p : Pulses) (c : Nat) (m : Memory) (ok : Bool), s.due (.format b (.segment k (.freeStage c))) = true →
      program s.array (freeStageItem k (some c)) p = (m, ok) →
      ∃ t, exec (.formatFreeStageStep p) s = .next t ∧ t.array = m ∧ t.segments[k].eraseCount = some c
        ∧ t.ledger = s.ledger ∧ t.poolBelow = s.poolBelow ∧ t.sync = s.sync ∧ t.engine.state = s.engine.state
        ∧ (∀ i : StreamId, { t.streams[i] with chain := s.streams[i].chain } = s.streams[i])
        ∧ (ok = true → c < 120000 → t.segments[k].location = .pool ∧ t.segments[k].header = .free ∧ k ∈ t.pool
            ∧ t.segments[k].owner = none ∧ t.segments[k].poisoned = false ∧ t.segments[k].bytesUsed = 0
            ∧ ((∀ j ∈ s.pool, s.segments[j].header ≠ .retirePending) → t.pool = s.pool ++ [k])
            ∧ t.pool = s.pool.filter (fun j => !s.passedOver (k.val + 1) j) ++ [k]
            ∧ (∀ i : StreamId, t.streams[i].chain = s.streams[i].chain.filter fun j => !s.passedOver (k.val + 1) j)
            ∧ t.eventLatch.getLsbD 8 = (s.eventLatch.getLsbD 8 || (List.finRange 510).any (s.passedOver (k.val + 1)))
            ∧ s.PassesOver t k (k.val + 1) ∧ s.FormatProceeds t (k.val + 1)
            ∧ ∃ w, t.engine.job = some (.format true w))
        ∧ (ok = false ∨ 120000 ≤ c →
            t.engine.job = some (.format true (.segment k (.retire (if ok then 0x01 else 0x02) true)))))
    ∧ ∀ (p : Pulses) (cause : Byte) (erased : Bool) (m : Memory) (ok : Bool),
      s.due (.format b (.segment k (.retire cause erased))) = true → program s.array (retireItem k cause) p = (m, ok) →
      ∃ t, exec (.formatRetireStep p) s = .next t ∧ t.array = m ∧ t.segments[k].location = .retired
        ∧ t.segments[k].header = (if ok then .retired else s.segments[k].header) ∧ t.eventLatch.getLsbD 8 = true
        ∧ t.ledger = s.ledger ∧ t.poolBelow = s.poolBelow ∧ t.sync = s.sync ∧ t.engine.state = s.engine.state
        ∧ (∀ i : StreamId, { t.streams[i] with chain := s.streams[i].chain } = s.streams[i])
        ∧ t.pool = s.pool.filter (fun j => !s.passedOver (k.val + 1) j)
        ∧ (∀ i : StreamId, t.streams[i].chain = s.streams[i].chain.filter fun j => !s.passedOver (k.val + 1) j)
        ∧ s.PassesOver t k (k.val + 1) ∧ s.FormatProceeds t (k.val + 1)
        ∧ ∃ w, t.engine.job = some (.format true w)

/-- FORMAT on the anchor segments: pulses on segment 1 until one passes, then on segment 0, then the image, captured at its first
unit (R158). A passing pulse counts. At the end of the job's first step the RETIRE_PENDING segments that no other segment precedes
join the retired list (log 29, the model's choice of the moment). A failed unit of the first attempt leads back to the erase of
segment 0 for a second; a twelfth failed pulse, or a failed unit of the second attempt, halts the ledger with LEDGER_HALT and ends the
job (R143, R144). Part 7 ends the job with the ledger of R135, unless the image does not record the guard of completion: then the
attempt begins again (R179; log 19, the model's choice). The image holds the default stream fields, low-water 8, the anchor erase counts and
the guard as FORMAT leaves it: a PERMANENT anchored mode keeps its locks, any other takes the default (R145, R158, R179). With or
without a halt every stream record takes its defaults, the guard
that of R179, the low-water is 8, the receipt and the sync point are gone, and the engine selects (R27). -/
def Obligations.FormatAnchorStepsResult : Prop :=
  (∀ s : State, s.formatCapture.generation = s.ledger.generation + 1 ∧ s.formatCapture.part = 0
    ∧ s.formatCapture.content.lowWater = 8 ∧ s.formatCapture.content.anchorErases = s.ledger.anchorErases
    ∧ s.formatCapture.content.records s.guard.formatted = true
    ∧ (∀ i : StreamId, s.formatCapture.content.streams[i] = {
        state := .idle, policy := .block, quota := 16, highWater := 16, backlog := 0, epoch := 0, frontier := 0 })
    ∧ (s.guard.anchored = .permanent → s.guard.formatted = { s.guard with working := .permanent })
    ∧ (s.guard.anchored ≠ .permanent →
      s.guard.formatted = { working := .opened, anchored := .opened, appendLocks := 0, formatInhibit := false }))
  ∧ ∀ (s : State), s.staging = [] →
    (∀ (b : Bool) (r : Residue) (n : Nat), s.due (.format b (.anchorErase n)) = true →
      ∃ t, exec (.formatAnchorErasePulse r) s = .next t ∧ t.array = erasePulse s.array 1 r
        ∧ (b = false → ∀ k : DataSeg, s.segments[k].header = .retirePending →
            (∀ j < k, s.segments[j].location = .retired ∨ s.segments[j].header = .retirePending) →
            t.segments[k].location = .retired)
        ∧ (b = true → t.segments = s.segments ∧ t.pool = s.pool)
        ∧ (segmentErased t.array 1 = true ∨ n < 11 →
            ∀ i : StreamId, { t.streams[i] with chain := s.streams[i].chain } = s.streams[i])
        ∧ (segmentErased t.array 1 = true → t.engine.job = some (.format true (.compactErase 1 0))
            ∧ t.ledger = { s.ledger with
                anchorErases := s.ledger.anchorErases.set 1 (min (s.ledger.anchorErases[1] + 1) 0xFFFFFE) })
        ∧ (segmentErased t.array 1 = false → n < 11 → t.engine.job = some (.format true (.anchorErase (n + 1)))
            ∧ t.ledger = s.ledger)
        ∧ (segmentErased t.array 1 = false → 11 ≤ n → t.eventLatch.getLsbD 15 = true
            ∧ s.FormatEnds t s.ledger.formatHalted))
    ∧ (∀ (r : Residue) (v n : Nat), s.due (.format true (.compactErase v n)) = true →
      ∃ t, exec (.formatAnchorErasePulse r) s = .next t ∧ t.array = erasePulse s.array 0 r ∧ t.segments = s.segments
        ∧ (segmentErased t.array 0 = true → t.engine.job = some (.format true (.compactCapture v)) ∧ t.streams = s.streams
            ∧ t.ledger = { s.ledger with
                anchorErases := s.ledger.anchorErases.set 0 (min (s.ledger.anchorErases[0] + 1) 0xFFFFFE) })
        ∧ (segmentErased t.array 0 = false → n < 11 → t.engine.job = some (.format true (.compactErase v (n + 1)))
            ∧ t.streams = s.streams ∧ t.ledger = s.ledger)
        ∧ (segmentErased t.array 0 = false → 11 ≤ n → t.eventLatch.getLsbD 15 = true
            ∧ s.FormatEnds t s.ledger.formatHalted))
    ∧ (∀ (p : Pulses) (v : Nat) (m : Memory), s.due (.format true (.compactCapture v)) = true →
      (program s.array (unitItem 0 0 s.formatCapture.fields) p = (m, true) →
        ∃ t, exec (.formatImageUnitStep p) s = .next t ∧ t.array = m ∧ t.streams = s.streams
          ∧ t.engine.job = some (.format true (.compactImage v))
          ∧ t.ledger = { s.ledger with
              captured := some { s.formatCapture with part := 1 }, imageNeeded := false
              pendingNotes := Vector.replicate 8 false })
      ∧ (program s.array (unitItem 0 0 s.formatCapture.fields) p = (m, false) →
        ∃ t, exec (.formatImageUnitStep p) s = .next t ∧ t.array = m
          ∧ (v = 1 → t.engine.job = some (.format true (.compactErase 2 0)) ∧ t.streams = s.streams
              ∧ t.ledger.captured = none ∧ t.ledger.imageNeeded = true)
          ∧ (v ≠ 1 → t.eventLatch.getLsbD 15 = true ∧ s.FormatEnds t s.ledger.formatHalted)))
    ∧ ∀ (p : Pulses) (v : Nat) (c : Captured) (m : Memory), s.due (.format true (.compactImage v)) = true →
      s.ledger.captured = some c →
      (c.part < 7 → program s.array (unitItem 0 c.part c.fields) p = (m, true) →
        ∃ t, exec (.formatImageUnitStep p) s = .next t ∧ t.array = m ∧ t.streams = s.streams
          ∧ t.engine.job = some (.format true (.compactImage v))
          ∧ t.ledger = { s.ledger with captured := some { c with part := c.part + 1 } })
      ∧ (c.part = 7 → c.content.records s.guard.formatted = true → program s.array (unitItem 0 7 c.fields) p = (m, true) →
        ∃ t, exec (.formatImageUnitStep p) s = .next t ∧ t.array = m
          ∧ s.FormatEnds t { current := some 0, nextFree := 8, generation := c.generation, imageNeeded := false
                             pendingNotes := Vector.replicate 8 false, captured := none
                             anchorErases := s.ledger.anchorErases, halted := false }
          ∧ t.eventLatch = s.eventLatch ∧ t.eventEnable = s.eventEnable
          ∧ (s.reclaim = [] → s.engine.preempted = none → t.engine.state = .idle ∧ t.engine.job = none))
      ∧ (c.part = 7 → c.content.records s.guard.formatted = false → program s.array (unitItem 0 7 c.fields) p = (m, true) →
        ∃ t, exec (.formatImageUnitStep p) s = .next t ∧ t.array = m ∧ t.streams = s.streams ∧ t.guard = s.guard
          ∧ t.engine.job = some (.format true (.compactErase v 0))
          ∧ t.ledger = { s.ledger with captured := none, imageNeeded := true })
      ∧ (program s.array (unitItem 0 c.part c.fields) p = (m, false) →
        ∃ t, exec (.formatImageUnitStep p) s = .next t ∧ t.array = m
          ∧ (v = 1 → t.engine.job = some (.format true (.compactErase 2 0)) ∧ t.streams = s.streams
              ∧ t.ledger = { s.ledger with captured := none, imageNeeded := true })
          ∧ (v ≠ 1 → t.eventLatch.getLsbD 15 = true ∧ s.FormatEnds t s.ledger.formatHalted))

end
end

