-- ==== Sys2Proof/Laws/State.lean ====
section
/-! SUPPORT. One lemma per field per update of the state: what an update leaves alone, and what it changes. -/

namespace Sys2Proof.Machine

open Sys2Proof

variable (s : State)

@[simp] theorem State.raise_power (e : Event) : (s.raise e).power = s.power := rfl
@[simp] theorem State.raise_port (e : Event) : (s.raise e).port = s.port := rfl
@[simp] theorem State.raise_streams (e : Event) : (s.raise e).streams = s.streams := rfl
@[simp] theorem State.raise_staging (e : Event) : (s.raise e).staging = s.staging := rfl
@[simp] theorem State.raise_segments (e : Event) : (s.raise e).segments = s.segments := rfl
@[simp] theorem State.raise_pool (e : Event) : (s.raise e).pool = s.pool := rfl
@[simp] theorem State.raise_reclaim (e : Event) : (s.raise e).reclaim = s.reclaim := rfl
@[simp] theorem State.raise_engine (e : Event) : (s.raise e).engine = s.engine := rfl
@[simp] theorem State.raise_ledger (e : Event) : (s.raise e).ledger = s.ledger := rfl
@[simp] theorem State.raise_sync (e : Event) : (s.raise e).sync = s.sync := rfl
@[simp] theorem State.raise_eventEnable (e : Event) : (s.raise e).eventEnable = s.eventEnable := rfl
@[simp] theorem State.raise_poolBelow (e : Event) : (s.raise e).poolBelow = s.poolBelow := rfl
@[simp] theorem State.raise_guard (e : Event) : (s.raise e).guard = s.guard := rfl
@[simp] theorem State.raise_lowWater (e : Event) : (s.raise e).lowWater = s.lowWater := rfl
@[simp] theorem State.raise_vaultLocks (e : Event) : (s.raise e).vaultLocks = s.vaultLocks := rfl
@[simp] theorem State.raise_array (e : Event) : (s.raise e).array = s.array := rfl
@[simp] theorem State.raise_vault (e : Event) : (s.raise e).vault = s.vault := rfl
@[simp] theorem State.raise_lockCells (e : Event) : (s.raise e).lockCells = s.lockCells := rfl
@[simp] theorem State.raise_freeIndex (e : Event) : (s.raise e).freeIndex = s.freeIndex := rfl
@[simp] theorem State.raise_pending (e : Event) : (s.raise e).pending = s.pending := rfl

@[simp] theorem State.updStream_power (i : StreamId) (f : Stream → Stream) : (s.updStream i f).power = s.power := rfl
@[simp] theorem State.updStream_port (i : StreamId) (f : Stream → Stream) : (s.updStream i f).port = s.port := rfl
@[simp] theorem State.updStream_staging (i : StreamId) (f : Stream → Stream) : (s.updStream i f).staging = s.staging := rfl
@[simp] theorem State.updStream_segments (i : StreamId) (f : Stream → Stream) : (s.updStream i f).segments = s.segments := rfl
@[simp] theorem State.updStream_pool (i : StreamId) (f : Stream → Stream) : (s.updStream i f).pool = s.pool := rfl
@[simp] theorem State.updStream_reclaim (i : StreamId) (f : Stream → Stream) : (s.updStream i f).reclaim = s.reclaim := rfl
@[simp] theorem State.updStream_engine (i : StreamId) (f : Stream → Stream) : (s.updStream i f).engine = s.engine := rfl
@[simp] theorem State.updStream_ledger (i : StreamId) (f : Stream → Stream) : (s.updStream i f).ledger = s.ledger := rfl
@[simp] theorem State.updStream_sync (i : StreamId) (f : Stream → Stream) : (s.updStream i f).sync = s.sync := rfl
@[simp] theorem State.updStream_eventLatch (i : StreamId) (f : Stream → Stream) : (s.updStream i f).eventLatch = s.eventLatch := rfl
@[simp] theorem State.updStream_eventEnable (i : StreamId) (f : Stream → Stream) : (s.updStream i f).eventEnable = s.eventEnable := rfl
@[simp] theorem State.updStream_poolBelow (i : StreamId) (f : Stream → Stream) : (s.updStream i f).poolBelow = s.poolBelow := rfl
@[simp] theorem State.updStream_guard (i : StreamId) (f : Stream → Stream) : (s.updStream i f).guard = s.guard := rfl
@[simp] theorem State.updStream_lowWater (i : StreamId) (f : Stream → Stream) : (s.updStream i f).lowWater = s.lowWater := rfl
@[simp] theorem State.updStream_vaultLocks (i : StreamId) (f : Stream → Stream) : (s.updStream i f).vaultLocks = s.vaultLocks := rfl
@[simp] theorem State.updStream_array (i : StreamId) (f : Stream → Stream) : (s.updStream i f).array = s.array := rfl
@[simp] theorem State.updStream_vault (i : StreamId) (f : Stream → Stream) : (s.updStream i f).vault = s.vault := rfl
@[simp] theorem State.updStream_lockCells (i : StreamId) (f : Stream → Stream) : (s.updStream i f).lockCells = s.lockCells := rfl
@[simp] theorem State.updStream_freeIndex (i : StreamId) (f : Stream → Stream) : (s.updStream i f).freeIndex = s.freeIndex := rfl
@[simp] theorem State.updStream_pending (i : StreamId) (f : Stream → Stream) : (s.updStream i f).pending = s.pending := rfl

@[simp] theorem State.updSegment_power (k : DataSeg) (f : Segment → Segment) : (s.updSegment k f).power = s.power := rfl
@[simp] theorem State.updSegment_port (k : DataSeg) (f : Segment → Segment) : (s.updSegment k f).port = s.port := rfl
@[simp] theorem State.updSegment_streams (k : DataSeg) (f : Segment → Segment) : (s.updSegment k f).streams = s.streams := rfl
@[simp] theorem State.updSegment_staging (k : DataSeg) (f : Segment → Segment) : (s.updSegment k f).staging = s.staging := rfl
@[simp] theorem State.updSegment_pool (k : DataSeg) (f : Segment → Segment) : (s.updSegment k f).pool = s.pool := rfl
@[simp] theorem State.updSegment_reclaim (k : DataSeg) (f : Segment → Segment) : (s.updSegment k f).reclaim = s.reclaim := rfl
@[simp] theorem State.updSegment_engine (k : DataSeg) (f : Segment → Segment) : (s.updSegment k f).engine = s.engine := rfl
@[simp] theorem State.updSegment_ledger (k : DataSeg) (f : Segment → Segment) : (s.updSegment k f).ledger = s.ledger := rfl
@[simp] theorem State.updSegment_sync (k : DataSeg) (f : Segment → Segment) : (s.updSegment k f).sync = s.sync := rfl
@[simp] theorem State.updSegment_eventLatch (k : DataSeg) (f : Segment → Segment) : (s.updSegment k f).eventLatch = s.eventLatch := rfl
@[simp] theorem State.updSegment_eventEnable (k : DataSeg) (f : Segment → Segment) : (s.updSegment k f).eventEnable = s.eventEnable := rfl
@[simp] theorem State.updSegment_poolBelow (k : DataSeg) (f : Segment → Segment) : (s.updSegment k f).poolBelow = s.poolBelow := rfl
@[simp] theorem State.updSegment_guard (k : DataSeg) (f : Segment → Segment) : (s.updSegment k f).guard = s.guard := rfl
@[simp] theorem State.updSegment_lowWater (k : DataSeg) (f : Segment → Segment) : (s.updSegment k f).lowWater = s.lowWater := rfl
@[simp] theorem State.updSegment_vaultLocks (k : DataSeg) (f : Segment → Segment) : (s.updSegment k f).vaultLocks = s.vaultLocks := rfl
@[simp] theorem State.updSegment_array (k : DataSeg) (f : Segment → Segment) : (s.updSegment k f).array = s.array := rfl
@[simp] theorem State.updSegment_vault (k : DataSeg) (f : Segment → Segment) : (s.updSegment k f).vault = s.vault := rfl
@[simp] theorem State.updSegment_lockCells (k : DataSeg) (f : Segment → Segment) : (s.updSegment k f).lockCells = s.lockCells := rfl
@[simp] theorem State.updSegment_freeIndex (k : DataSeg) (f : Segment → Segment) : (s.updSegment k f).freeIndex = s.freeIndex := rfl
@[simp] theorem State.updSegment_pending (k : DataSeg) (f : Segment → Segment) : (s.updSegment k f).pending = s.pending := rfl

@[simp] theorem State.notify_power (i : StreamId) (n : Notice) : (s.notify i n).power = s.power := rfl
@[simp] theorem State.notify_port (i : StreamId) (n : Notice) : (s.notify i n).port = s.port := rfl
@[simp] theorem State.notify_staging (i : StreamId) (n : Notice) : (s.notify i n).staging = s.staging := rfl
@[simp] theorem State.notify_segments (i : StreamId) (n : Notice) : (s.notify i n).segments = s.segments := rfl
@[simp] theorem State.notify_pool (i : StreamId) (n : Notice) : (s.notify i n).pool = s.pool := rfl
@[simp] theorem State.notify_reclaim (i : StreamId) (n : Notice) : (s.notify i n).reclaim = s.reclaim := rfl
@[simp] theorem State.notify_engine (i : StreamId) (n : Notice) : (s.notify i n).engine = s.engine := rfl
@[simp] theorem State.notify_ledger (i : StreamId) (n : Notice) : (s.notify i n).ledger = s.ledger := rfl
@[simp] theorem State.notify_sync (i : StreamId) (n : Notice) : (s.notify i n).sync = s.sync := rfl
@[simp] theorem State.notify_eventLatch (i : StreamId) (n : Notice) : (s.notify i n).eventLatch = s.eventLatch := rfl
@[simp] theorem State.notify_eventEnable (i : StreamId) (n : Notice) : (s.notify i n).eventEnable = s.eventEnable := rfl
@[simp] theorem State.notify_poolBelow (i : StreamId) (n : Notice) : (s.notify i n).poolBelow = s.poolBelow := rfl
@[simp] theorem State.notify_guard (i : StreamId) (n : Notice) : (s.notify i n).guard = s.guard := rfl
@[simp] theorem State.notify_lowWater (i : StreamId) (n : Notice) : (s.notify i n).lowWater = s.lowWater := rfl
@[simp] theorem State.notify_vaultLocks (i : StreamId) (n : Notice) : (s.notify i n).vaultLocks = s.vaultLocks := rfl
@[simp] theorem State.notify_array (i : StreamId) (n : Notice) : (s.notify i n).array = s.array := rfl
@[simp] theorem State.notify_vault (i : StreamId) (n : Notice) : (s.notify i n).vault = s.vault := rfl
@[simp] theorem State.notify_lockCells (i : StreamId) (n : Notice) : (s.notify i n).lockCells = s.lockCells := rfl
@[simp] theorem State.notify_freeIndex (i : StreamId) (n : Notice) : (s.notify i n).freeIndex = s.freeIndex := rfl
@[simp] theorem State.notify_pending (i : StreamId) (n : Notice) : (s.notify i n).pending = s.pending := rfl

@[simp] theorem State.setNote_power (i : StreamId) (b : Bool) : (s.setNote i b).power = s.power := rfl
@[simp] theorem State.setNote_port (i : StreamId) (b : Bool) : (s.setNote i b).port = s.port := rfl
@[simp] theorem State.setNote_streams (i : StreamId) (b : Bool) : (s.setNote i b).streams = s.streams := rfl
@[simp] theorem State.setNote_staging (i : StreamId) (b : Bool) : (s.setNote i b).staging = s.staging := rfl
@[simp] theorem State.setNote_segments (i : StreamId) (b : Bool) : (s.setNote i b).segments = s.segments := rfl
@[simp] theorem State.setNote_pool (i : StreamId) (b : Bool) : (s.setNote i b).pool = s.pool := rfl
@[simp] theorem State.setNote_reclaim (i : StreamId) (b : Bool) : (s.setNote i b).reclaim = s.reclaim := rfl
@[simp] theorem State.setNote_engine (i : StreamId) (b : Bool) : (s.setNote i b).engine = s.engine := rfl
@[simp] theorem State.setNote_sync (i : StreamId) (b : Bool) : (s.setNote i b).sync = s.sync := rfl
@[simp] theorem State.setNote_eventLatch (i : StreamId) (b : Bool) : (s.setNote i b).eventLatch = s.eventLatch := rfl
@[simp] theorem State.setNote_eventEnable (i : StreamId) (b : Bool) : (s.setNote i b).eventEnable = s.eventEnable := rfl
@[simp] theorem State.setNote_poolBelow (i : StreamId) (b : Bool) : (s.setNote i b).poolBelow = s.poolBelow := rfl
@[simp] theorem State.setNote_guard (i : StreamId) (b : Bool) : (s.setNote i b).guard = s.guard := rfl
@[simp] theorem State.setNote_lowWater (i : StreamId) (b : Bool) : (s.setNote i b).lowWater = s.lowWater := rfl
@[simp] theorem State.setNote_vaultLocks (i : StreamId) (b : Bool) : (s.setNote i b).vaultLocks = s.vaultLocks := rfl
@[simp] theorem State.setNote_array (i : StreamId) (b : Bool) : (s.setNote i b).array = s.array := rfl
@[simp] theorem State.setNote_vault (i : StreamId) (b : Bool) : (s.setNote i b).vault = s.vault := rfl
@[simp] theorem State.setNote_lockCells (i : StreamId) (b : Bool) : (s.setNote i b).lockCells = s.lockCells := rfl
@[simp] theorem State.setNote_freeIndex (i : StreamId) (b : Bool) : (s.setNote i b).freeIndex = s.freeIndex := rfl
@[simp] theorem State.setNote_pending (i : StreamId) (b : Bool) : (s.setNote i b).pending = s.pending := rfl

@[simp] theorem State.needImage_power : (s.needImage).power = s.power := rfl
@[simp] theorem State.needImage_port : (s.needImage).port = s.port := rfl
@[simp] theorem State.needImage_streams : (s.needImage).streams = s.streams := rfl
@[simp] theorem State.needImage_staging : (s.needImage).staging = s.staging := rfl
@[simp] theorem State.needImage_segments : (s.needImage).segments = s.segments := rfl
@[simp] theorem State.needImage_pool : (s.needImage).pool = s.pool := rfl
@[simp] theorem State.needImage_reclaim : (s.needImage).reclaim = s.reclaim := rfl
@[simp] theorem State.needImage_engine : (s.needImage).engine = s.engine := rfl
@[simp] theorem State.needImage_sync : (s.needImage).sync = s.sync := rfl
@[simp] theorem State.needImage_eventLatch : (s.needImage).eventLatch = s.eventLatch := rfl
@[simp] theorem State.needImage_eventEnable : (s.needImage).eventEnable = s.eventEnable := rfl
@[simp] theorem State.needImage_poolBelow : (s.needImage).poolBelow = s.poolBelow := rfl
@[simp] theorem State.needImage_guard : (s.needImage).guard = s.guard := rfl
@[simp] theorem State.needImage_lowWater : (s.needImage).lowWater = s.lowWater := rfl
@[simp] theorem State.needImage_vaultLocks : (s.needImage).vaultLocks = s.vaultLocks := rfl
@[simp] theorem State.needImage_array : (s.needImage).array = s.array := rfl
@[simp] theorem State.needImage_vault : (s.needImage).vault = s.vault := rfl
@[simp] theorem State.needImage_lockCells : (s.needImage).lockCells = s.lockCells := rfl
@[simp] theorem State.needImage_freeIndex : (s.needImage).freeIndex = s.freeIndex := rfl
@[simp] theorem State.needImage_pending : (s.needImage).pending = s.pending := rfl

@[simp] theorem State.updLedger_power (f : Ledger → Ledger) : (s.updLedger f).power = s.power := rfl
@[simp] theorem State.updLedger_port (f : Ledger → Ledger) : (s.updLedger f).port = s.port := rfl
@[simp] theorem State.updLedger_streams (f : Ledger → Ledger) : (s.updLedger f).streams = s.streams := rfl
@[simp] theorem State.updLedger_staging (f : Ledger → Ledger) : (s.updLedger f).staging = s.staging := rfl
@[simp] theorem State.updLedger_segments (f : Ledger → Ledger) : (s.updLedger f).segments = s.segments := rfl
@[simp] theorem State.updLedger_pool (f : Ledger → Ledger) : (s.updLedger f).pool = s.pool := rfl
@[simp] theorem State.updLedger_reclaim (f : Ledger → Ledger) : (s.updLedger f).reclaim = s.reclaim := rfl
@[simp] theorem State.updLedger_engine (f : Ledger → Ledger) : (s.updLedger f).engine = s.engine := rfl
@[simp] theorem State.updLedger_sync (f : Ledger → Ledger) : (s.updLedger f).sync = s.sync := rfl
@[simp] theorem State.updLedger_eventLatch (f : Ledger → Ledger) : (s.updLedger f).eventLatch = s.eventLatch := rfl
@[simp] theorem State.updLedger_eventEnable (f : Ledger → Ledger) : (s.updLedger f).eventEnable = s.eventEnable := rfl
@[simp] theorem State.updLedger_poolBelow (f : Ledger → Ledger) : (s.updLedger f).poolBelow = s.poolBelow := rfl
@[simp] theorem State.updLedger_guard (f : Ledger → Ledger) : (s.updLedger f).guard = s.guard := rfl
@[simp] theorem State.updLedger_lowWater (f : Ledger → Ledger) : (s.updLedger f).lowWater = s.lowWater := rfl
@[simp] theorem State.updLedger_vaultLocks (f : Ledger → Ledger) : (s.updLedger f).vaultLocks = s.vaultLocks := rfl
@[simp] theorem State.updLedger_array (f : Ledger → Ledger) : (s.updLedger f).array = s.array := rfl
@[simp] theorem State.updLedger_vault (f : Ledger → Ledger) : (s.updLedger f).vault = s.vault := rfl
@[simp] theorem State.updLedger_lockCells (f : Ledger → Ledger) : (s.updLedger f).lockCells = s.lockCells := rfl
@[simp] theorem State.updLedger_freeIndex (f : Ledger → Ledger) : (s.updLedger f).freeIndex = s.freeIndex := rfl
@[simp] theorem State.updLedger_pending (f : Ledger → Ledger) : (s.updLedger f).pending = s.pending := rfl

@[simp] theorem State.satisfy_power (p : SyncItem → Bool) : (s.satisfy p).power = s.power := rfl
@[simp] theorem State.satisfy_port (p : SyncItem → Bool) : (s.satisfy p).port = s.port := rfl
@[simp] theorem State.satisfy_streams (p : SyncItem → Bool) : (s.satisfy p).streams = s.streams := rfl
@[simp] theorem State.satisfy_staging (p : SyncItem → Bool) : (s.satisfy p).staging = s.staging := rfl
@[simp] theorem State.satisfy_segments (p : SyncItem → Bool) : (s.satisfy p).segments = s.segments := rfl
@[simp] theorem State.satisfy_pool (p : SyncItem → Bool) : (s.satisfy p).pool = s.pool := rfl
@[simp] theorem State.satisfy_reclaim (p : SyncItem → Bool) : (s.satisfy p).reclaim = s.reclaim := rfl
@[simp] theorem State.satisfy_engine (p : SyncItem → Bool) : (s.satisfy p).engine = s.engine := rfl
@[simp] theorem State.satisfy_ledger (p : SyncItem → Bool) : (s.satisfy p).ledger = s.ledger := rfl
@[simp] theorem State.satisfy_eventLatch (p : SyncItem → Bool) : (s.satisfy p).eventLatch = s.eventLatch := rfl
@[simp] theorem State.satisfy_eventEnable (p : SyncItem → Bool) : (s.satisfy p).eventEnable = s.eventEnable := rfl
@[simp] theorem State.satisfy_poolBelow (p : SyncItem → Bool) : (s.satisfy p).poolBelow = s.poolBelow := rfl
@[simp] theorem State.satisfy_guard (p : SyncItem → Bool) : (s.satisfy p).guard = s.guard := rfl
@[simp] theorem State.satisfy_lowWater (p : SyncItem → Bool) : (s.satisfy p).lowWater = s.lowWater := rfl
@[simp] theorem State.satisfy_vaultLocks (p : SyncItem → Bool) : (s.satisfy p).vaultLocks = s.vaultLocks := rfl
@[simp] theorem State.satisfy_array (p : SyncItem → Bool) : (s.satisfy p).array = s.array := rfl
@[simp] theorem State.satisfy_vault (p : SyncItem → Bool) : (s.satisfy p).vault = s.vault := rfl
@[simp] theorem State.satisfy_lockCells (p : SyncItem → Bool) : (s.satisfy p).lockCells = s.lockCells := rfl
@[simp] theorem State.satisfy_freeIndex (p : SyncItem → Bool) : (s.satisfy p).freeIndex = s.freeIndex := rfl
@[simp] theorem State.satisfy_pending (p : SyncItem → Bool) : (s.satisfy p).pending = s.pending := rfl

@[simp] theorem State.setJob_power (j : Job) : (s.setJob j).power = s.power := rfl
@[simp] theorem State.setJob_port (j : Job) : (s.setJob j).port = s.port := rfl
@[simp] theorem State.setJob_streams (j : Job) : (s.setJob j).streams = s.streams := rfl
@[simp] theorem State.setJob_staging (j : Job) : (s.setJob j).staging = s.staging := rfl
@[simp] theorem State.setJob_segments (j : Job) : (s.setJob j).segments = s.segments := rfl
@[simp] theorem State.setJob_pool (j : Job) : (s.setJob j).pool = s.pool := rfl
@[simp] theorem State.setJob_reclaim (j : Job) : (s.setJob j).reclaim = s.reclaim := rfl
@[simp] theorem State.setJob_ledger (j : Job) : (s.setJob j).ledger = s.ledger := rfl
@[simp] theorem State.setJob_sync (j : Job) : (s.setJob j).sync = s.sync := rfl
@[simp] theorem State.setJob_eventLatch (j : Job) : (s.setJob j).eventLatch = s.eventLatch := rfl
@[simp] theorem State.setJob_eventEnable (j : Job) : (s.setJob j).eventEnable = s.eventEnable := rfl
@[simp] theorem State.setJob_poolBelow (j : Job) : (s.setJob j).poolBelow = s.poolBelow := rfl
@[simp] theorem State.setJob_guard (j : Job) : (s.setJob j).guard = s.guard := rfl
@[simp] theorem State.setJob_lowWater (j : Job) : (s.setJob j).lowWater = s.lowWater := rfl
@[simp] theorem State.setJob_vaultLocks (j : Job) : (s.setJob j).vaultLocks = s.vaultLocks := rfl
@[simp] theorem State.setJob_array (j : Job) : (s.setJob j).array = s.array := rfl
@[simp] theorem State.setJob_vault (j : Job) : (s.setJob j).vault = s.vault := rfl
@[simp] theorem State.setJob_lockCells (j : Job) : (s.setJob j).lockCells = s.lockCells := rfl
@[simp] theorem State.setJob_freeIndex (j : Job) : (s.setJob j).freeIndex = s.freeIndex := rfl
@[simp] theorem State.setJob_pending (j : Job) : (s.setJob j).pending = s.pending := rfl

@[simp] theorem State.idle_power : (s.idle).power = s.power := rfl
@[simp] theorem State.idle_port : (s.idle).port = s.port := rfl
@[simp] theorem State.idle_streams : (s.idle).streams = s.streams := rfl
@[simp] theorem State.idle_staging : (s.idle).staging = s.staging := rfl
@[simp] theorem State.idle_segments : (s.idle).segments = s.segments := rfl
@[simp] theorem State.idle_pool : (s.idle).pool = s.pool := rfl
@[simp] theorem State.idle_reclaim : (s.idle).reclaim = s.reclaim := rfl
@[simp] theorem State.idle_ledger : (s.idle).ledger = s.ledger := rfl
@[simp] theorem State.idle_sync : (s.idle).sync = s.sync := rfl
@[simp] theorem State.idle_eventLatch : (s.idle).eventLatch = s.eventLatch := rfl
@[simp] theorem State.idle_eventEnable : (s.idle).eventEnable = s.eventEnable := rfl
@[simp] theorem State.idle_poolBelow : (s.idle).poolBelow = s.poolBelow := rfl
@[simp] theorem State.idle_guard : (s.idle).guard = s.guard := rfl
@[simp] theorem State.idle_lowWater : (s.idle).lowWater = s.lowWater := rfl
@[simp] theorem State.idle_vaultLocks : (s.idle).vaultLocks = s.vaultLocks := rfl
@[simp] theorem State.idle_array : (s.idle).array = s.array := rfl
@[simp] theorem State.idle_vault : (s.idle).vault = s.vault := rfl
@[simp] theorem State.idle_lockCells : (s.idle).lockCells = s.lockCells := rfl
@[simp] theorem State.idle_freeIndex : (s.idle).freeIndex = s.freeIndex := rfl
@[simp] theorem State.idle_pending : (s.idle).pending = s.pending := rfl

@[simp] theorem State.run_power (j : Job) : (s.run j).power = s.power := rfl
@[simp] theorem State.run_port (j : Job) : (s.run j).port = s.port := rfl
@[simp] theorem State.run_streams (j : Job) : (s.run j).streams = s.streams := rfl
@[simp] theorem State.run_staging (j : Job) : (s.run j).staging = s.staging := rfl
@[simp] theorem State.run_segments (j : Job) : (s.run j).segments = s.segments := rfl
@[simp] theorem State.run_pool (j : Job) : (s.run j).pool = s.pool := rfl
@[simp] theorem State.run_reclaim (j : Job) : (s.run j).reclaim = s.reclaim := rfl
@[simp] theorem State.run_ledger (j : Job) : (s.run j).ledger = s.ledger := rfl
@[simp] theorem State.run_sync (j : Job) : (s.run j).sync = s.sync := rfl
@[simp] theorem State.run_eventLatch (j : Job) : (s.run j).eventLatch = s.eventLatch := rfl
@[simp] theorem State.run_eventEnable (j : Job) : (s.run j).eventEnable = s.eventEnable := rfl
@[simp] theorem State.run_poolBelow (j : Job) : (s.run j).poolBelow = s.poolBelow := rfl
@[simp] theorem State.run_guard (j : Job) : (s.run j).guard = s.guard := rfl
@[simp] theorem State.run_lowWater (j : Job) : (s.run j).lowWater = s.lowWater := rfl
@[simp] theorem State.run_vaultLocks (j : Job) : (s.run j).vaultLocks = s.vaultLocks := rfl
@[simp] theorem State.run_array (j : Job) : (s.run j).array = s.array := rfl
@[simp] theorem State.run_vault (j : Job) : (s.run j).vault = s.vault := rfl
@[simp] theorem State.run_lockCells (j : Job) : (s.run j).lockCells = s.lockCells := rfl
@[simp] theorem State.run_freeIndex (j : Job) : (s.run j).freeIndex = s.freeIndex := rfl
@[simp] theorem State.run_pending (j : Job) : (s.run j).pending = s.pending := rfl

@[simp] theorem State.setStreamSides_power (i : StreamId) : (s.setStreamSides i).power = s.power := rfl
@[simp] theorem State.setStreamSides_port (i : StreamId) : (s.setStreamSides i).port = s.port := rfl
@[simp] theorem State.setStreamSides_staging (i : StreamId) : (s.setStreamSides i).staging = s.staging := rfl
@[simp] theorem State.setStreamSides_segments (i : StreamId) : (s.setStreamSides i).segments = s.segments := rfl
@[simp] theorem State.setStreamSides_pool (i : StreamId) : (s.setStreamSides i).pool = s.pool := rfl
@[simp] theorem State.setStreamSides_reclaim (i : StreamId) : (s.setStreamSides i).reclaim = s.reclaim := rfl
@[simp] theorem State.setStreamSides_engine (i : StreamId) : (s.setStreamSides i).engine = s.engine := rfl
@[simp] theorem State.setStreamSides_ledger (i : StreamId) : (s.setStreamSides i).ledger = s.ledger := rfl
@[simp] theorem State.setStreamSides_sync (i : StreamId) : (s.setStreamSides i).sync = s.sync := rfl
@[simp] theorem State.setStreamSides_eventLatch (i : StreamId) : (s.setStreamSides i).eventLatch = s.eventLatch := rfl
@[simp] theorem State.setStreamSides_eventEnable (i : StreamId) : (s.setStreamSides i).eventEnable = s.eventEnable := rfl
@[simp] theorem State.setStreamSides_poolBelow (i : StreamId) : (s.setStreamSides i).poolBelow = s.poolBelow := rfl
@[simp] theorem State.setStreamSides_guard (i : StreamId) : (s.setStreamSides i).guard = s.guard := rfl
@[simp] theorem State.setStreamSides_lowWater (i : StreamId) : (s.setStreamSides i).lowWater = s.lowWater := rfl
@[simp] theorem State.setStreamSides_vaultLocks (i : StreamId) : (s.setStreamSides i).vaultLocks = s.vaultLocks := rfl
@[simp] theorem State.setStreamSides_array (i : StreamId) : (s.setStreamSides i).array = s.array := rfl
@[simp] theorem State.setStreamSides_vault (i : StreamId) : (s.setStreamSides i).vault = s.vault := rfl
@[simp] theorem State.setStreamSides_lockCells (i : StreamId) : (s.setStreamSides i).lockCells = s.lockCells := rfl
@[simp] theorem State.setStreamSides_freeIndex (i : StreamId) : (s.setStreamSides i).freeIndex = s.freeIndex := rfl
@[simp] theorem State.setStreamSides_pending (i : StreamId) : (s.setStreamSides i).pending = s.pending := rfl

@[simp] theorem State.setPoolSide_power : (s.setPoolSide).power = s.power := rfl
@[simp] theorem State.setPoolSide_port : (s.setPoolSide).port = s.port := rfl
@[simp] theorem State.setPoolSide_streams : (s.setPoolSide).streams = s.streams := rfl
@[simp] theorem State.setPoolSide_staging : (s.setPoolSide).staging = s.staging := rfl
@[simp] theorem State.setPoolSide_segments : (s.setPoolSide).segments = s.segments := rfl
@[simp] theorem State.setPoolSide_pool : (s.setPoolSide).pool = s.pool := rfl
@[simp] theorem State.setPoolSide_reclaim : (s.setPoolSide).reclaim = s.reclaim := rfl
@[simp] theorem State.setPoolSide_engine : (s.setPoolSide).engine = s.engine := rfl
@[simp] theorem State.setPoolSide_ledger : (s.setPoolSide).ledger = s.ledger := rfl
@[simp] theorem State.setPoolSide_sync : (s.setPoolSide).sync = s.sync := rfl
@[simp] theorem State.setPoolSide_eventLatch : (s.setPoolSide).eventLatch = s.eventLatch := rfl
@[simp] theorem State.setPoolSide_eventEnable : (s.setPoolSide).eventEnable = s.eventEnable := rfl
@[simp] theorem State.setPoolSide_guard : (s.setPoolSide).guard = s.guard := rfl
@[simp] theorem State.setPoolSide_lowWater : (s.setPoolSide).lowWater = s.lowWater := rfl
@[simp] theorem State.setPoolSide_vaultLocks : (s.setPoolSide).vaultLocks = s.vaultLocks := rfl
@[simp] theorem State.setPoolSide_array : (s.setPoolSide).array = s.array := rfl
@[simp] theorem State.setPoolSide_vault : (s.setPoolSide).vault = s.vault := rfl
@[simp] theorem State.setPoolSide_lockCells : (s.setPoolSide).lockCells = s.lockCells := rfl
@[simp] theorem State.setPoolSide_freeIndex : (s.setPoolSide).freeIndex = s.freeIndex := rfl
@[simp] theorem State.setPoolSide_pending : (s.setPoolSide).pending = s.pending := rfl

@[simp] theorem State.programmed_power (w : ArrayWork) (p : Pulses) : (s.programmed w p).power = s.power := rfl
@[simp] theorem State.programmed_port (w : ArrayWork) (p : Pulses) : (s.programmed w p).port = s.port := rfl
@[simp] theorem State.programmed_streams (w : ArrayWork) (p : Pulses) : (s.programmed w p).streams = s.streams := rfl
@[simp] theorem State.programmed_staging (w : ArrayWork) (p : Pulses) : (s.programmed w p).staging = s.staging := rfl
@[simp] theorem State.programmed_segments (w : ArrayWork) (p : Pulses) : (s.programmed w p).segments = s.segments := rfl
@[simp] theorem State.programmed_pool (w : ArrayWork) (p : Pulses) : (s.programmed w p).pool = s.pool := rfl
@[simp] theorem State.programmed_reclaim (w : ArrayWork) (p : Pulses) : (s.programmed w p).reclaim = s.reclaim := rfl
@[simp] theorem State.programmed_engine (w : ArrayWork) (p : Pulses) : (s.programmed w p).engine = s.engine := rfl
@[simp] theorem State.programmed_ledger (w : ArrayWork) (p : Pulses) : (s.programmed w p).ledger = s.ledger := rfl
@[simp] theorem State.programmed_sync (w : ArrayWork) (p : Pulses) : (s.programmed w p).sync = s.sync := rfl
@[simp] theorem State.programmed_eventLatch (w : ArrayWork) (p : Pulses) : (s.programmed w p).eventLatch = s.eventLatch := rfl
@[simp] theorem State.programmed_eventEnable (w : ArrayWork) (p : Pulses) : (s.programmed w p).eventEnable = s.eventEnable := rfl
@[simp] theorem State.programmed_poolBelow (w : ArrayWork) (p : Pulses) : (s.programmed w p).poolBelow = s.poolBelow := rfl
@[simp] theorem State.programmed_guard (w : ArrayWork) (p : Pulses) : (s.programmed w p).guard = s.guard := rfl
@[simp] theorem State.programmed_lowWater (w : ArrayWork) (p : Pulses) : (s.programmed w p).lowWater = s.lowWater := rfl
@[simp] theorem State.programmed_vaultLocks (w : ArrayWork) (p : Pulses) : (s.programmed w p).vaultLocks = s.vaultLocks := rfl
@[simp] theorem State.programmed_vault (w : ArrayWork) (p : Pulses) : (s.programmed w p).vault = s.vault := rfl
@[simp] theorem State.programmed_lockCells (w : ArrayWork) (p : Pulses) : (s.programmed w p).lockCells = s.lockCells := rfl
@[simp] theorem State.programmed_freeIndex (w : ArrayWork) (p : Pulses) : (s.programmed w p).freeIndex = s.freeIndex := rfl
@[simp] theorem State.programmed_pending (w : ArrayWork) (p : Pulses) : (s.programmed w p).pending = s.pending := rfl

@[simp] theorem State.capture_power : (s.capture).power = s.power := rfl
@[simp] theorem State.capture_streams : (s.capture).streams = s.streams := rfl
@[simp] theorem State.capture_staging : (s.capture).staging = s.staging := rfl
@[simp] theorem State.capture_segments : (s.capture).segments = s.segments := rfl
@[simp] theorem State.capture_pool : (s.capture).pool = s.pool := rfl
@[simp] theorem State.capture_reclaim : (s.capture).reclaim = s.reclaim := rfl
@[simp] theorem State.capture_engine : (s.capture).engine = s.engine := rfl
@[simp] theorem State.capture_ledger : (s.capture).ledger = s.ledger := rfl
@[simp] theorem State.capture_sync : (s.capture).sync = s.sync := rfl
@[simp] theorem State.capture_eventLatch : (s.capture).eventLatch = s.eventLatch := rfl
@[simp] theorem State.capture_eventEnable : (s.capture).eventEnable = s.eventEnable := rfl
@[simp] theorem State.capture_poolBelow : (s.capture).poolBelow = s.poolBelow := rfl
@[simp] theorem State.capture_guard : (s.capture).guard = s.guard := rfl
@[simp] theorem State.capture_lowWater : (s.capture).lowWater = s.lowWater := rfl
@[simp] theorem State.capture_vaultLocks : (s.capture).vaultLocks = s.vaultLocks := rfl
@[simp] theorem State.capture_array : (s.capture).array = s.array := rfl
@[simp] theorem State.capture_vault : (s.capture).vault = s.vault := rfl
@[simp] theorem State.capture_lockCells : (s.capture).lockCells = s.lockCells := rfl
@[simp] theorem State.capture_freeIndex : (s.capture).freeIndex = s.freeIndex := rfl
@[simp] theorem State.capture_pending : (s.capture).pending = s.pending := rfl

@[simp] theorem State.formVerdict_power (c : OutputCommand) : (s.formVerdict c).power = s.power := rfl
@[simp] theorem State.formVerdict_streams (c : OutputCommand) : (s.formVerdict c).streams = s.streams := rfl
@[simp] theorem State.formVerdict_staging (c : OutputCommand) : (s.formVerdict c).staging = s.staging := rfl
@[simp] theorem State.formVerdict_segments (c : OutputCommand) : (s.formVerdict c).segments = s.segments := rfl
@[simp] theorem State.formVerdict_pool (c : OutputCommand) : (s.formVerdict c).pool = s.pool := rfl
@[simp] theorem State.formVerdict_reclaim (c : OutputCommand) : (s.formVerdict c).reclaim = s.reclaim := rfl
@[simp] theorem State.formVerdict_engine (c : OutputCommand) : (s.formVerdict c).engine = s.engine := rfl
@[simp] theorem State.formVerdict_ledger (c : OutputCommand) : (s.formVerdict c).ledger = s.ledger := rfl
@[simp] theorem State.formVerdict_sync (c : OutputCommand) : (s.formVerdict c).sync = s.sync := rfl
@[simp] theorem State.formVerdict_eventLatch (c : OutputCommand) : (s.formVerdict c).eventLatch = s.eventLatch := rfl
@[simp] theorem State.formVerdict_eventEnable (c : OutputCommand) : (s.formVerdict c).eventEnable = s.eventEnable := rfl
@[simp] theorem State.formVerdict_poolBelow (c : OutputCommand) : (s.formVerdict c).poolBelow = s.poolBelow := rfl
@[simp] theorem State.formVerdict_guard (c : OutputCommand) : (s.formVerdict c).guard = s.guard := rfl
@[simp] theorem State.formVerdict_lowWater (c : OutputCommand) : (s.formVerdict c).lowWater = s.lowWater := rfl
@[simp] theorem State.formVerdict_vaultLocks (c : OutputCommand) : (s.formVerdict c).vaultLocks = s.vaultLocks := rfl
@[simp] theorem State.formVerdict_array (c : OutputCommand) : (s.formVerdict c).array = s.array := rfl
@[simp] theorem State.formVerdict_vault (c : OutputCommand) : (s.formVerdict c).vault = s.vault := rfl
@[simp] theorem State.formVerdict_lockCells (c : OutputCommand) : (s.formVerdict c).lockCells = s.lockCells := rfl
@[simp] theorem State.formVerdict_freeIndex (c : OutputCommand) : (s.formVerdict c).freeIndex = s.freeIndex := rfl
@[simp] theorem State.formVerdict_pending (c : OutputCommand) : (s.formVerdict c).pending = s.pending := rfl

@[simp] theorem State.release_power (k : DataSeg) (c : ReleaseCond) : (s.release k c).power = s.power := rfl
@[simp] theorem State.release_port (k : DataSeg) (c : ReleaseCond) : (s.release k c).port = s.port := rfl
@[simp] theorem State.release_streams (k : DataSeg) (c : ReleaseCond) : (s.release k c).streams = s.streams := rfl
@[simp] theorem State.release_staging (k : DataSeg) (c : ReleaseCond) : (s.release k c).staging = s.staging := rfl
@[simp] theorem State.release_pool (k : DataSeg) (c : ReleaseCond) : (s.release k c).pool = s.pool := rfl
@[simp] theorem State.release_reclaim (k : DataSeg) (c : ReleaseCond) : (s.release k c).reclaim = s.reclaim := rfl
@[simp] theorem State.release_engine (k : DataSeg) (c : ReleaseCond) : (s.release k c).engine = s.engine := rfl
@[simp] theorem State.release_ledger (k : DataSeg) (c : ReleaseCond) : (s.release k c).ledger = s.ledger := rfl
@[simp] theorem State.release_sync (k : DataSeg) (c : ReleaseCond) : (s.release k c).sync = s.sync := rfl
@[simp] theorem State.release_eventLatch (k : DataSeg) (c : ReleaseCond) : (s.release k c).eventLatch = s.eventLatch := rfl
@[simp] theorem State.release_eventEnable (k : DataSeg) (c : ReleaseCond) : (s.release k c).eventEnable = s.eventEnable := rfl
@[simp] theorem State.release_poolBelow (k : DataSeg) (c : ReleaseCond) : (s.release k c).poolBelow = s.poolBelow := rfl
@[simp] theorem State.release_guard (k : DataSeg) (c : ReleaseCond) : (s.release k c).guard = s.guard := rfl
@[simp] theorem State.release_lowWater (k : DataSeg) (c : ReleaseCond) : (s.release k c).lowWater = s.lowWater := rfl
@[simp] theorem State.release_vaultLocks (k : DataSeg) (c : ReleaseCond) : (s.release k c).vaultLocks = s.vaultLocks := rfl
@[simp] theorem State.release_array (k : DataSeg) (c : ReleaseCond) : (s.release k c).array = s.array := rfl
@[simp] theorem State.release_vault (k : DataSeg) (c : ReleaseCond) : (s.release k c).vault = s.vault := rfl
@[simp] theorem State.release_lockCells (k : DataSeg) (c : ReleaseCond) : (s.release k c).lockCells = s.lockCells := rfl
@[simp] theorem State.release_freeIndex (k : DataSeg) (c : ReleaseCond) : (s.release k c).freeIndex = s.freeIndex := rfl
@[simp] theorem State.release_pending (k : DataSeg) (c : ReleaseCond) : (s.release k c).pending = s.pending := rfl

@[simp] theorem State.retire_power (k : DataSeg) : (s.retire k).power = s.power := rfl
@[simp] theorem State.retire_port (k : DataSeg) : (s.retire k).port = s.port := rfl
@[simp] theorem State.retire_streams (k : DataSeg) : (s.retire k).streams = s.streams := rfl
@[simp] theorem State.retire_staging (k : DataSeg) : (s.retire k).staging = s.staging := rfl
@[simp] theorem State.retire_pool (k : DataSeg) : (s.retire k).pool = s.pool := rfl
@[simp] theorem State.retire_reclaim (k : DataSeg) : (s.retire k).reclaim = s.reclaim := rfl
@[simp] theorem State.retire_engine (k : DataSeg) : (s.retire k).engine = s.engine := rfl
@[simp] theorem State.retire_ledger (k : DataSeg) : (s.retire k).ledger = s.ledger := rfl
@[simp] theorem State.retire_sync (k : DataSeg) : (s.retire k).sync = s.sync := rfl
@[simp] theorem State.retire_eventEnable (k : DataSeg) : (s.retire k).eventEnable = s.eventEnable := rfl
@[simp] theorem State.retire_poolBelow (k : DataSeg) : (s.retire k).poolBelow = s.poolBelow := rfl
@[simp] theorem State.retire_guard (k : DataSeg) : (s.retire k).guard = s.guard := rfl
@[simp] theorem State.retire_lowWater (k : DataSeg) : (s.retire k).lowWater = s.lowWater := rfl
@[simp] theorem State.retire_vaultLocks (k : DataSeg) : (s.retire k).vaultLocks = s.vaultLocks := rfl
@[simp] theorem State.retire_array (k : DataSeg) : (s.retire k).array = s.array := rfl
@[simp] theorem State.retire_vault (k : DataSeg) : (s.retire k).vault = s.vault := rfl
@[simp] theorem State.retire_lockCells (k : DataSeg) : (s.retire k).lockCells = s.lockCells := rfl
@[simp] theorem State.retire_freeIndex (k : DataSeg) : (s.retire k).freeIndex = s.freeIndex := rfl
@[simp] theorem State.retire_pending (k : DataSeg) : (s.retire k).pending = s.pending := rfl

@[simp] theorem State.toPool_power (k : DataSeg) : (s.toPool k).power = s.power := rfl
@[simp] theorem State.toPool_port (k : DataSeg) : (s.toPool k).port = s.port := rfl
@[simp] theorem State.toPool_streams (k : DataSeg) : (s.toPool k).streams = s.streams := rfl
@[simp] theorem State.toPool_staging (k : DataSeg) : (s.toPool k).staging = s.staging := rfl
@[simp] theorem State.toPool_reclaim (k : DataSeg) : (s.toPool k).reclaim = s.reclaim := rfl
@[simp] theorem State.toPool_engine (k : DataSeg) : (s.toPool k).engine = s.engine := rfl
@[simp] theorem State.toPool_ledger (k : DataSeg) : (s.toPool k).ledger = s.ledger := rfl
@[simp] theorem State.toPool_sync (k : DataSeg) : (s.toPool k).sync = s.sync := rfl
@[simp] theorem State.toPool_eventLatch (k : DataSeg) : (s.toPool k).eventLatch = s.eventLatch := rfl
@[simp] theorem State.toPool_eventEnable (k : DataSeg) : (s.toPool k).eventEnable = s.eventEnable := rfl
@[simp] theorem State.toPool_poolBelow (k : DataSeg) : (s.toPool k).poolBelow = s.poolBelow := rfl
@[simp] theorem State.toPool_guard (k : DataSeg) : (s.toPool k).guard = s.guard := rfl
@[simp] theorem State.toPool_lowWater (k : DataSeg) : (s.toPool k).lowWater = s.lowWater := rfl
@[simp] theorem State.toPool_vaultLocks (k : DataSeg) : (s.toPool k).vaultLocks = s.vaultLocks := rfl
@[simp] theorem State.toPool_array (k : DataSeg) : (s.toPool k).array = s.array := rfl
@[simp] theorem State.toPool_vault (k : DataSeg) : (s.toPool k).vault = s.vault := rfl
@[simp] theorem State.toPool_lockCells (k : DataSeg) : (s.toPool k).lockCells = s.lockCells := rfl
@[simp] theorem State.toPool_freeIndex (k : DataSeg) : (s.toPool k).freeIndex = s.freeIndex := rfl
@[simp] theorem State.toPool_pending (k : DataSeg) : (s.toPool k).pending = s.pending := rfl

@[simp] theorem State.unlist_power (k : DataSeg) : (s.unlist k).power = s.power := rfl
@[simp] theorem State.unlist_port (k : DataSeg) : (s.unlist k).port = s.port := rfl
@[simp] theorem State.unlist_staging (k : DataSeg) : (s.unlist k).staging = s.staging := rfl
@[simp] theorem State.unlist_segments (k : DataSeg) : (s.unlist k).segments = s.segments := rfl
@[simp] theorem State.unlist_engine (k : DataSeg) : (s.unlist k).engine = s.engine := rfl
@[simp] theorem State.unlist_ledger (k : DataSeg) : (s.unlist k).ledger = s.ledger := rfl
@[simp] theorem State.unlist_sync (k : DataSeg) : (s.unlist k).sync = s.sync := rfl
@[simp] theorem State.unlist_eventLatch (k : DataSeg) : (s.unlist k).eventLatch = s.eventLatch := rfl
@[simp] theorem State.unlist_eventEnable (k : DataSeg) : (s.unlist k).eventEnable = s.eventEnable := rfl
@[simp] theorem State.unlist_poolBelow (k : DataSeg) : (s.unlist k).poolBelow = s.poolBelow := rfl
@[simp] theorem State.unlist_guard (k : DataSeg) : (s.unlist k).guard = s.guard := rfl
@[simp] theorem State.unlist_lowWater (k : DataSeg) : (s.unlist k).lowWater = s.lowWater := rfl
@[simp] theorem State.unlist_vaultLocks (k : DataSeg) : (s.unlist k).vaultLocks = s.vaultLocks := rfl
@[simp] theorem State.unlist_array (k : DataSeg) : (s.unlist k).array = s.array := rfl
@[simp] theorem State.unlist_vault (k : DataSeg) : (s.unlist k).vault = s.vault := rfl
@[simp] theorem State.unlist_lockCells (k : DataSeg) : (s.unlist k).lockCells = s.lockCells := rfl
@[simp] theorem State.unlist_freeIndex (k : DataSeg) : (s.unlist k).freeIndex = s.freeIndex := rfl
@[simp] theorem State.unlist_pending (k : DataSeg) : (s.unlist k).pending = s.pending := rfl

@[simp] theorem State.takeForErase_power (k : DataSeg) : (s.takeForErase k).power = s.power := rfl
@[simp] theorem State.takeForErase_port (k : DataSeg) : (s.takeForErase k).port = s.port := rfl
@[simp] theorem State.takeForErase_streams (k : DataSeg) : (s.takeForErase k).streams = s.streams := rfl
@[simp] theorem State.takeForErase_staging (k : DataSeg) : (s.takeForErase k).staging = s.staging := rfl
@[simp] theorem State.takeForErase_pool (k : DataSeg) : (s.takeForErase k).pool = s.pool := rfl
@[simp] theorem State.takeForErase_engine (k : DataSeg) : (s.takeForErase k).engine = s.engine := rfl
@[simp] theorem State.takeForErase_ledger (k : DataSeg) : (s.takeForErase k).ledger = s.ledger := rfl
@[simp] theorem State.takeForErase_sync (k : DataSeg) : (s.takeForErase k).sync = s.sync := rfl
@[simp] theorem State.takeForErase_eventLatch (k : DataSeg) : (s.takeForErase k).eventLatch = s.eventLatch := rfl
@[simp] theorem State.takeForErase_eventEnable (k : DataSeg) : (s.takeForErase k).eventEnable = s.eventEnable := rfl
@[simp] theorem State.takeForErase_poolBelow (k : DataSeg) : (s.takeForErase k).poolBelow = s.poolBelow := rfl
@[simp] theorem State.takeForErase_guard (k : DataSeg) : (s.takeForErase k).guard = s.guard := rfl
@[simp] theorem State.takeForErase_lowWater (k : DataSeg) : (s.takeForErase k).lowWater = s.lowWater := rfl
@[simp] theorem State.takeForErase_vaultLocks (k : DataSeg) : (s.takeForErase k).vaultLocks = s.vaultLocks := rfl
@[simp] theorem State.takeForErase_array (k : DataSeg) : (s.takeForErase k).array = s.array := rfl
@[simp] theorem State.takeForErase_vault (k : DataSeg) : (s.takeForErase k).vault = s.vault := rfl
@[simp] theorem State.takeForErase_lockCells (k : DataSeg) : (s.takeForErase k).lockCells = s.lockCells := rfl
@[simp] theorem State.takeForErase_freeIndex (k : DataSeg) : (s.takeForErase k).freeIndex = s.freeIndex := rfl
@[simp] theorem State.takeForErase_pending (k : DataSeg) : (s.takeForErase k).pending = s.pending := rfl

theorem State.updStream_streams (i : StreamId) (f : Stream → Stream) :
    (s.updStream i f).streams = s.streams.set i.val (f s.streams[i]) := rfl

/-- The changed stream record. -/
@[simp] theorem State.updStream_same (i : StreamId) (f : Stream → Stream) :
    (s.updStream i f).streams[i] = f s.streams[i] := by
  simp [State.updStream]

/-- The other stream records. -/
theorem State.updStream_other (i j : StreamId) (f : Stream → Stream) (h : i ≠ j) :
    (s.updStream i f).streams[j] = s.streams[j] := by
  have h' : i.val ≠ j.val := fun e => h (Fin.ext e)
  simp [State.updStream, h']

/-- The changed entry of the segment table. -/
@[simp] theorem State.updSegment_same (k : DataSeg) (f : Segment → Segment) :
    (s.updSegment k f).segments[k] = f s.segments[k] := by
  simp [State.updSegment]

/-- The other entries of the segment table. -/
theorem State.updSegment_other (k j : DataSeg) (f : Segment → Segment) (h : k ≠ j) :
    (s.updSegment k f).segments[j] = s.segments[j] := by
  have h' : k.val ≠ j.val := fun e => h (Fin.ext e)
  simp [State.updSegment, h']

/-- An entry of a table built from a function. -/
@[simp] theorem tabulate_get {α : Type} {n : Nat} (f : Fin n → α) (i : Fin n) : (tabulate f)[i] = f i := by
  simp [tabulate]

end Sys2Proof.Machine
end

