-- ==== Sys2Proof/Laws/Kept.lean ====
section
/-! SUPPORT. What the operations of streams, segments, ledger, sync point and engine leave alone: the array and the vault, the
guard, the host port, the event enable, the power state and the queue. One lemma per operation. -/

namespace Sys2Proof.Machine

open Sys2Proof

/-- Everything that no operation on streams, segments, ledger, sync point, events or engine touches. -/
structure Kept (s t : State) : Prop where
  power : t.power = s.power
  port : t.port = s.port
  eventEnable : t.eventEnable = s.eventEnable
  guard : t.guard = s.guard
  lowWater : t.lowWater = s.lowWater
  vaultLocks : t.vaultLocks = s.vaultLocks
  array : t.array = s.array
  vault : t.vault = s.vault
  lockCells : t.lockCells = s.lockCells
  freeIndex : t.freeIndex = s.freeIndex
  pending : t.pending = s.pending

namespace Kept

theorem refl (s : State) : Kept s s := by constructor <;> rfl

theorem trans {s t u : State} (h : Kept s t) (h' : Kept t u) : Kept s u :=
  ⟨h'.power.trans h.power, h'.port.trans h.port, h'.eventEnable.trans h.eventEnable, h'.guard.trans h.guard,
   h'.lowWater.trans h.lowWater, h'.vaultLocks.trans h.vaultLocks, h'.array.trans h.array, h'.vault.trans h.vault,
   h'.lockCells.trans h.lockCells, h'.freeIndex.trans h.freeIndex, h'.pending.trans h.pending⟩

/-- Either of two states. -/
theorem ite {s t u : State} (b : Prop) [Decidable b] (h : Kept s t) (h' : Kept s u) : Kept s (if b then t else u) := by
  split <;> assumption

end Kept

variable (s : State)

theorem kept_raise (e : Event) : Kept s (s.raise e) := by constructor <;> rfl
theorem kept_updStream (i : StreamId) (f : Stream → Stream) : Kept s (s.updStream i f) := by constructor <;> rfl
theorem kept_updSegment (k : DataSeg) (f : Segment → Segment) : Kept s (s.updSegment k f) := by constructor <;> rfl
theorem kept_notify (i : StreamId) (n : Notice) : Kept s (s.notify i n) := by constructor <;> rfl
theorem kept_setNote (i : StreamId) (b : Bool) : Kept s (s.setNote i b) := by constructor <;> rfl
theorem kept_needImage : Kept s s.needImage := by constructor <;> rfl
theorem kept_updLedger (f : Ledger → Ledger) : Kept s (s.updLedger f) := by constructor <;> rfl
theorem kept_satisfy (p : SyncItem → Bool) : Kept s (s.satisfy p) := by constructor <;> rfl
theorem kept_setJob (j : Job) : Kept s (s.setJob j) := by constructor <;> rfl
theorem kept_idle : Kept s s.idle := by constructor <;> rfl
theorem kept_run (j : Job) : Kept s (s.run j) := by constructor <;> rfl
theorem kept_setStreamSides (i : StreamId) : Kept s (s.setStreamSides i) := by constructor <;> rfl
theorem kept_setPoolSide : Kept s s.setPoolSide := by constructor <;> rfl
theorem kept_setAllSides : Kept s s.setAllSides := by constructor <;> rfl
theorem kept_release (k : DataSeg) (c : ReleaseCond) : Kept s (s.release k c) := by constructor <;> rfl
theorem kept_retire (k : DataSeg) : Kept s (s.retire k) := by constructor <;> rfl
theorem kept_toPool (k : DataSeg) : Kept s (s.toPool k) := by constructor <;> rfl
theorem kept_unlist (k : DataSeg) : Kept s (s.unlist k) := by constructor <;> rfl

theorem kept_dispose (k : DataSeg) : Kept s (s.dispose k) := by
  unfold State.dispose
  exact Kept.ite _ (kept_retire s k) (by constructor <;> rfl)

theorem kept_evalHeld (i : StreamId) : Kept s (s.evalHeld i) := by
  unfold State.evalHeld
  dsimp only
  split
  · exact (kept_updStream s i _).trans ((kept_notify _ i _).trans (kept_raise _ _))
  · exact kept_updStream s i _

theorem kept_evalUnread (i : StreamId) : Kept s (s.evalUnread i) := by
  unfold State.evalUnread
  dsimp only
  split
  · exact (kept_updStream s i _).trans ((kept_notify _ i _).trans (kept_raise _ _))
  · exact kept_updStream s i _

theorem kept_evalPool (before : Int) : Kept s (s.evalPool before) := by
  unfold State.evalPool
  dsimp only
  split
  · exact Kept.refl s
  · split <;> constructor <;> rfl

theorem kept_releaseAll : ∀ (ks : List DataSeg) (s : State), Kept s (s.releaseAll ks)
  | [], s => Kept.refl s
  | k :: ks, s => (kept_release s k _).trans (kept_releaseAll ks _)

theorem kept_releaseCovered (i : StreamId) : Kept s (s.releaseCovered i) := by
  unfold State.releaseCovered
  dsimp only
  split
  · exact Kept.refl s
  · exact (kept_releaseAll _ s).trans ((kept_updStream _ i _).trans ((kept_setNote _ i _).trans (kept_evalHeld _ i)))

theorem kept_evalSync : Kept s s.evalSync := by
  unfold State.evalSync
  split
  · constructor <;> rfl
  · exact Kept.refl s

theorem kept_staging (f : List Entry → List Entry) : Kept s { s with staging := f s.staging } := by constructor <;> rfl

theorem kept_faultStream (i : StreamId) : Kept s (s.faultStream i) := by
  unfold State.faultStream
  dsimp only
  exact (kept_updStream s i _).trans ((kept_staging _ _).trans ((kept_notify _ i _).trans ((kept_raise _ _).trans
    ((kept_raise _ _).trans ((kept_satisfy _ _).trans ((kept_evalSync _).trans (kept_evalHeld _ i)))))))

theorem kept_reach : ∀ (n : Nat) (s : State), Kept s (s.reach n)
  | 0, s => Kept.refl s
  | n + 1, s => by
    unfold State.reach
    split
    · exact Kept.refl s
    · split
      · exact kept_setJob s _
      · exact Kept.ite _ (kept_setJob s _) ((kept_faultStream s _).trans (kept_reach n _))
      · exact Kept.ite _ ((kept_faultStream s _).trans (kept_reach n _)) (Kept.ite _ (kept_setJob s _) (kept_setJob s _))

theorem kept_reachHead : Kept s s.reachHead := kept_reach _ s

theorem kept_selectReclaim : Kept s s.selectReclaim := by
  unfold State.selectReclaim
  split
  · constructor <;> rfl
  · split
    · exact kept_run s _
    · exact kept_idle s

theorem kept_selectCommit : Kept s s.selectCommit := by
  unfold State.selectCommit
  dsimp only
  split
  · exact (kept_reachHead s).trans (kept_selectReclaim _)
  · exact (kept_reachHead s).trans (by constructor <;> rfl)

/-- Selection (R111) touches nothing but the engine and, where a stream faults, what R34 names. -/
theorem kept_select : Kept s s.select := by
  unfold State.select
  split
  · split
    · exact kept_run s _
    · exact kept_selectCommit s
  · exact kept_selectCommit s

theorem kept_selectIfIdle : Kept s s.selectIfIdle := by
  unfold State.selectIfIdle
  exact Kept.ite _ (kept_select s) (Kept.refl s)

theorem kept_yield : Kept s s.yield := by
  unfold State.yield
  split
  · exact Kept.ite _ ((kept_idle s).trans (kept_select _)) (Kept.refl s)
  · split
    · exact Kept.trans (t := { s with engine := _ }) (by constructor <;> rfl) (kept_select _)
    · exact Kept.refl s
  · exact Kept.refl s

/-- The end of a step (R111). -/
theorem kept_endStep (e : StepEnd) : Kept s (s.endStep e) := by
  have h0 : Kept s { s with engine := { s.engine with resumeLock := false } } := by constructor <;> rfl
  unfold State.endStep
  dsimp only
  split
  · exact h0.trans ((kept_idle _).trans (kept_select _))
  · split
    · exact h0.trans (by constructor <;> rfl)
    · exact h0.trans (kept_yield _)
  · exact h0

theorem kept_endRecord : Kept s s.endRecord := by
  unfold State.endRecord
  exact (kept_reachHead s).trans (kept_endStep _ _)

theorem kept_continueOpening (e : Entry) : Kept s (s.continueOpening e) := by
  unfold State.continueOpening
  exact Kept.ite _ ((kept_setJob s _).trans (kept_endStep _ _)) ((kept_faultStream s _).trans (kept_endRecord _))

theorem kept_withdraw (p : DataSeg) : Kept s (s.withdraw p) := by
  unfold State.withdraw
  exact Kept.trans (t := { s with pool := s.pool.tail }) (by constructor <;> rfl)
    ((kept_retire _ p).trans ((kept_setJob _ _).trans (kept_endStep _ _)))

theorem kept_joinChain (e : Entry) (p : DataSeg) : Kept s (s.joinChain e p) := by
  unfold State.joinChain
  constructor <;> rfl

theorem kept_placeAwaiting (i : StreamId) : Kept s (s.placeAwaiting i) := by constructor <;> rfl

theorem kept_opened (e : Entry) (p : DataSeg) : Kept s (s.opened e p) := by
  unfold State.opened
  dsimp only
  refine (kept_joinChain s e p).trans (Kept.trans ?_ ((kept_setJob _ _).trans (kept_endStep _ _)))
  split
  · exact kept_updStream _ _ _
  · exact (kept_placeAwaiting _ _).trans (kept_evalHeld _ _)
  · exact (kept_placeAwaiting _ _).trans (kept_evalHeld _ _)

theorem kept_committed (e : Entry) (k : DataSeg) : Kept s (s.committed e k) := by
  unfold State.committed
  dsimp only
  exact (kept_updStream s _ _).trans ((kept_updSegment _ k _).trans ((kept_staging _ List.tail).trans
    ((kept_evalUnread _ _).trans ((kept_satisfy _ _).trans ((kept_evalSync _).trans (kept_endRecord _))))))

theorem kept_recordFailed (e : Entry) (k : DataSeg) : Kept s (s.recordFailed e k) := by
  unfold State.recordFailed
  dsimp only
  exact (kept_updSegment s k fun g => { g with poisoned := true }).trans
    ((kept_staging _ fun l => { e with placement := .awaiting } :: markAwaiting e.stream l.tail).trans
      ((kept_setJob _ _).trans (kept_endStep _ _)))

theorem kept_takeForErase (k : DataSeg) : Kept s (s.takeForErase k) := by constructor <;> rfl
theorem kept_enterCount (k : DataSeg) (n : Nat) (ok : Bool) : Kept s (s.enterCount k n ok) := kept_updSegment s k _

theorem kept_endRetire (k : DataSeg) (e ok : Bool) : Kept s (s.endRetire k e ok) :=
  (kept_updSegment s k _).trans (kept_retire _ k)

theorem kept_captureImage (c : Captured) : Kept s (s.captureImage c) := by constructor <;> rfl

theorem kept_beginImage : Kept s s.beginImage := by
  unfold State.beginImage
  split
  · exact Kept.refl s
  · exact kept_captureImage s _

theorem kept_disposeAll : ∀ (ks : List DataSeg) (s : State), Kept s (ks.foldl (fun s k => s.dispose k) s)
  | [], s => Kept.refl s
  | k :: ks, s => (kept_dispose s k).trans (kept_disposeAll ks _)

/-- What a completed entry hands on (R140) touches streams, segments, collections, events and the sync point alone. -/
theorem kept_handOn (b : Bool) (r : Recorded) : Kept s (s.handOn b r) := by
  unfold State.handOn
  dsimp only
  exact Kept.trans (t := { s with streams := _ }) (by constructor <;> rfl)
    ((kept_disposeAll _ _).trans ((kept_satisfy _ _).trans (kept_evalSync _)))

theorem kept_completeImage (c : Captured) : Kept s (s.completeImage c) :=
  (kept_updLedger s _).trans (kept_handOn _ _ _)

theorem kept_chooseAgain : Kept s s.chooseAgain := by
  unfold State.chooseAgain
  split
  · exact (kept_setJob s _).trans (kept_endStep _ _)
  · exact kept_endStep s _

theorem kept_haltLedger : Kept s s.haltLedger := (kept_updLedger s _).trans (kept_raise _ _)
theorem kept_countAnchorErase (a : AnchorSeg) : Kept s (s.countAnchorErase a) := kept_updLedger s _
theorem kept_moveTo (a : AnchorSeg) : Kept s (s.moveTo a) := kept_updLedger s _

theorem kept_attemptFailed (a : AnchorSeg) (n : Nat) : Kept s (s.attemptFailed a n) := by
  unfold State.attemptFailed
  exact Kept.ite _ ((kept_updLedger s _).trans ((kept_setJob _ _).trans (kept_endStep _ _)))
    ((kept_haltLedger s).trans (kept_endStep _ _))

theorem kept_formatNext : ∀ (ks : List DataSeg) (s : State), Kept s (s.formatNext ks).1
  | [], s => Kept.refl s
  | k :: ks, s => by
    unfold State.formatNext
    split
    · exact kept_formatNext ks s
    · split
      · exact (kept_unlist s k).trans ((kept_retire _ k).trans (kept_formatNext ks _))
      · exact Kept.refl s

theorem kept_formatOn (b : Bool) (w : FormatWork) : Kept s (s.formatOn b w) := by
  unfold State.formatOn
  dsimp only
  refine Kept.trans ?_ ((kept_setJob _ _).trans (kept_endStep _ _))
  exact Kept.ite _ (Kept.refl s) (kept_formatNext _ s)

theorem kept_formatAfter (k : DataSeg) : Kept s (s.formatAfter k) := by
  unfold State.formatAfter
  dsimp only
  exact (kept_formatNext _ s).trans ((kept_setJob _ _).trans (kept_endStep _ _))

theorem kept_formatTake (k : DataSeg) : Kept s (s.formatTake k) := (kept_unlist s k).trans (kept_updSegment _ k _)

end Sys2Proof.Machine
end

