-- ==== Sys2Proof/Laws/Frames.lean ====
section
/-! SUPPORT. What a frame's row and a job step's row can do, said once: the cases of the frame operations of chapter 1 and of the
step operations of chapter 6. -/

namespace Sys2Proof.Machine

open Sys2Proof

variable {s t : State}

/-- All that an action frame can do (R12 to R14, R25). -/
theorem actionFrame_cases {k : FrameKind} {n : Nat} {body : State → State × OutcomeCode}
    (h : actionFrame k n body s = .next t) :
    t = s.endIgnored ∨ t = s ∨ (s.power = .recovering ∧ t = s.beginFrame.closeFrame k n .recovering)
      ∨ (Serving s ∧ t = (body s.beginFrame).1.closeFrame k n (body s.beginFrame).2) := by
  unfold actionFrame at h
  cases hp : s.power <;> simp only [hp] at h
  · exact .inl (by injection h with h; exact h.symm)
  · split at h
    · exact .inl (by injection h with h; exact h.symm)
    · split at h
      · exact .inr (.inl (by injection h with h; exact h.symm))
      · exact .inr (.inr (.inl ⟨rfl, by injection h with h; exact h.symm⟩))
  · split at h
    · exact .inl (by injection h with h; exact h.symm)
    · split at h
      · exact .inr (.inl (by injection h with h; exact h.symm))
      · rename_i hi hs
        refine .inr (.inr (.inr ⟨⟨hp, by simpa using hi, by simpa using hs⟩, ?_⟩))
        injection h with h
        exact h.symm
  · exact .inl (by injection h with h; exact h.symm)
  · exact .inl (by injection h with h; exact h.symm)

/-- An action frame of a serving device. -/
theorem actionFrame_serving {k : FrameKind} {n : Nat} {body : State → State × OutcomeCode} (h : Serving s) :
    actionFrame k n body s = .next ((body s.beginFrame).1.closeFrame k n (body s.beginFrame).2) := by
  simp [actionFrame, h.active, h.notIgnored, h.noVerdict]

/-- All that the end of a malformed frame can do (R8, R10, R11, R25). -/
theorem malformedFrame_cases {o : OutcomeCode} {n : Nat} (h : malformedFrame o n s = .next t) :
    t = s.endIgnored ∨ t = s ∨ t = s.beginFrame.closeFrame .plain n o := by
  unfold malformedFrame at h
  split at h
  · exact .inl (by injection h with h; exact h.symm)
  · exact .inl (by injection h with h; exact h.symm)
  · exact .inl (by injection h with h; exact h.symm)
  · split at h
    · exact .inl (by injection h with h; exact h.symm)
    · split at h
      · exact .inr (.inl (by injection h with h; exact h.symm))
      · exact .inr (.inr (by injection h with h; exact h.symm))

/-- All that the end of an output frame can do (R9, R10, R12, R25). -/
theorem outputFrame_cases {k : FrameKind} {c : OutputCommand} {n : Nat} {act : Snapshot → State → State}
    (h : outputFrame k c n act s = .next t) :
    t = s.endIgnored ∨ t = s ∨ t = s.beginFrame.closeFrame .plain n .frameLength
      ∨ (∃ v, s.port.snapshot = some v ∧ v.command = c ∧ t = s.outputEnd k n act v)
      ∨ (s.port.snapshot = none ∧
          t = (s.beginFrame.formVerdict c).outputEnd k n act (s.beginFrame.snapshotOf c)) := by
  unfold outputFrame at h
  split at h
  · split at h
    · exact .inl (by injection h with h; exact h.symm)
    · split at h
      · rename_i v hv
        split at h
        · rename_i hc
          exact .inr (.inr (.inr (.inl ⟨v, hv, hc, by injection h with h; exact h.symm⟩)))
        · exact .inr (.inl (by injection h with h; exact h.symm))
      · rename_i hv
        split at h
        · rcases malformedFrame_cases h with h | h | h
          · exact .inl h
          · exact .inr (.inl h)
          · exact .inr (.inr (.inl h))
        · exact .inr (.inr (.inr (.inr ⟨hv, by injection h with h; exact h.symm⟩)))
  · exact .inl (by injection h with h; exact h.symm)

/-- An output frame of a serving device that held the command's arguments. -/
theorem outputFrame_serving {k : FrameKind} {c : OutputCommand} {n : Nat} {act : Snapshot → State → State} (h : Serving s)
    (hn : c.argBytes + 1 ≤ n) : outputFrame k c n act s
      = .next ((s.beginFrame.formVerdict c).outputEnd k n act (s.beginFrame.snapshotOf c)) := by
  simp [outputFrame, h.active, h.notIgnored, h.noVerdict, Nat.not_lt.2 hn]

/-- All that a job step can do where its pool side is evaluated. -/
theorem stepWhen_cases {due : Bool} {act : State → State} (h : s.stepWhen due act = .next t) :
    t = s ∨ (due = true ∧ t = (act s).evalPool s.available) := by
  unfold State.stepWhen at h
  split at h
  · rename_i hd
    exact .inr ⟨hd, by injection h with h; exact h.symm⟩
  · exact .inl (by injection h with h; exact h.symm)

/-- All that a FORMAT step can do. -/
theorem formatWhen_cases {due : Bool} {act : State → State} (h : s.formatWhen due act = .next t) :
    t = s ∨ (due = true ∧ t = act s) := by
  unfold State.formatWhen at h
  split at h
  · rename_i hd
    exact .inr ⟨hd, by injection h with h; exact h.symm⟩
  · exact .inl (by injection h with h; exact h.symm)

/-- What a frame's end leaves alone: everything but the port and the event latch (R12). -/
structure PortOnly (s t : State) : Prop where
  power : t.power = s.power
  streams : t.streams = s.streams
  staging : t.staging = s.staging
  segments : t.segments = s.segments
  pool : t.pool = s.pool
  reclaim : t.reclaim = s.reclaim
  engine : t.engine = s.engine
  ledger : t.ledger = s.ledger
  sync : t.sync = s.sync
  eventEnable : t.eventEnable = s.eventEnable
  poolBelow : t.poolBelow = s.poolBelow
  guard : t.guard = s.guard
  lowWater : t.lowWater = s.lowWater
  vaultLocks : t.vaultLocks = s.vaultLocks
  array : t.array = s.array
  vault : t.vault = s.vault
  lockCells : t.lockCells = s.lockCells
  freeIndex : t.freeIndex = s.freeIndex
  pending : t.pending = s.pending

theorem portOnly_refl (s : State) : PortOnly s s := by constructor <;> rfl

theorem portOnly_trans {s t u : State} (h : PortOnly s t) (h' : PortOnly t u) : PortOnly s u :=
  ⟨h'.power.trans h.power, h'.streams.trans h.streams, h'.staging.trans h.staging, h'.segments.trans h.segments,
   h'.pool.trans h.pool, h'.reclaim.trans h.reclaim, h'.engine.trans h.engine, h'.ledger.trans h.ledger,
   h'.sync.trans h.sync, h'.eventEnable.trans h.eventEnable, h'.poolBelow.trans h.poolBelow, h'.guard.trans h.guard,
   h'.lowWater.trans h.lowWater, h'.vaultLocks.trans h.vaultLocks, h'.array.trans h.array, h'.vault.trans h.vault,
   h'.lockCells.trans h.lockCells, h'.freeIndex.trans h.freeIndex, h'.pending.trans h.pending⟩

theorem portOnly_raiseIf (s : State) (b : Bool) (e : Event) : PortOnly s (s.raiseIf b e) := by
  unfold State.raiseIf
  split <;> constructor <;> rfl

theorem portOnly_endIgnored (s : State) : PortOnly s s.endIgnored := by constructor <;> rfl
theorem portOnly_capture (s : State) : PortOnly s s.capture := by constructor <;> rfl
theorem portOnly_formVerdict (s : State) (c : OutputCommand) : PortOnly s (s.formVerdict c) := by constructor <;> rfl

theorem portOnly_beginFrame (s : State) : PortOnly s s.beginFrame := by
  unfold State.beginFrame
  split
  · exact portOnly_capture s
  · exact portOnly_refl s

/-- The end of a frame changes the port, and raises FRAME_ERROR at most (R12). -/
theorem portOnly_closeFrame (s : State) (k : FrameKind) (n : Nat) (o : OutcomeCode) : PortOnly s (s.closeFrame k n o) := by
  unfold State.closeFrame
  exact portOnly_trans (t := { s with port := _ }) (by constructor <;> rfl) (portOnly_raiseIf _ _ _)

/-- The state in which a frame's body runs differs from the state before in the port alone. -/
theorem beginFrame_eventLatch (s : State) : s.beginFrame.eventLatch = s.eventLatch := by
  unfold State.beginFrame
  split <;> rfl

/-- The latch before a frame's SEL falling is the one its body sees (R18, R20). -/
theorem beginFrame_armLatch (s : State) : s.beginFrame.port.armLatch = s.port.armLatch := by
  unfold State.beginFrame
  split <;> rfl

/-- The outcome that a frame leaves where it is recorded (R12). -/
@[simp] theorem closeFrame_outcome (s : State) (n : Nat) (o : OutcomeCode) :
    (s.closeFrame .plain n o).port.outcome = o := by
  unfold State.closeFrame State.raiseIf
  split <;> rfl

/-- The state in which a frame's body runs is the state before with another port (R1, R12). -/
theorem beginFrame_eq (s : State) : s.beginFrame = { s with port := s.beginFrame.port } := by
  unfold State.beginFrame
  split <;> rfl

theorem beginFrame_resetEnable (s : State) : s.beginFrame.port.resetEnable = s.port.resetEnable := by
  unfold State.beginFrame
  split <;> rfl

theorem beginFrame_outcome (s : State) : s.beginFrame.port.outcome = s.port.outcome := by
  unfold State.beginFrame
  split <;> rfl

theorem beginFrame_receipt (s : State) : s.beginFrame.port.receipt = s.port.receipt := by
  unfold State.beginFrame
  split <;> rfl

/-- The end of a plain frame without FRAME_ERROR leaves `framePort` in the port, and nothing else changes (R12). -/
theorem closeFrame_plain {s u : State} {n : Nat} {o : OutcomeCode} (ho : o.isFrameError = false)
    (hu : u.port = s.beginFrame.port) : u.closeFrame .plain n o = { u with port := s.framePort n o false false } := by
  simp [State.closeFrame, State.raiseIf, ho, State.framePort, FrameKind.recorded, FrameKind.latch, FrameKind.enable, hu]

/-- A plain action frame of a serving device whose body leaves the port (R12). -/
theorem actionFrame_plain {s u : State} {n : Nat} {o : OutcomeCode} {body : State → State × OutcomeCode} (h : Serving s)
    (hb : body s.beginFrame = (u, o)) (ho : o.isFrameError = false) (hu : u.port = s.beginFrame.port) :
    actionFrame .plain n body s = .next { u with port := s.framePort n o false false } := by
  rw [actionFrame_serving h, hb, closeFrame_plain ho hu]

/-- A plain action frame that is refused (R12). -/
theorem actionFrame_refused {s : State} {n : Nat} {o : OutcomeCode} {body : State → State × OutcomeCode} (h : Serving s)
    (hb : body s.beginFrame = (s.beginFrame, o)) (ho : o.isFrameError = false) :
    actionFrame .plain n body s = .next { s with port := s.framePort n o false false } := by
  rw [actionFrame_plain h hb ho rfl, beginFrame_eq s]

/-- A stream argument below 8 names its stream. -/
theorem streamOf_of_toNat {b : Byte} {i : StreamId} (h : b.toNat = i.val) : streamOf b = some i := by
  unfold streamOf
  have := i.isLt
  simp [h]

end Sys2Proof.Machine
end

