-- ==== Sys2Proof/Laws/Memory.lean ====
section
/-! SUPPORT. The array: every operation keeps the canonical form, a read after a write, what a program sequence and an erase
pulse can change. -/

namespace Sys2Proof.Machine

open Sys2Proof

/-! ### Reading and writing one byte -/

theorem risesFrom_mono {m : Memory} : ∀ {n k : Nat}, Memory.risesFrom n m = true → k ≤ n → Memory.risesFrom k m = true := by
  intro n k h hk
  cases m with
  | nil => rfl
  | cons c m =>
    simp only [Memory.risesFrom, Bool.and_eq_true, decide_eq_true_eq] at h ⊢
    exact ⟨by omega, h.2⟩

/-- Below the first listed address nothing is listed. -/
theorem readByte_below : ∀ {m : Memory} {n a : Nat}, Memory.risesFrom n m = true → a < n → readByte m a = erasedByte
  | [], _, _, _, _ => rfl
  | (b, w) :: m, n, a, h, ha => by
    simp only [Memory.risesFrom, Bool.and_eq_true, decide_eq_true_eq] at h
    simp only [readByte]
    rw [if_neg (by omega)]
    exact readByte_below h.2 (by omega)

theorem insertByte_rises : ∀ {m : Memory} {n a : Nat} {v : Byte}, Memory.risesFrom n m = true → n ≤ a →
    Memory.risesFrom n (insertByte a v m) = true
  | [], n, a, v, _, ha => by
    simp only [insertByte]
    split
    · rfl
    · simp [Memory.risesFrom, ha]
  | (b, w) :: m, n, a, v, h, ha => by
    have h' := h
    simp only [Memory.risesFrom, Bool.and_eq_true, decide_eq_true_eq] at h
    simp only [insertByte]
    split
    · split
      · exact h'
      · simp only [Memory.risesFrom, Bool.and_eq_true, decide_eq_true_eq]
        exact ⟨ha, by omega, h.2⟩
    · split
      · split
        · exact risesFrom_mono h.2 (by omega)
        · simp only [Memory.risesFrom, Bool.and_eq_true, decide_eq_true_eq]
          refine ⟨ha, ?_⟩
          rename_i e _
          subst e
          exact h.2
      · simp only [Memory.risesFrom, Bool.and_eq_true, decide_eq_true_eq]
        exact ⟨h.1, insertByte_rises h.2 (by omega)⟩

/-- A read after a write (canonical memory): the value at its address, what was there elsewhere. -/
theorem readByte_insertByte : ∀ {m : Memory} {n a b : Nat} {v : Byte}, Memory.risesFrom n m = true →
    readByte (insertByte a v m) b = if b = a then v else readByte m b
  | [], n, a, b, v, _ => by
    simp only [insertByte]
    split
    · rename_i e
      subst e
      simp [readByte]
    · simp only [readByte]
      split <;> split <;> first | rfl | omega
  | (c, w) :: m, n, a, b, v, h => by
    have hm := h
    simp only [Memory.risesFrom, Bool.and_eq_true, decide_eq_true_eq] at h
    simp only [insertByte]
    by_cases hac : a < c
    · rw [if_pos hac]
      by_cases hv : v = erasedByte
      · rw [if_pos hv]
        by_cases hb : b = a
        · rw [if_pos hb, hv, hb]
          exact readByte_below (n := c) (by simp [Memory.risesFrom, h.2]) hac
        · rw [if_neg hb]
      · rw [if_neg hv]
        simp only [readByte]
        by_cases hb : a = b
        · subst hb; simp
        · simp [hb, Ne.symm hb]
    · rw [if_neg hac]
      by_cases hac' : a = c
      · rw [if_pos hac']
        subst hac'
        by_cases hv : v = erasedByte
        · rw [if_pos hv]
          by_cases hb : b = a
          · rw [if_pos hb, hv, hb]
            exact readByte_below h.2 (by omega)
          · simp only [readByte]
            rw [if_neg hb, if_neg (fun e => hb e.symm)]
        · rw [if_neg hv]
          simp only [readByte]
          by_cases hb : b = a
          · simp [hb]
          · simp [hb, Ne.symm hb]
      · rw [if_neg hac']
        simp only [readByte]
        by_cases hcb : c = b
        · rw [if_pos hcb, if_pos hcb, if_neg (by omega)]
        · rw [if_neg hcb, if_neg hcb]
          exact readByte_insertByte h.2

theorem mem_insertByte {c : Host.Cell} : ∀ {m : Memory} {a : Nat} {v : Byte}, c ∈ insertByte a v m →
    c ∈ m ∨ (c = (a, v) ∧ v ≠ erasedByte)
  | [], a, v, h => by
    simp only [insertByte] at h
    split at h
    · simp at h
    · rename_i hv
      simp at h
      exact Or.inr ⟨h, hv⟩
  | (b, w) :: m, a, v, h => by
    simp only [insertByte] at h
    split at h
    · split at h
      · exact Or.inl h
      · rename_i hv
        rcases List.mem_cons.1 h with h | h
        · exact Or.inr ⟨h, hv⟩
        · exact Or.inl h
    · split at h
      · split at h
        · exact Or.inl (List.mem_cons_of_mem _ h)
        · rename_i hv
          rcases List.mem_cons.1 h with h | h
          · exact Or.inr ⟨h, hv⟩
          · exact Or.inl (List.mem_cons_of_mem _ h)
      · rcases List.mem_cons.1 h with h | h
        · exact Or.inl (h ▸ List.mem_cons_self)
        · rcases mem_insertByte h with h | h
          · exact Or.inl (List.mem_cons_of_mem _ h)
          · exact Or.inr h

/-- The canonical form as a proposition. -/
theorem wf_iff {m : Memory} : m.wf = true ↔
    Memory.risesFrom 0 m = true ∧ ∀ c ∈ m, c.1 < Config.arrayBytes ∧ c.2 ≠ erasedByte := by
  simp [Memory.wf]

/-- The array after reset has the canonical form. -/
theorem wf_nil : Memory.wf [] = true := rfl

/-- A write keeps the canonical form. -/
theorem writeByte_wf {m : Memory} {a : Nat} {v : Byte} (h : m.wf = true) : (writeByte m a v).wf = true := by
  unfold writeByte
  split
  · rename_i ha
    rw [wf_iff] at h ⊢
    refine ⟨insertByte_rises h.1 (Nat.zero_le _), fun c hc => ?_⟩
    rcases mem_insertByte hc with hc | ⟨rfl, hv⟩
    · exact h.2 c hc
    · exact ⟨ha, hv⟩
  · exact h

/-- A read after a write. -/
theorem readByte_writeByte {m : Memory} {a b : Nat} {v : Byte} (h : m.wf = true) :
    readByte (writeByte m a v) b = if b = a ∧ a < Config.arrayBytes then v else readByte m b := by
  unfold writeByte
  split
  · rename_i ha
    rw [readByte_insertByte (wf_iff.1 h).1]
    simp [ha]
  · rename_i ha
    simp [ha]

/-! ### Program sequences (R110) -/

/-- All that programming the addresses of a list can do to the array: the canonical form stays, every other byte stays, and
bits are only cleared. -/
structure Programs (as : List Nat) (m m' : Memory) : Prop where
  wf : m.wf = true → m'.wf = true
  outside : m.wf = true → ∀ b, b ∉ as → readByte m' b = readByte m b
  clears : m.wf = true → ∀ b, readByte m' b &&& readByte m b = readByte m' b

theorem Programs.refl (as : List Nat) (m : Memory) : Programs as m m :=
  ⟨id, fun _ _ _ => rfl, fun _ _ => by simp⟩

theorem Programs.trans {as : List Nat} {m m' m'' : Memory} (h : Programs as m m') (h' : Programs as m' m'') :
    Programs as m m'' := by
  refine ⟨fun w => h'.wf (h.wf w), fun w b hb => (h'.outside (h.wf w) b hb).trans (h.outside w b hb), fun w b => ?_⟩
  have h1 := h'.clears (h.wf w) b
  have h2 := h.clears w b
  rw [← h1, BitVec.and_assoc, h2]

theorem Programs.mono {as bs : List Nat} {m m' : Memory} (h : Programs as m m') (hs : ∀ a ∈ as, a ∈ bs) :
    Programs bs m m' :=
  ⟨h.wf, fun w b hb => h.outside w b fun hb' => hb (hs b hb'), h.clears⟩

/-- One byte that only loses bits. -/
theorem programs_writeByte (m : Memory) (a : Nat) (x : Byte) : Programs [a] m (writeByte m a (readByte m a &&& x)) := by
  refine ⟨writeByte_wf, fun w b hb => ?_, fun w b => ?_⟩
  · rw [readByte_writeByte w, if_neg]
    simp at hb
    exact fun h => hb h.1
  · rw [readByte_writeByte w]
    split
    · rename_i h
      rw [h.1, BitVec.and_assoc, BitVec.and_comm x, ← BitVec.and_assoc, BitVec.and_self]
    · simp

/-- One pulse on some cells. -/
theorem programs_pulseCells : ∀ (m : Memory) (cells : List Host.Cell) (resist : List Byte),
    Programs (cells.map fun c => c.1) m (pulseCells m cells resist)
  | m, [], _ => Programs.refl _ m
  | m, (a, t) :: cs, resist => by
    simp only [pulseCells]
    refine Programs.trans ((programs_writeByte m a _).mono ?_) ((programs_pulseCells _ cs resist.tail).mono ?_)
    · intro b hb
      simp at hb
      simp [hb]
    · intro b hb
      exact List.mem_cons_of_mem _ hb

/-- The addresses of an item. -/
def Item.addresses (i : Item) : List Nat := (i.body ++ i.mark).map fun c => c.1

theorem programs_body (m : Memory) (item : Item) (r : List Byte) : Programs item.addresses m (pulseCells m item.body r) :=
  (programs_pulseCells m item.body r).mono fun a ha => by
    simp only [Item.addresses, List.map_append, List.mem_append]
    exact Or.inl ha

theorem programs_mark (m : Memory) (item : Item) (r : List Byte) : Programs item.addresses m (pulseCells m item.mark r) :=
  (programs_pulseCells m item.mark r).mono fun a ha => by
    simp only [Item.addresses, List.map_append, List.mem_append]
    exact Or.inr ha

theorem programs_loop (item : Item) : ∀ (n : Nat) (verified : Bool) (m : Memory) (p : Pulses),
    Programs item.addresses m (programLoop item n verified m p).1
  | 0, _, m, _ => Programs.refl _ m
  | n + 1, false, m, p => by
    simp only [programLoop]
    exact (programs_body m item _).trans (programs_loop item n _ _ _)
  | n + 1, true, m, p => by
    simp only [programLoop]
    split
    · exact programs_mark m item _
    · exact (programs_mark m item _).trans (programs_loop item n _ _ _)

/-- All that a program sequence can do to the array (R110). -/
theorem programs_program (m : Memory) (item : Item) (p : Pulses) : Programs item.addresses m (program m item p).1 :=
  programs_loop item _ _ m p

theorem programs_cutLoop (item : Item) : ∀ (verified : Bool) (m : Memory) (p : Pulses),
    Programs item.addresses m (cutLoop item verified m p)
  | _, m, [] => by
    simp only [cutLoop]
    exact Programs.refl _ m
  | false, m, p :: ps => by
    simp only [cutLoop]
    exact (programs_body m item _).trans (programs_cutLoop item _ _ ps)
  | true, m, p :: ps => by
    simp only [cutLoop]
    split
    · exact programs_mark m item _
    · exact (programs_mark m item _).trans (programs_cutLoop item _ _ ps)

/-- All that a program sequence cut short can do to the array (R159). -/
theorem programs_cutProgram (m : Memory) (item : Item) (p : Pulses) : Programs item.addresses m (cutProgram m item p) :=
  programs_cutLoop item _ m _

/-! ### Erase pulses (R110) -/

theorem filter_rises (p : Host.Cell → Bool) : ∀ {m : Memory} {n : Nat}, Memory.risesFrom n m = true →
    Memory.risesFrom n (m.filter p) = true
  | [], _, _ => rfl
  | (b, w) :: m, n, h => by
    simp only [Memory.risesFrom, Bool.and_eq_true, decide_eq_true_eq] at h
    simp only [List.filter_cons]
    split
    · simp only [Memory.risesFrom, Bool.and_eq_true, decide_eq_true_eq]
      exact ⟨h.1, filter_rises p h.2⟩
    · exact filter_rises p (risesFrom_mono h.2 (by omega))

/-- Leaving some bytes out keeps the canonical form. -/
theorem filter_wf (p : Host.Cell → Bool) {m : Memory} (h : m.wf = true) : Memory.wf (m.filter p) = true := by
  rw [wf_iff] at h ⊢
  exact ⟨filter_rises p h.1, fun c hc => h.2 c (List.mem_filter.1 hc).1⟩

theorem writeResidue_wf (base : Nat) : ∀ (r : Residue) {m : Memory}, m.wf = true → (writeResidue base r m).wf = true
  | [], _, h => h
  | (o, v) :: r, m, h => by
    simp only [writeResidue]
    apply writeResidue_wf base r
    split
    · exact writeByte_wf h
    · exact h

/-- An erase pulse keeps the canonical form. -/
theorem erasePulse_wf {m : Memory} {index : Nat} {r : Residue} (h : m.wf = true) : (erasePulse m index r).wf = true :=
  writeResidue_wf _ r (filter_wf _ h)

theorem readByte_filter (p : Host.Cell → Bool) (b : Nat) : ∀ (m : Memory), (∀ c ∈ m, c.1 = b → p c = true) →
    readByte (m.filter p) b = readByte m b
  | [], _ => rfl
  | (a, w) :: m, h => by
    simp only [List.filter_cons]
    split
    · simp only [readByte]
      rw [readByte_filter p b m fun c hc => h c (List.mem_cons_of_mem _ hc)]
    · rename_i hp
      simp only [readByte]
      rw [if_neg fun e => hp (h (a, w) List.mem_cons_self e)]
      exact readByte_filter p b m fun c hc => h c (List.mem_cons_of_mem _ hc)

theorem readByte_writeResidue (index b : Nat) (hb : b / Config.segmentBytes ≠ index) : ∀ (r : Residue) {m : Memory},
    m.wf = true → readByte (writeResidue (segmentBase index) r m) b = readByte m b
  | [], _, _ => rfl
  | (o, v) :: r, m, h => by
    simp only [writeResidue]
    split
    · rename_i ho
      rw [readByte_writeResidue index b hb r (writeByte_wf h), readByte_writeByte h, if_neg]
      rintro ⟨rfl, -⟩
      apply hb
      unfold segmentBase Config.segmentBytes at *
      omega
    · exact readByte_writeResidue index b hb r h

/-- An erase pulse leaves every other segment alone (R110). -/
theorem readByte_erasePulse {m : Memory} {index b : Nat} {r : Residue} (h : m.wf = true)
    (hb : b / Config.segmentBytes ≠ index) : readByte (erasePulse m index r) b = readByte m b := by
  unfold erasePulse
  rw [readByte_writeResidue index b hb r (filter_wf _ h), readByte_filter]
  intro c _ hc
  simp [hc, hb]

end Sys2Proof.Machine
end

