-- ==== Sys2Proof/Laws/Recovery.lean ====
section
/-! SUPPORT. What is written into an anchor segment is what the recovery scan reads there: units, images and notes (R131 to R134,
R148). -/

namespace Sys2Proof.Machine
open Sys2Proof

@[simp] theorem byteOf_toNat (n : Nat) : (byteOf n).toNat = n % 256 := by simp [byteOf]

theorem byteOf_byte (b : Byte) : byteOf b.toNat = b := by simp [byteOf]

theorem fromBE_be16 {n : Nat} (h : n < 65536) : fromBE (be16 n) = n := by simp [fromBE, be16]; omega
theorem fromBE_be24 {n : Nat} (h : n < 16777216) : fromBE (be24 n) = n := by simp [fromBE, be24]; omega
theorem fromBE_be32 {n : Nat} (h : n < 4294967296) : fromBE (be32 n) = n := by simp [fromBE, be32]; omega

theorem crc16_lt (bs : List Byte) : crc16 bs < 65536 := (bs.foldl crcByte 0xFFFF).isLt

/-- A stream's anchored fields read back as they were written (R132, R134). -/
theorem parseStreamPart_streamPart {x : StreamImage} {rest : List Byte} (hs : x.state ≠ .faulted)
    (hq : 1 ≤ x.quota ∧ x.quota ≤ 510) (hh : 1 ≤ x.highWater ∧ x.highWater ≤ x.quota) (hb : x.backlog ≤ 65535)
    (he : x.epoch ≤ 0xFFFFFFFF) (hf : x.frontier ≤ 0xFFFFFFFE) : parseStreamPart (streamPart x ++ rest) = some x := by
  obtain ⟨state, policy, quota, highWater, backlog, epoch, frontier⟩ := x
  have e0 : contentField (streamPart ⟨state, policy, quota, highWater, backlog, epoch, frontier⟩ ++ rest) 0 1 = (streamStateCode state).toNat := by
    simp [contentField, streamPart, fromBE]
  have e1 : contentField (streamPart ⟨state, policy, quota, highWater, backlog, epoch, frontier⟩ ++ rest) 1 1 = (policyCode policy).toNat := by
    simp [contentField, streamPart, fromBE]
  have e2 : contentField (streamPart ⟨state, policy, quota, highWater, backlog, epoch, frontier⟩ ++ rest) 2 2 = quota :=
    (show _ = fromBE (be16 quota) by simp [contentField, streamPart, be16]).trans (fromBE_be16 (by simp at hq; omega))
  have e4 : contentField (streamPart ⟨state, policy, quota, highWater, backlog, epoch, frontier⟩ ++ rest) 4 2 = highWater :=
    (show _ = fromBE (be16 highWater) by simp [contentField, streamPart, be16]).trans (fromBE_be16 (by simp at hq hh; omega))
  have e6 : contentField (streamPart ⟨state, policy, quota, highWater, backlog, epoch, frontier⟩ ++ rest) 6 2 = backlog :=
    (show _ = fromBE (be16 backlog) by simp [contentField, streamPart, be16]).trans (fromBE_be16 (by simp at hb; omega))
  have e8 : contentField (streamPart ⟨state, policy, quota, highWater, backlog, epoch, frontier⟩ ++ rest) 8 4 = epoch :=
    (show _ = fromBE (be32 epoch) by simp [contentField, streamPart, be16, be32]).trans (fromBE_be32 (by simp at he; omega))
  have e12 : contentField (streamPart ⟨state, policy, quota, highWater, backlog, epoch, frontier⟩ ++ rest) 12 4 = frontier :=
    (show _ = fromBE (be32 frontier) by simp [contentField, streamPart, be16, be32]).trans (fromBE_be32 (by simp at hf; omega))
  unfold parseStreamPart
  rw [e0, e1, e2, e4, e6, e8, e12]
  have hc : 1 ≤ quota ∧ quota ≤ 510 ∧ 1 ≤ highWater ∧ highWater ≤ quota ∧ frontier ≤ Config.lastSequence :=
    ⟨hq.1, hq.2, hh.1, hh.2, hf⟩
  cases state <;> cases policy <;> first | exact absurd rfl hs | simp [streamStateCode, policyCode, hc]

theorem streamPart_length (x : StreamImage) : (streamPart x).length = 16 := by simp [streamPart, be16, be32]

/-- The device-wide fields of a part follow its stream's fields (R132). -/
theorem contentField_devicePart (c : ImageContent) (k : StreamId) (o n : Nat) :
    contentField (imagePart c k) (16 + o) n = contentField (devicePart c k.val) o n := by
  simp [contentField, imagePart, List.drop_append, streamPart_length, List.drop_eq_nil_of_le]

/-- The parts of an image in order (R132). -/
def imageParts (c : ImageContent) : List (List Byte) := (List.finRange 8).map (imagePart c)

/-- An image reads back as it was written (R132, R134). -/
theorem parseImage_imageParts {c : ImageContent} (h : c.InRange) : parseImage (imageParts c) = some c := by
  have hp : ∀ k : StreamId, parseStreamPart ((imageParts c).getD k.val []) = some c.streams[k] := by
    intro k
    have : (imageParts c).getD k.val [] = imagePart c k := by simp [imageParts, List.getD]
    rw [this]
    exact parseStreamPart_streamPart (h.state k) (h.quota k) (h.highWater k) (h.backlog k) (h.epoch k) (h.frontier k)
  have g0 : (imageParts c).getD 0 [] = imagePart c 0 := by simp [imageParts, List.getD]
  have g1 : (imageParts c).getD 1 [] = imagePart c 1 := by simp [imageParts, List.getD]
  have d0 : contentField (imagePart c 0) 16 1 = (lockModeCode c.lockMode).toNat := by
    rw [contentField_devicePart c 0 0 1]; simp [devicePart, contentField, fromBE]
  have d1 : contentField (imagePart c 0) 17 1 = c.appendLocks.toNat := by
    rw [contentField_devicePart c 0 1 1]; simp [devicePart, contentField, fromBE]
  have d2 : contentField (imagePart c 0) 18 1 = (flagCode c.formatInhibit).toNat := by
    rw [contentField_devicePart c 0 2 1]; simp [devicePart, contentField, fromBE]
  have d3 : contentField (imagePart c 0) 19 1 = c.lowWater := by
    rw [contentField_devicePart c 0 3 1]
    have := h.lowWater.2
    simp [devicePart, contentField, fromBE]; omega
  have d4 : contentField (imagePart c 1) 16 3 = c.anchorErases[0] := by
    rw [contentField_devicePart c 1 0 3]
    have := h.anchorErases 0
    exact (show _ = fromBE (be24 c.anchorErases[0]) by simp [devicePart, contentField, be24]).trans (fromBE_be24 (by simp at this; omega))
  have d5 : contentField (imagePart c 1) 19 3 = c.anchorErases[1] := by
    rw [contentField_devicePart c 1 3 3]
    have := h.anchorErases 1
    exact (show _ = fromBE (be24 c.anchorErases[1]) by simp [devicePart, contentField, be24]).trans (fromBE_be24 (by simp at this; omega))
  have hl := h.lockMode
  have a0 := h.anchorErases 0
  have a1 := h.anchorErases 1
  have hw := h.lowWater
  unfold parseImage
  have q0 := hp 0; have q1 := hp 1; have q2 := hp 2; have q3 := hp 3
  have q4 := hp 4; have q5 := hp 5; have q6 := hp 6; have q7 := hp 7
  simp only [Fin.val_zero, Fin.isValue, show (1 : StreamId).val = 1 from rfl, show (2 : StreamId).val = 2 from rfl, show (3 : StreamId).val = 3 from rfl, show (4 : StreamId).val = 4 from rfl, show (5 : StreamId).val = 5 from rfl, show (6 : StreamId).val = 6 from rfl, show (7 : StreamId).val = 7 from rfl] at q0 q1 q2 q3 q4 q5 q6 q7
  rw [g0] at q0
  rw [g1] at q1
  simp only [q0, q1, q2, q3, q4, q5, q6, q7, g0, g1, d0, d1, d2, d3, d4, d5, byteOf_byte]
  have hcond : 1 ≤ c.lowWater ∧ c.lowWater ≤ 64 ∧ c.anchorErases[0] ≤ Config.maxAnchorErases ∧ c.anchorErases[1] ≤ Config.maxAnchorErases :=
    ⟨hw.1, hw.2, a0, a1⟩
  have hm : parseLockMode (lockModeCode c.lockMode).toNat = some c.lockMode := by
    cases hx : c.lockMode <;> first | rfl | exact absurd hx hl
  have hfl : parseFlag (flagCode c.formatInhibit).toNat = some c.formatInhibit := by cases c.formatInhibit <;> rfl
  simp only [hm, hfl, Option.bind_eq_bind, Option.bind_some, if_pos hcond]
  have v8 : #v[c.streams[(0 : StreamId)], c.streams[(1 : StreamId)], c.streams[(2 : StreamId)], c.streams[(3 : StreamId)],
      c.streams[(4 : StreamId)], c.streams[(5 : StreamId)], c.streams[(6 : StreamId)], c.streams[(7 : StreamId)]] = c.streams := by
    apply Vector.ext
    intro i hi
    have : i = 0 ∨ i = 1 ∨ i = 2 ∨ i = 3 ∨ i = 4 ∨ i = 5 ∨ i = 6 ∨ i = 7 := by omega
    rcases this with rfl | rfl | rfl | rfl | rfl | rfl | rfl | rfl <;> rfl
  have v2 : #v[c.anchorErases[0], c.anchorErases[1]] = c.anchorErases := by
    apply Vector.ext
    intro i hi
    have : i = 0 ∨ i = 1 := by omega
    rcases this with rfl | rfl <;> rfl
  rw [v8, v2]

theorem length_unitFields (kind part : Byte) (g : Word32) {content : List Byte} (h : content.length = 22) :
    (unitFields kind part g content).length = 28 := by simp [unitFields, be32, h]

/-- A unit reads back as it was written (R131, R134). -/
theorem parseUnit_unitBytes {kind part : Byte} {g : Word32} {content : List Byte} (h : content.length = 22)
    (hk : (kind = 1 ∧ part.toNat < 8) ∨ (kind = 2 ∧ part = 0)) :
    parseUnit (unitBytes (unitFields kind part g content)) = some { kind, part, generation := g, content } := by
  have hl := length_unitFields kind part g h
  have t28 : (unitBytes (unitFields kind part g content)).take 28 = unitFields kind part g content := by
    simp [unitBytes, List.append_assoc, ← hl]
  have d28 : ((unitBytes (unitFields kind part g content)).drop 28).take 2 = be16 (crc16 (unitFields kind part g content)) := by
    have : (unitBytes (unitFields kind part g content)).drop 28 = be16 (crc16 (unitFields kind part g content)) ++ [0, 0] := by
      simp [unitBytes, List.append_assoc, ← hl]
    simp [this, be16]
  have d30 : (unitBytes (unitFields kind part g content)).drop 30 = [0, 0] := by
    have : (unitFields kind part g content ++ be16 (crc16 (unitFields kind part g content))).length = 30 := by
      simp [hl, be16]
    simp [unitBytes, ← this, -List.append_assoc]
  have b0 : (unitBytes (unitFields kind part g content)).getD 0 0xFF = kind := by simp [unitBytes, unitFields]
  have b1 : (unitBytes (unitFields kind part g content)).getD 1 0xFF = part := by simp [unitBytes, unitFields]
  have dg : ((unitBytes (unitFields kind part g content)).drop 2).take 4 = be32 g.toNat := by
    simp [unitBytes, unitFields, be32]
  have dc : ((unitBytes (unitFields kind part g content)).drop 6).take 22 = content := by
    simp [unitBytes, unitFields, be32, ← h]
  unfold parseUnit
  simp only [t28, d28, d30, b0, b1, dg, dc, fromBE_be16 (crc16_lt _), fromBE_be32 g.isLt, hk, true_and, if_true]
  simp

/-! ### An anchor segment that holds one image and at most one note -/

theorem readBytes_segmentCells (m : Memory) (index : Nat) : ∀ (n a : Nat), (∀ b, a ≤ b → b < a + n → b / Config.segmentBytes = index) →
    readBytes (segmentCells m index) a n = readBytes m a n := by
  intro n
  induction n with
  | zero => intro a _; rfl
  | succ n ih =>
    intro a h
    unfold readBytes
    rw [ih (a + 1) fun b h1 h2 => h b (by omega) (by omega)]
    congr 1
    exact readByte_filter _ _ _ fun c _ hc => by
      have := h a (Nat.le_refl _) (by omega)
      simp [hc, this]

theorem imageAt_some {units : List (Option RawUnit)} {p : Nat} {f : FoundImage} (h : imageAt units p = some f) :
    ∃ u, units[p]? = some (some u) ∧ u.kind = 1 ∧ u.part = 0 := by
  unfold imageAt at h
  split at h
  · rename_i u us hd
    refine ⟨u, ?_, ?_⟩
    · have := congrArg List.head? hd
      simpa [List.head?_drop] using this
    · split at h
      · unfold imageRun at h
        split at h
        · rename_i hc
          exact ⟨hc.1, by have := hc.2.1; exact BitVec.eq_of_toNat_eq (by simpa using this)⟩
        · simp at h
      · cases h
  · cases h

theorem foldl_or_none {α : Type} (g : Nat → Option α) : ∀ (l : List Nat) (b : Option α), (∀ p ∈ l, g p = none) →
    l.foldl (fun best p => (g p).or best) b = b := by
  intro l
  induction l with
  | nil => intro b _; rfl
  | cons p l ih =>
    intro b h
    simp only [List.foldl_cons, h p List.mem_cons_self, Option.none_or]
    exact ih b fun q hq => h q (List.mem_cons_of_mem _ hq)

/-- A byte that does not read FFh is listed. -/
theorem mem_of_readByte {a : Nat} : ∀ {m : Memory}, readByte m a ≠ erasedByte → (a, readByte m a) ∈ m
  | [], h => absurd rfl h
  | (b, w) :: m, h => by
    unfold readByte at h ⊢
    split
    · rename_i hb
      simp [hb]
    · rename_i hb
      rw [if_neg hb] at h
      exact List.mem_cons_of_mem _ (mem_of_readByte h)

theorem getElem?_readBytes (m : Memory) : ∀ (n a k : Nat), k < n → (readBytes m a n)[k]? = some (readByte m (a + k))
  | 0, _, _, h => absurd h (Nat.not_lt_zero _)
  | n + 1, a, 0, _ => rfl
  | n + 1, a, k + 1, h => by
    have := getElem?_readBytes m n (a + 1) k (Nat.lt_of_succ_lt_succ h)
    simpa [readBytes, Nat.add_assoc, Nat.add_comm 1 k] using this

/-- The completion mark of a programmed unit is listed. -/
theorem mark_mem {m : Memory} {a : Nat} {fields : List Byte} (hl : fields.length = 28)
    (h : readBytes m a 32 = unitBytes fields) : (a + 31, (0 : Byte)) ∈ m := by
  have h1 := getElem?_readBytes m 32 a 31 (by omega)
  have h2 : (unitBytes fields)[31]? = some 0 := by
    simp [unitBytes, hl, be16]
  rw [h, h2] at h1
  have h3 : readByte m (a + 31) = 0 := (Option.some.inj h1).symm
  have := mem_of_readByte (m := m) (a := a + 31) (by rw [h3]; decide)
  rwa [h3] at this

theorem imagePart_length (c : ImageContent) (k : StreamId) : (imagePart c k).length = 22 := by
  have : (devicePart c k.val).length = 6 := by
    unfold devicePart
    split <;> simp [be24]
  simp [imagePart, streamPart_length, this]

/-- The content of a note (R133). -/
def noteContent (i : StreamId) (e f : Nat) : List Byte := byteOf i.val :: (be32 e ++ be32 f ++ List.replicate 13 0)

theorem noteContent_length (i : StreamId) (e f : Nat) : (noteContent i e f).length = 22 := by simp [noteContent, be32]

/-- The units of an anchor segment that holds an image and perhaps a note. -/
def heldUnit (c : ImageContent) (g : Word32) (note : Option (StreamId × Nat × Nat)) (u : Nat) : Option RawUnit :=
  if h : u < 8 then some { kind := 1, part := byteOf u, generation := g, content := imagePart c ⟨u, h⟩ }
  else if u = 8 then note.map fun x => { kind := 2, part := 0, generation := g, content := noteContent x.1 x.2.1 x.2.2 }
  else none

variable {m : Memory} {a : AnchorSeg} {c : ImageContent} {g : Word32} {note : Option (StreamId × Nat × Nat)}

theorem unit_in_segment {u b : Nat} (hu : u < 128) (h1 : unitAddr a u ≤ b) (h2 : b < unitAddr a u + 32) :
    b / Config.segmentBytes = a.val := by
  unfold unitAddr segmentBase Config.segmentBytes at *
  omega

theorem readUnits_holds (h : HoldsImage m a c g note) :
    readUnits (segmentCells m a.val) a = (List.range 128).map (heldUnit c g note) := by
  unfold readUnits
  refine List.map_congr_left fun u hu => ?_
  have hu : u < 128 := by simpa [Config.anchorUnits] using hu
  rw [readBytes_segmentCells m a.val 32 _ fun b h1 h2 => unit_in_segment hu h1 h2]
  have hany : ∀ fields : List Byte, fields.length = 28 → readBytes m (unitAddr a u) 32 = unitBytes fields →
      ((segmentCells m a.val).any fun c => c.1 / 32 == unitAddr a u / 32) = true := by
    intro fields hl hb
    rw [List.any_eq_true]
    refine ⟨_, List.mem_filter.2 ⟨mark_mem hl hb, ?_⟩, ?_⟩
    · simpa using unit_in_segment hu (Nat.le_add_right _ _) (by omega)
    · simp only [beq_iff_eq]
      unfold unitAddr segmentBase Config.segmentBytes
      omega
  have hnone : (if note.isSome then 9 else 8) ≤ u →
      ((segmentCells m a.val).any fun c => c.1 / 32 == unitAddr a u / 32) = false := by
    intro hle
    rw [List.any_eq_false]
    intro x hx
    have hx' := List.mem_filter.1 hx
    have hseg : x.1 / Config.segmentBytes = a.val := by simpa using hx'.2
    have hlt := (h.only x hx'.1 (by rw [hseg]; exact a.isLt)).2
    have hm : unitAddr a (if note.isSome then 9 else 8) ≤ unitAddr a u := by
      unfold unitAddr; omega
    simp only [beq_iff_eq]
    unfold unitAddr segmentBase Config.segmentBytes at *
    omega
  unfold heldUnit
  by_cases h8 : u < 8
  · have hb := h.image ⟨u, h8⟩
    rw [if_pos (hany _ (length_unitFields _ _ _ (imagePart_length c ⟨u, h8⟩)) hb), dif_pos h8, hb]
    exact parseUnit_unitBytes (imagePart_length c ⟨u, h8⟩) (.inl ⟨rfl, by simp; omega⟩)
  · rw [dif_neg h8]
    by_cases h9 : u = 8
    · subst h9
      cases hn : note with
      | none => rw [if_neg (by rw [hnone (by simp [hn])]; simp)]; rfl
      | some x =>
        obtain ⟨i, e, f⟩ := x
        have hb := (h.noted i e f hn).1
        rw [if_pos (hany _ (length_unitFields _ _ _ (noteContent_length i e f)) hb), hb]
        exact parseUnit_unitBytes (noteContent_length i e f) (.inr ⟨rfl, rfl⟩)
    · rw [if_neg (by rw [hnone (by split <;> omega)]; simp), if_neg h9]

theorem heldUnit_part {u : Nat} {r : RawUnit} (h : heldUnit c g note u = some r) (hk : r.kind = 1) (hp : r.part = 0) : u = 0 := by
  unfold heldUnit at h
  split at h
  · rename_i h8
    cases h
    have : u % 256 = 0 := by simpa using congrArg BitVec.toNat hp
    omega
  · split at h
    · cases note with
      | none => cases h
      | some x => cases h; exact absurd hk (show (2 : Byte) ≠ 1 by decide)
    · cases h

theorem imageAt_held_pos {p : Nat} (hp : p ≠ 0) : imageAt ((List.range 128).map (heldUnit c g note)) p = none := by
  cases h : imageAt ((List.range 128).map (heldUnit c g note)) p with
  | none => rfl
  | some f =>
    obtain ⟨u, hu, hk, hz⟩ := imageAt_some h
    rw [List.getElem?_map, Option.map_eq_some_iff] at hu
    obtain ⟨q, hq, hq'⟩ := hu
    have : q = p := by
      obtain ⟨h1, h2⟩ := List.getElem?_eq_some_iff.1 hq
      simpa using h2.symm
    exact absurd (heldUnit_part (this ▸ hq') hk hz) hp

theorem imageAt_held (hc : c.InRange) :
    imageAt ((List.range 128).map (heldUnit c g note)) 0 = some { position := 0, generation := g, content := c } := by
  have hs : (List.range 128).map (heldUnit c g note)
      = (List.range 8).map (heldUnit c g note) ++ (List.range' 8 120).map (heldUnit c g note) := by
    rw [← List.map_append]
    congr 1
  have hr : imageRun g 0 ((List.range 8).map (heldUnit c g note)) = some (imageParts c) := by
    simp [show List.range 8 = [0, 1, 2, 3, 4, 5, 6, 7] from rfl, heldUnit, imageRun, imageParts, byteOf]
    rfl
  unfold imageAt
  rw [hs]
  have hlen : ((List.range' 8 120).map (heldUnit c g note)).length = 120 := by simp
  generalize (List.range' 8 120).map (heldUnit c g note) = rest at hlen
  simp only [show List.range 8 = [0, 1, 2, 3, 4, 5, 6, 7] from rfl, List.map_cons, List.map_nil] at hr ⊢
  have h0 : heldUnit c g note 0 = some { kind := 1, part := byteOf 0, generation := g, content := imagePart c 0 } := rfl
  rw [h0] at hr ⊢
  have h7 : 7 ≤ rest.length + 7 := Nat.le_add_left _ _
  rw [List.drop_zero]
  simp only [List.cons_append, List.nil_append, List.length_cons, List.take_succ_cons, List.take_zero]
  rw [if_pos (by omega), hr]
  simp [parseImage_imageParts hc]

theorem imageInForce_held (hc : c.InRange) :
    imageInForce ((List.range 128).map (heldUnit c g note)) = some { position := 0, generation := g, content := c } := by
  unfold imageInForce
  rw [show List.range Config.anchorUnits = 0 :: List.range' 1 127 from rfl, List.foldl_cons, imageAt_held hc]
  exact foldl_or_none _ _ _ fun p hp => imageAt_held_pos (by have := List.mem_range'_1.1 hp; omega)

theorem contentField_note (i : StreamId) {e f : Nat} (he : e ≤ 0xFFFFFFFF) (hf : f ≤ 0xFFFFFFFF) :
    contentField (noteContent i e f) 0 1 = i.val ∧ contentField (noteContent i e f) 1 4 = e
      ∧ contentField (noteContent i e f) 5 4 = f :=
  ⟨(show _ = (byteOf i.val).toNat by simp [contentField, noteContent, fromBE]).trans (by simp; omega),
   (show _ = fromBE (be32 e) by simp [contentField, noteContent, be32]).trans (fromBE_be32 (by omega)),
   (show _ = fromBE (be32 f) by simp [contentField, noteContent, be32]).trans (fromBE_be32 (by omega))⟩

theorem getElem_tabulate {α : Type} {n : Nat} (f : Fin n → α) {i : Nat} (h : i < n) : (tabulate f)[i] = f ⟨i, h⟩ := by
  simp [tabulate]

/-- The streams' anchored fields with the note applied (R134). -/
theorem applyNotes_held (h : HoldsImage m a c g note) :
    applyNotes { position := 0, generation := g, content := c } ((List.range 128).map (heldUnit c g note))
      = tabulate fun i => { c.streams[i] with frontier := c.noted note i } := by
  have kind1 : ∀ (u : Nat) (v : Vector StreamImage 8), u ≠ 8 →
      (heldUnit c g note u).elim v (fun r => applyNote { position := 0, generation := g, content := c } v u r) = v := by
    intro u v hu
    unfold heldUnit
    split
    · simp only [Option.elim_some, applyNote]
      split
      · rfl
      · rw [if_neg (fun hh => absurd hh.1 (show (1 : Byte) ≠ 2 by decide))]
    · rfl
  have skip : ∀ (l : List Nat) (v : Vector StreamImage 8), (∀ u ∈ l, u ≠ 8) →
      (l.zip (l.map (heldUnit c g note))).foldl (fun streams x => x.2.elim streams fun u =>
        applyNote { position := 0, generation := g, content := c } streams x.1 u) v = v := by
    intro l
    induction l with
    | nil => intro v _; rfl
    | cons u l ih =>
      intro v hl
      simp only [List.map_cons, List.zip_cons_cons, List.foldl_cons]
      rw [kind1 u v (hl u List.mem_cons_self)]
      exact ih v fun w hw => hl w (List.mem_cons_of_mem _ hw)
  unfold applyNotes
  rw [show Config.anchorUnits = 128 from rfl, show List.range 128 = List.range 8 ++ 8 :: List.range' 9 119 from rfl,
    List.map_append, List.zip_append (by simp), List.foldl_append, skip (List.range 8) _ (by decide), List.map_cons,
    List.zip_cons_cons, List.foldl_cons, skip (List.range' 9 119) _ (by decide)]
  apply Vector.ext
  intro j hj
  have htab : (tabulate fun i : StreamId => { c.streams[i] with frontier := c.noted note i })[j]
      = { c.streams[(⟨j, hj⟩ : StreamId)] with frontier := c.noted note ⟨j, hj⟩ } := getElem_tabulate _ hj
  rw [htab]
  cases hn : note with
  | none => rfl
  | some x =>
    obtain ⟨i, e, f⟩ := x
    obtain ⟨-, he, hf⟩ := h.noted i e f hn
    obtain ⟨h1, h2, h3⟩ := contentField_note i he hf
    have hi : streamOf (byteOf i.val) = some i := streamOf_of_toNat (by simp; omega)
    simp only [heldUnit, show ¬ (8 < 8) from by decide, dif_neg, not_false_eq_true, if_true, Option.map_some,
      Option.elim_some, applyNote, h1, h2, h3, hi]
    by_cases hij : i.val = j
    · subst hij
      by_cases hee : e = c.streams[i].epoch
      · simp [ImageContent.noted, hee]
      · have hee' : ¬ e = c.streams[i.val].epoch := hee
        simp [ImageContent.noted, hee']
    · have hij' : i ≠ ⟨j, hj⟩ := fun hh => hij (congrArg Fin.val hh)
      by_cases hee : e = c.streams[i].epoch
      · simp [ImageContent.noted, hee, hij', Vector.getElem_set_ne, hij]
      · have hee' : ¬ e = c.streams[i.val].epoch := hee
        simp [ImageContent.noted, hee', hij']

theorem nextFreeUnit_of_cells {cells : Memory} {N : Nat} (hle : ∀ x ∈ cells, (x.1 - segmentBase a.val) / 32 + 1 ≤ N)
    (hx : ∃ x ∈ cells, x.2 ≠ erasedByte ∧ (x.1 - segmentBase a.val) / 32 + 1 = N) : nextFreeUnit cells a = N := by
  unfold nextFreeUnit
  have up : ∀ (l : Memory) (n : Nat), n ≤ N → (∀ x ∈ l, (x.1 - segmentBase a.val) / 32 + 1 ≤ N) →
      n ≤ l.foldl (fun n c => if c.2 = erasedByte then n else max n ((c.1 - segmentBase a.val) / 32 + 1)) n
      ∧ l.foldl (fun n c => if c.2 = erasedByte then n else max n ((c.1 - segmentBase a.val) / 32 + 1)) n ≤ N
      ∧ ((∃ x ∈ l, x.2 ≠ erasedByte ∧ (x.1 - segmentBase a.val) / 32 + 1 = N) →
        N ≤ l.foldl (fun n c => if c.2 = erasedByte then n else max n ((c.1 - segmentBase a.val) / 32 + 1)) n) := by
    intro l
    induction l with
    | nil => intro n hn _; exact ⟨Nat.le_refl _, hn, fun ⟨x, hx, _⟩ => by cases hx⟩
    | cons y l ih =>
      intro n hn hl
      have hy := hl y List.mem_cons_self
      have hl' := fun x hx => hl x (List.mem_cons_of_mem _ hx)
      simp only [List.foldl_cons]
      by_cases he : y.2 = erasedByte
      · simp only [if_pos he]
        obtain ⟨h1, h2, h3⟩ := ih n hn hl'
        refine ⟨h1, h2, fun ⟨x, hx, hx2, hx3⟩ => ?_⟩
        rcases List.mem_cons.1 hx with rfl | hx
        · exact absurd he hx2
        · exact h3 ⟨x, hx, hx2, hx3⟩
      · simp only [if_neg he]
        obtain ⟨h1, h2, h3⟩ := ih (max n ((y.1 - segmentBase a.val) / 32 + 1)) (by omega) hl'
        refine ⟨by omega, h2, fun ⟨x, hx, hx2, hx3⟩ => ?_⟩
        rcases List.mem_cons.1 hx with rfl | hx
        · omega
        · exact h3 ⟨x, hx, hx2, hx3⟩
  have := up cells 0 (Nat.zero_le _) hle
  exact Nat.le_antisymm this.2.1 (this.2.2 hx)

theorem nextFreeUnit_holds (h : HoldsImage m a c g note) :
    nextFreeUnit (segmentCells m a.val) a = if note.isSome then 9 else 8 := by
  have hN : ∀ u : Nat, u < 128 → ∀ fields : List Byte, fields.length = 28 → readBytes m (unitAddr a u) 32 = unitBytes fields →
      ∃ x ∈ segmentCells m a.val, x.2 ≠ erasedByte ∧ (x.1 - segmentBase a.val) / 32 + 1 = u + 1 := by
    intro u hu fields hl hb
    refine ⟨_, List.mem_filter.2 ⟨mark_mem hl hb, ?_⟩, show (0 : Byte) ≠ erasedByte by decide, ?_⟩
    · simpa using unit_in_segment hu (Nat.le_add_right _ _) (by omega)
    · simp only [unitAddr]
      omega
  refine nextFreeUnit_of_cells (fun x hx => ?_) ?_
  · have hx' := List.mem_filter.1 hx
    have hseg : x.1 / Config.segmentBytes = a.val := by simpa using hx'.2
    have hlt := (h.only x hx'.1 (by rw [hseg]; exact a.isLt)).2
    unfold unitAddr at hlt
    unfold segmentBase Config.segmentBytes at *
    omega
  · cases hn : note with
    | none => simpa using hN 7 (by omega) _ (length_unitFields _ _ _ (imagePart_length c 7)) (h.image 7)
    | some x =>
      obtain ⟨i, e, f⟩ := x
      simpa using hN 8 (by omega) _ (length_unitFields _ _ _ (noteContent_length i e f)) (h.noted i e f hn).1

/-- An anchor segment with no listed byte is not valid (R134). -/
theorem readAnchor_erased {b : AnchorSeg} (h : ∀ x ∈ m, x.1 / Config.segmentBytes ≠ b.val) : readAnchor m b = none := by
  have hc : segmentCells m b.val = [] := by
    unfold segmentCells
    rw [List.filter_eq_nil_iff]
    intro x hx
    simpa using h x hx
  unfold readAnchor
  rw [hc]
  have h0 : imageAt (readUnits [] b) 0 = none := by
    cases hi : imageAt (readUnits [] b) 0 with
    | none => rfl
    | some f =>
      obtain ⟨u, hu, -⟩ := imageAt_some hi
      simp [readUnits, List.getElem?_replicate] at hu
  simp only [h0]

/-- The first phase of the scan reads the image and the note that an anchor segment holds (R134, R148). -/
theorem anchorPhase_holds (h : HoldsImage m a c g note) (hc : c.InRange) : anchorPhase m =
    { current := some a, nextFree := if note.isSome then 9 else 8, generation := g, anchorErases := c.anchorErases
      streams := tabulate fun i => { c.streams[i] with frontier := c.noted note i }
      lockMode := c.lockMode, appendLocks := c.appendLocks, formatInhibit := c.formatInhibit, lowWater := c.lowWater } := by
  have hr : readAnchor m a = some
      { unit0 := { position := 0, generation := g, content := c }, inForce := { position := 0, generation := g, content := c }
        streams := tabulate fun i => { c.streams[i] with frontier := c.noted note i }
        nextFree := if note.isSome then 9 else 8 } := by
    unfold readAnchor
    simp only [readUnits_holds h, imageAt_held hc, imageInForce_held hc, applyNotes_held h, nextFreeUnit_holds h]
  have ho : ∀ b : AnchorSeg, b ≠ a → readAnchor m b = none := fun b hb => readAnchor_erased fun x hx hx' =>
    hb (Fin.ext ((h.only x hx (by rw [hx']; exact b.isLt)).1 ▸ hx').symm)
  unfold anchorPhase
  have : a = 0 ∨ a = 1 := (by decide : ∀ b : AnchorSeg, b = 0 ∨ b = 1) a
  rcases this with rfl | rfl
  · rw [hr, ho 1 (by decide)]
    rfl
  · rw [hr, ho 0 (by decide)]
    rfl

end Sys2Proof.Machine
end

