-- ==== Sys2Proof/Laws/Selection.lean ====
section
/-! SUPPORT. What a selection of the engine does (R109, R111), and what reaching the head of the staging buffer does (R114, R121),
said once. -/

namespace Sys2Proof.Machine

open Sys2Proof

variable {s t u : State}

/-- An IDLE engine of a sound, serving device has nothing staged, nothing to erase and no ledger work to do (R109). -/
theorem noWork_of_idle (h : s.engineSound = true) (hp : s.power = .active) (hi : s.engine.state = .idle) :
    s.staging = [] ∧ s.reclaim = [] ∧ s.engine.preempted = none ∧ s.ledger.trigger = false := by
  have h' : s.noWork = true := by
    simp only [State.engineSound, Bool.and_eq_true] at h
    simpa [PowerState.holds, hp, hi] using h.2
  simpa [State.noWork, and_assoc] using h'

/-- A selection with nothing staged and nothing to erase changes the engine alone: a LEDGER job where one is triggered, IDLE
otherwise (R111). -/
theorem select_of_noWork (hs : s.staging = []) (hr : s.reclaim = []) (hp : s.engine.preempted = none) :
    (s.ledger.trigger = true ∧ ∃ w, s.select = s.run (.ledger w)) ∨ (s.ledger.trigger = false ∧ s.select = s.idle) := by
  unfold State.select State.selectCommit State.reachHead State.selectReclaim
  cases ht : s.ledger.trigger
  · simp [hs, hr, hp, State.reach]
  · have hc : s.ledger.choose.isSome = true := by
      simp only [Ledger.trigger, Ledger.workPending, Bool.and_eq_true, Bool.or_eq_true] at ht
      unfold Ledger.choose
      split
      · rfl
      · rename_i hn
        simpa [hn] using ht.1
    obtain ⟨w, hw⟩ := Option.isSome_iff_exists.1 hc
    exact .inl ⟨rfl, w, by simp [hw]⟩

/-- Where an IDLE engine has no COMMIT or RECLAIM work, a frame's selection changes the engine alone (R111). -/
theorem selectIfIdle_engine (h : s.engine.state = .idle → s.staging = [] ∧ s.reclaim = [] ∧ s.engine.preempted = none) :
    s.selectIfIdle = { s with engine := s.selectIfIdle.engine } := by
  unfold State.selectIfIdle
  split
  · rename_i hi
    obtain ⟨h1, h2, h3⟩ := h hi
    rcases select_of_noWork h1 h2 h3 with ⟨-, w, hw⟩ | ⟨-, hw⟩ <;> rw [hw] <;> rfl
  · rfl

/-! ### What reaching the head of the staging buffer leaves alone (R114, R121) -/

/-- What a stream fault leaves alone (R34): ledger, pool, reclaim queue, segment table and engine. -/
structure Stays (s t : State) : Prop where
  ledger : t.ledger = s.ledger
  pool : t.pool = s.pool
  reclaim : t.reclaim = s.reclaim
  segments : t.segments = s.segments
  engine : t.engine = s.engine

theorem Stays.trans (h : Stays s t) (h' : Stays t u) : Stays s u :=
  ⟨h'.ledger.trans h.ledger, h'.pool.trans h.pool, h'.reclaim.trans h.reclaim, h'.segments.trans h.segments,
   h'.engine.trans h.engine⟩

theorem stays_evalHeld (s : State) (i : StreamId) : Stays s (s.evalHeld i) ∧ (s.evalHeld i).staging = s.staging := by
  unfold State.evalHeld
  split <;> exact ⟨by constructor <;> rfl, rfl⟩

theorem stays_evalSync (s : State) : Stays s s.evalSync ∧ s.evalSync.staging = s.staging := by
  unfold State.evalSync
  split <;> exact ⟨by constructor <;> rfl, rfl⟩

/-- A stream fault discards the stream's staged entries and no others (R34). -/
theorem stays_faultStream (s : State) (i : StreamId) :
    Stays s (s.faultStream i) ∧ (s.faultStream i).staging = s.staging.filter fun e => e.stream != i := by
  unfold State.faultStream
  refine ⟨Stays.trans ?_ (stays_evalHeld _ i).1, ?_⟩
  · refine Stays.trans ?_ (stays_evalSync _).1
    constructor <;> rfl
  · rw [(stays_evalHeld _ i).2, (stays_evalSync _).2]
    rfl

/-- What reaching the head does (R114): the engine's job is the first step for the head that remains, or the buffer is empty; entries
leave by faults alone. -/
structure Reached (s t : State) : Prop where
  ledger : t.ledger = s.ledger
  pool : t.pool = s.pool
  reclaim : t.reclaim = s.reclaim
  segments : t.segments = s.segments
  state : t.engine.state = s.engine.state
  preempted : t.engine.preempted = s.engine.preempted
  resumeLock : t.engine.resumeLock = s.engine.resumeLock
  staging : t.staging.Sublist s.staging
  decided : t.staging ≠ [] → t.CommitDecided

theorem Reached.trans (h : Stays s t) (hs : t.staging.Sublist s.staging) (h' : Reached t u) : Reached s u :=
  ⟨h'.ledger.trans h.ledger, h'.pool.trans h.pool, h'.reclaim.trans h.reclaim, h'.segments.trans h.segments,
   h'.state.trans (by rw [h.engine]), h'.preempted.trans (by rw [h.engine]), h'.resumeLock.trans (by rw [h.engine]),
   h'.staging.trans hs, h'.decided⟩

theorem reached_setJob (j : Job)
    (hd : (s.setJob j).CommitDecided) : Reached s (s.setJob j) := by
  constructor <;> first | rfl | exact List.Sublist.refl _ | exact fun _ => hd

theorem reached_reach : ∀ (n : Nat) (s : State), s.staging.length < n → Reached s (s.reach n) := by
  intro n
  induction n with
  | zero => exact fun s h => absurd h (Nat.not_lt_zero _)
  | succ n ih =>
    intro s h
    have fault : ∀ e es, s.staging = e :: es → Reached s (State.reach n (s.faultStream e.stream)) := by
      intro e es he
      have hf := stays_faultStream s e.stream
      refine Reached.trans hf.1 (hf.2 ▸ List.filter_sublist) (ih _ ?_)
      rw [hf.2, he]
      simp only [List.filter_cons, bne_self_eq_false, Bool.false_eq_true, if_false]
      exact Nat.lt_of_le_of_lt (List.length_filter_le _ _) (by simp [he] at h; omega)
    unfold State.reach
    split
    · rename_i he
      exact ⟨rfl, rfl, rfl, rfl, rfl, rfl, rfl, List.Sublist.refl _, fun h => absurd he h⟩
    · rename_i e es he
      split
      · rename_i hp
        exact reached_setJob _ ⟨e, es, he, by simp [hp, State.setJob], by simp [hp], by simp [hp]⟩
      · rename_i hp
        split
        · rename_i ha
          exact reached_setJob _ ⟨e, es, he, by simp [hp], by intro _; exact ⟨ha, rfl⟩, by simp [hp]⟩
        · exact fault e es he
      · rename_i hp
        split
        · exact fault e es he
        · rename_i ha
          have hne : s.pool ≠ [] := by simpa using ha
          split
          · rename_i ho
            exact reached_setJob _ ⟨e, es, he, by simp [hp], by simp [hp],
              by intro _; refine ⟨hne, ?_⟩; rw [if_pos (show ((s.setJob (.commit .seal)).openSegment e.stream).isSome = true from ho)]; rfl⟩
          · rename_i ho
            exact reached_setJob _ ⟨e, es, he, by simp [hp], by simp [hp],
              by intro _; refine ⟨hne, ?_⟩; rw [if_neg (show ¬ ((s.setJob (.commit s.openingStep)).openSegment e.stream).isSome = true from ho)]; rfl⟩

/-- Reaching the head of the staging buffer (R114, R121). -/
theorem reached_reachHead (s : State) : Reached s s.reachHead := reached_reach _ s (Nat.lt_succ_self _)

/-- The part of a selection below COMMIT, where nothing is staged (R111). -/
theorem selectReclaim_selected (ht : s.ledger.trigger = false) (hs : s.staging = []) :
    s.selectReclaim.Selected s.engine.preempted := by
  unfold State.selectReclaim
  split
  · rename_i k n hp
    constructor <;> simp_all
  · rename_i hp
    split
    · rename_i k ks hr
      constructor <;> simp_all [State.run]
    · constructor <;> simp_all [State.idle]

/-- A selection takes the first work of R111's list that waits. -/
theorem select_selected (s : State) : s.select.Selected s.engine.preempted := by
  unfold State.select
  have hc : s.ledger.trigger = false → s.selectCommit.Selected s.engine.preempted := by
    intro ht
    have h := reached_reachHead s
    have ht' : s.reachHead.ledger.trigger = false := h.ledger ▸ ht
    unfold State.selectCommit
    simp only
    split
    · rename_i he
      simpa [h.preempted] using selectReclaim_selected ht' (by simpa using he)
    · rename_i he
      have hne : s.reachHead.staging ≠ [] := by simpa using he
      constructor
      · intro h1; simp_all
      · exact fun _ _ => ⟨rfl, h.preempted, h.decided hne⟩
      · intro _ h1; exact absurd h1 hne
      · intro _ h1; exact absurd h1 hne
      · intro _ h1; exact absurd h1 hne
  split
  · rename_i ht
    split
    · rename_i w hw
      constructor <;> simp_all [State.run]
    · rename_i hw
      exfalso
      simp only [Ledger.trigger, Ledger.workPending, Bool.and_eq_true, Bool.or_eq_true] at ht
      unfold Ledger.choose at hw
      split at hw
      · cases hw
      · rename_i hn
        simp_all
  · rename_i ht
    exact hc (by simpa using ht)

end Sys2Proof.Machine
end

