-- ==== Sys2Proof/Laws/Series.lean ====
section
/-! SUPPORT. What the third phase of the recovery scan does with a stream's candidates (R150, R152), said once for each of its
functions: the order is a sorted permutation, what is left is a filter of it, the series is the prefix up to the first break. -/

namespace Sys2Proof.Machine

open Sys2Proof

variable {x y z : DataSeg × Scanned} {l : List (DataSeg × Scanned)} {d : Nat}

/-! ### The order (R150) -/

/-- What it means that a measured candidate comes before another (R150). -/
theorem before_iff : Scanned.before x y = true ↔ x.2.seg.first < y.2.seg.first
    ∨ (x.2.seg.first = y.2.seg.first
      ∧ ((x.2.seg.last < x.2.seg.first ∧ ¬ y.2.seg.last < y.2.seg.first)
        ∨ (x.2.seg.last < x.2.seg.first ∧ y.2.seg.last < y.2.seg.first ∧ x.2.closeStage = true ∧ ¬ y.2.closeStage = true)
        ∨ ((x.2.seg.last < x.2.seg.first ↔ y.2.seg.last < y.2.seg.first)
          ∧ (x.2.seg.last < x.2.seg.first → (x.2.closeStage = true ↔ y.2.closeStage = true)) ∧ x.1 < y.1))) := by
  unfold Scanned.before
  generalize x.2.seg.first = f, y.2.seg.first = g, x.2.closeStage = cx, y.2.closeStage = cy
  by_cases hf : f = g
  · subst hf
    by_cases hx : x.2.seg.last < f <;> by_cases hy : y.2.seg.last < f <;> cases cx <;> cases cy <;> simp [hx, hy]
  · simp [hf]

/-- The order of the pairs (first sequence, holds no record, has a close stage, index) is transitive. -/
theorem ranked_trans {f g h : Nat} {a b c p q r : Prop} {i j k : DataSeg}
    (h1 : f < g ∨ (f = g ∧ ((a ∧ ¬ b) ∨ (a ∧ b ∧ p ∧ ¬ q) ∨ ((a ↔ b) ∧ (a → (p ↔ q)) ∧ i < j))))
    (h2 : g < h ∨ (g = h ∧ ((b ∧ ¬ c) ∨ (b ∧ c ∧ q ∧ ¬ r) ∨ ((b ↔ c) ∧ (b → (q ↔ r)) ∧ j < k)))) :
    f < h ∨ (f = h ∧ ((a ∧ ¬ c) ∨ (a ∧ c ∧ p ∧ ¬ r) ∨ ((a ↔ c) ∧ (a → (p ↔ r)) ∧ i < k))) := by
  rcases h1 with h1 | ⟨rfl, h1⟩
  · rcases h2 with h2 | ⟨rfl, -⟩ <;> exact .inl (by omega)
  rcases h2 with h2 | ⟨rfl, h2⟩
  · exact .inl h2
  refine .inr ⟨rfl, ?_⟩
  have ht : i < j → j < k → i < k := lt_trans
  tauto

theorem before_trans (h : Scanned.before x y = true) (h' : Scanned.before y z = true) : Scanned.before x z = true := by
  rw [before_iff] at *
  exact ranked_trans h h'

theorem before_total (h : x.1 ≠ y.1) : Scanned.before x y = true ∨ Scanned.before y x = true := by
  rw [before_iff, before_iff]
  have h1 : x.1 < y.1 ∨ y.1 < x.1 := lt_or_gt_of_ne h
  rcases Nat.lt_trichotomy x.2.seg.first y.2.seg.first with hf | hf | hf
  · exact .inl (.inl hf)
  · simp only [hf, lt_irrefl, true_and, false_or]
    tauto
  · exact .inr (.inl hf)

theorem insertCandidate_perm (x : DataSeg × Scanned) : ∀ l, (insertCandidate x l).Perm (x :: l)
  | [] => .refl _
  | y :: ys => by
    unfold insertCandidate
    split
    · exact .refl _
    · exact ((insertCandidate_perm x ys).cons y).trans (.swap x y ys)

/-- The order holds every candidate, each as often as before. -/
theorem orderCandidates_perm : ∀ cs, (orderCandidates cs).Perm cs
  | [] => .refl _
  | c :: cs => (insertCandidate_perm c _).trans ((orderCandidates_perm cs).cons c)

theorem insertCandidate_sorted : ∀ {l : List (DataSeg × Scanned)}, l.Pairwise (fun a b => Scanned.before a b = true) →
    (∀ y ∈ l, x.1 ≠ y.1) → (insertCandidate x l).Pairwise (fun a b => Scanned.before a b = true)
  | [], _, _ => List.pairwise_singleton _ _
  | y :: ys, h, hn => by
    rw [List.pairwise_cons] at h
    unfold insertCandidate
    split
    · rename_i hb
      refine List.pairwise_cons.2 ⟨fun z hz => ?_, List.pairwise_cons.2 h⟩
      rcases List.mem_cons.1 hz with rfl | hz
      · exact hb
      · exact before_trans hb (h.1 z hz)
    · rename_i hb
      refine List.pairwise_cons.2 ⟨fun z hz => ?_, insertCandidate_sorted h.2 fun z hz => hn z (List.mem_cons_of_mem _ hz)⟩
      rcases List.mem_cons.1 ((insertCandidate_perm x ys).mem_iff.1 hz) with rfl | hz
      · exact (before_total (hn y List.mem_cons_self)).resolve_left hb
      · exact h.1 z hz

/-- Candidates with distinct indexes stand in ascending order (R150). -/
theorem orderCandidates_sorted : ∀ {cs : List (DataSeg × Scanned)}, (cs.map (·.1)).Nodup →
    (orderCandidates cs).Pairwise fun a b => Scanned.before a b = true
  | [], _ => .nil
  | c :: cs, h => by
    rw [List.map_cons, List.nodup_cons] at h
    refine insertCandidate_sorted (orderCandidates_sorted h.2) fun y hy e => h.1 ?_
    exact List.mem_map.2 ⟨y, (orderCandidates_perm cs).mem_iff.1 hy, e.symm⟩

/-! ### What the durable frontier leaves (R150) -/

/-- The candidates above the durable frontier are left, and the last one also where it ends at the frontier. -/
theorem uncovered_eq_filter (d : Nat) : ∀ {cs : List (DataSeg × Scanned)}, cs.Nodup →
    uncovered d cs = cs.filter fun x => decide (d < x.2.seg.last) || (cs.getLast? == some x && decide (x.2.seg.last = d))
  | [], _ => rfl
  | [x], _ => by
    unfold uncovered
    by_cases h : x.2.seg.last < d
    · have : ¬ d < x.2.seg.last := by omega
      have : x.2.seg.last ≠ d := by omega
      simp [*]
    · have : d < x.2.seg.last ∨ x.2.seg.last = d := by omega
      simp [h, this]
  | x :: y :: ys, h => by
    rw [List.nodup_cons] at h
    have hx : (y :: ys).getLast? ≠ some x := fun e => h.1 (List.mem_of_getLast? e)
    unfold uncovered
    rw [List.filter_cons, uncovered_eq_filter d h.2, List.getLast?_cons_cons]
    by_cases hl : x.2.seg.last ≤ d
    · have : ¬ d < x.2.seg.last := by omega
      simp [hl, this, hx]
    · have : d < x.2.seg.last := by omega
      simp [hl, this]

/-! ### The unbroken series (R152) -/

theorem seriesAfter_prefix : ∀ (n : Nat) (l : List (DataSeg × Scanned)), seriesAfter n l <+: l
  | _, [] => List.prefix_refl _
  | n, x :: xs => by
    unfold seriesAfter
    split
    · exact List.prefix_cons_inj x |>.2 (seriesAfter_prefix _ xs)
    · exact List.nil_prefix

theorem series_prefix (d : Nat) : ∀ l : List (DataSeg × Scanned), series d l <+: l
  | [] => List.prefix_refl _
  | x :: xs => by
    simp only [series]
    split
    · exact List.prefix_cons_inj x |>.2 (seriesAfter_prefix _ xs)
    · exact List.nil_prefix

/-- The candidate after a series that follows a sequence does not continue it. -/
theorem seriesAfter_cut : ∀ (n : Nat) (l : List (DataSeg × Scanned)), l[(seriesAfter n l).length]? = some x →
    x.2.seg.first ≠ (((seriesAfter n l).getLast?).elim n fun y => y.2.seg.last) + 1
  | _, [], h => by simp [seriesAfter] at h
  | n, z :: zs, h => by
    unfold seriesAfter at h ⊢
    split at h
    · rename_i hz
      rw [if_pos hz]
      have := seriesAfter_cut z.2.seg.last zs (by simpa using h)
      cases hs : seriesAfter z.2.seg.last zs with
      | nil => simpa [hs] using this
      | cons a as =>
        rw [hs, List.getLast?_eq_getLast_of_ne_nil (List.cons_ne_nil a as)] at this
        rw [List.getLast?_cons_cons, List.getLast?_eq_getLast_of_ne_nil (List.cons_ne_nil a as)]
        exact this
    · rename_i hz
      rw [if_neg hz]
      have : z = x := by simpa using h
      simpa [← this] using hz

/-- The candidate after the series breaks it (R152): it begins above the frontier + 1 where the series is empty, and elsewhere not right
after the last sequence of the one before it. -/
theorem series_cut : ∀ {l : List (DataSeg × Scanned)}, l[(series d l).length]? = some x →
    (series d l = [] → d + 1 < x.2.seg.first) ∧ ∀ y, (series d l).getLast? = some y → x.2.seg.first ≠ y.2.seg.last + 1
  | [], h => by simp [series] at h
  | z :: zs, h => by
    simp only [series] at h ⊢
    split at h
    · rename_i hz
      rw [if_pos hz]
      have := seriesAfter_cut z.2.seg.last zs (by simpa using h)
      refine ⟨fun e => absurd e (by simp), fun y hy => ?_⟩
      cases hs : seriesAfter z.2.seg.last zs with
      | nil =>
        have hy' : z = y := by simpa [hs] using hy
        rw [hs] at this
        simpa [hy'] using this
      | cons a as =>
        rw [hs, List.getLast?_cons_cons] at hy
        rwa [hs, hy] at this
    · rename_i hz
      rw [if_neg hz]
      have e : z = x := by simpa using h
      refine ⟨fun _ => ?_, fun y hy => absurd hy (by simp)⟩
      rw [← e]
      omega

end Sys2Proof.Machine
end

