-- ==== Sys2Proof/Tests/Slice0.lean ====
section
/-! SUPPORT. Tests: a refused ill-formed term for each check, frames written out from the command table, worked examples of
spec/, and for every statement a state and operands that meet its hypotheses. -/

namespace Sys2Proof.Tests

-- One evaluation after the other: side by side their stacks alone come near the memory that a check may take.
set_option Elab.async false

open Sys2Proof Sys2Proof.Machine

/-! ### Well-formedness: what each check refuses -/

/-- A fifth pulse (R110). -/
theorem test_wf_five_pulses : (Instr.commitRecordStep [[], [], [], [], []]).wellFormed = false := by decide
/-- A fifth pulse on a vault byte (R183). -/
theorem test_wf_five_vault_pulses : (Instr.vaultWriteByteStep [0, 0, 0, 0, 0]).wellFormed = false := by decide
/-- A residue outside the segment (R91). -/
theorem test_wf_residue_outside : (Instr.reclaimErasePulse [(4096, 0)]).wellFormed = false := by decide
/-- A residue outside the vault page (R181). -/
theorem test_wf_vault_residue_outside : (Instr.vaultErasePulse [(128, 0)]).wellFormed = false := by decide
/-- A cut with a residue outside the segment. -/
theorem test_wf_cut_outside :
    (Instr.powerLoss { pulses := [], residue := some [(4096, 0)], lockCell := false }).wellFormed = false := by decide
/-- A payload shorter than its length field (R49). -/
theorem test_wf_append_short : (Instr.append 2 0 3 [1, 2]).wellFormed = false := by decide
/-- Vault data longer than its length field (R182). -/
theorem test_wf_vault_write_long : (Instr.vaultWrite 0 0 1 [1, 2]).wellFormed = false := by decide
/-- A FETCH frame that ends inside its arguments (R10). -/
theorem test_wf_fetch_cut_short : (Instr.fetch 1 0 0 1 7).wellFormed = false := by decide
/-- An unknown command without a command byte (R11). -/
theorem test_wf_unknown_empty : (Instr.unknownCommand 0).wellFormed = false := by decide

/-! ### Frames written out from the command table of chapter 1, one family at a time -/

/-- Decoding with the GUARD pin high and no cut. -/
def read (bytes : List Byte) : Instr := decodeFrame bytes 0 true { pulses := [], residue := none, lockCell := false }

theorem test_decode_port : read [0x1B] = .disarm ∧ read [0x1C, 0, 0] = .queryStatus 3 ∧ read [0xE5] = .resetEnable := by decide
theorem test_decode_events : read [0x2D, 0x80, 0x01] = .clearEvents 0x8001 ∧ read [0x2E, 0x12, 0x34] = .setEventEnable 0x1234 := by
  decide
theorem test_decode_streams : read [0x41, 3, 1, 0, 4, 0, 2, 0, 9] = .configureStream 3 1 4 2 9 true
    ∧ read [0x44, 7] = .resetStream 7 true ∧ read [0x48, 2, 0xFF, 0] = .streamInfo 2 0xFF 4 := by decide
theorem test_decode_store : read [0x49, 0x01, 0xFF, 0] = .segmentInfo 511 4 ∧ read [0x79, 64] = .deviceConfig 64 true
    ∧ read [0x2F] = .deviceInfo 1 := by decide
theorem test_decode_append : read [0x56, 2, 9, 0, 2, 0xA, 0xB] = .append 2 9 2 [0xA, 0xB] ∧ read [0x57] = .sync := by decide
/-- R7: an APPEND of another length than its field says is discarded. -/
theorem test_decode_append_short : read [0x56, 2, 9, 0, 3, 0xA, 0xB] = .discardedFrame 7 := by decide
theorem test_decode_reading : read [0x63, 1, 2, 0, 0, 0xFF, 0xFE, 4, 0] = .fetch 1 2 0xFFFE 4 9
    ∧ read [0x64, 1, 0x01, 0x02, 0x03, 0x04] = .ack 1 0x01020304 ∧ read [0x6E, 1, 2] = .rewind 1 2 := by decide
theorem test_decode_engine : read [0x73] = .suspend ∧ read [0x74] = .resume ∧ read [0x7F] = .format true := by decide
theorem test_decode_protection : read [0x8B, 1, 0x80, 1] = .writeGuard 1 0x80 1 true
    ∧ read [0x8D, 3, 126, 2, 5, 6] = .vaultWrite 3 126 2 [5, 6] ∧ read [0x8C, 1, 0x7F] = .vaultRead 1 127 3
    ∧ read [0xF4] = .descriptor 1 := by decide
theorem test_decode_power : read [0xD1] = .doze ∧ read [0xD2] = .wake
    ∧ read [0xE6] = .reset { pulses := [], residue := none, lockCell := false } := by decide
/-- No row of the table gives bits. -/
theorem test_table_words : decodeTableWord 8 0x1A = none := rfl

/-! ### The layouts of the array -/

/-- The check value of the 16-bit check with initial value FFFFh and polynomial 1021h over the digits 1 to 9 (R92). -/
theorem test_check_value : crc16 [0x31, 0x32, 0x33, 0x34, 0x35, 0x36, 0x37, 0x38, 0x39] = 0x29B1 := by decide +kernel
/-- The footprints of chapter 3's example. -/
theorem test_footprints : footprint 150 = 164 ∧ footprint 20 = 32 ∧ footprint 1012 = 1024 ∧ footprint 1 = 16 := by decide
/-- R4, R3: the frame state byte by byte. -/
theorem test_frame_states : frameStateAfter [] = .receivingCommand ∧ frameStateAfter [0x64, 1] = .receivingArguments
    ∧ frameStateAfter [0x49, 0, 2] = .outputting ∧ frameStateAfter [0x1A, 0] = .discarding := by decide

/-- A header with its free and open stages written, and a SEALED mark and a first close byte as given (R92). -/
def openHeader (sealedMark close : Byte) : List Byte :=
  let owner : List Byte := [2, 0, 0, 0, 0, 0, 0, 0, 1]
  [0, 0, sealedMark, 0xFF, 0xFF] ++ be24 1 ++ be16 (crc16 (be24 1)) ++ owner ++ be16 (crc16 owner) ++ close :: List.replicate 10 0xFF

/-- R93: OPEN as written, a close stage begun, and a SEALED mark partly programmed, be the close fields written or not. -/
theorem test_torn_close : readHeader (openHeader 0xFF 0xFF) = .opened false ∧ readHeader (openHeader 0xFF 0x7F) = .opened true
    ∧ readHeader (openHeader 0x7F 0xFF) = .opened true ∧ readHeader (openHeader 0x7F 0x7F) = .opened true := by decide +kernel

/-! ### States -/

/-- A device that serves frames. -/
def ready : State := { State.reset with power := .active }

/-- The same with the arm latch set. -/
def armed : State := { ready with port := { Port.reset with armLatch := true } }

/-- One stream record replaced. -/
def withStream (s : State) (i : StreamId) (t : Stream) : State := { s with streams := s.streams.set i.val t }

/-- One segment table entry replaced. -/
def withSegment (s : State) (k : DataSeg) (g : Segment) : State := { s with segments := s.segments.set k.val g }

/-- A job on a running engine. -/
def running (s : State) (j : Job) : State := { s with engine := { s.engine with state := .running, job := some j } }

theorem ready_serving : Serving ready := ⟨rfl, rfl, rfl⟩
theorem armed_serving : Serving armed := ⟨rfl, rfl, rfl⟩

/-- An open stream record. -/
def openStream : Stream := { Stream.formatted with state := .opened }

/-- A staged record of one byte. -/
def entry (p : Placement) : Entry := { stream := 2, seq := 518, tag := 7, payload := [0xAB], placement := p }

/-- Chapter 3's example: stream 2 is OPEN, its chain is segments 40 (sealed) and 41 (OPEN, 3900 bytes used), quota 4, last
committed 517, with 30 segments in the pool. -/
def filling : State :=
  { withSegment (withStream ready 2 { openStream with
      quota := 4, nextSeq := 518, lastCommitted := 517, chain := [38, 39], cursor := 1 }) 39
      { Segment.unscanned with
        location := .chain, header := .opened, owner := some 2, first := 400, last := 517, bytesUsed := 3900 } with
    pool := (List.finRange 30).map fun k => ⟨k.val + 100, by omega⟩ }

/-- Chapter 3's second example: stream 6 under WRAP with quota 3, segments 70 to 72, frontier 60, available 5. -/
def dropping : State :=
  { withSegment (withSegment (withSegment (withStream ready 6 { openStream with
      policy := .wrap, quota := 3, highWater := 3, nextSeq := 251, lastCommitted := 250, volatileFrontier := 60
      durableFrontier := 60, cursor := 61, chain := [68, 69, 70] }) 68
      { Segment.unscanned with location := .chain, header := .sealed, owner := some 6, first := 1, last := 90 }) 69
      { Segment.unscanned with location := .chain, header := .sealed, owner := some 6, first := 91, last := 180 }) 70
      { Segment.unscanned with
        location := .chain, header := .opened, owner := some 6, first := 181, last := 250, bytesUsed := 4052 } with
    pool := [100, 101, 102, 103, 104] }

/-- Stream 2's head entry stands before the COMMIT step given; segment 41 is the last of its chain. -/
def committing (c : CommitStep) (p : Placement) : State :=
  running { filling with staging := [entry p] } (.commit c)

/-- The state after a command; the state itself where it has no next one. -/
def after (c : Instr) (s : State) : State :=
  match exec c s with
  | .next t => t
  | .fault _ => s
  | .refused _ => s

/-- Four pulses that every bit of the first byte resists. -/
def stuck : Pulses := [[0xFF], [0xFF], [0xFF], [0xFF]]

/-! ### Worked examples of spec/ -/

/-- R18, R19: chapter 1's example: ARM, and the frame after it finds the latch. -/
theorem test_arm : (after .arm ready).port.armLatch = true ∧ (after .disarm armed).port.armLatch = false := by decide +kernel
/-- R13: a guarded command without ARM. -/
theorem test_not_armed : (after (.openStream 2 true) ready).port.outcome = .notArmed := by decide +kernel
/-- R32: OPEN STREAM. -/
theorem test_open : (after (.openStream 2 true) armed).streams[2].state = .opened
    ∧ (after (.openStream 2 true) armed).ledger.imageNeeded = true := by decide +kernel
/-- R176: PIN mode with the pin low. -/
theorem test_guarded_pin :
    (after (.openStream 2 false) { armed with guard := { Guard.default with working := .pin, anchored := .pin } }).port.outcome
      = .guarded := by decide +kernel
/-- R39: a WRAP stream needs a quota of 2. -/
theorem test_configure_wrap_quota :
    (after (.configureStream 3 1 1 1 0 true) armed).port.outcome = .badArgument := by decide +kernel
/-- Chapter 3's example, step 1: 150 bytes fit segment 41 exactly. -/
theorem test_append_fits : filling.projectedFree 2 = some 164
    ∧ ((after (.append 2 0 150 (List.replicate 150 0)) filling).staging.map fun e => (e.seq, e.placement))
      = [(518, .current)] := by decide +kernel
/-- Chapter 3's example, step 2: the next 20 bytes need a new segment; available falls from 30 to 29. -/
theorem test_append_new : filling.available = 30
    ∧ (after (.append 2 0 20 (List.replicate 20 0))
        (after (.append 2 0 150 (List.replicate 150 0)) filling)).available = 29 := by decide +kernel
/-- Chapter 3's second example: the drop takes segment 70, the frontier rises to 90, 30 records are overrun. -/
theorem test_wrap_drop :
    (after (.append 6 0 28 (List.replicate 28 0)) dropping).streams[6].volatileFrontier = 90
      ∧ (after (.append 6 0 28 (List.replicate 28 0)) dropping).streams[6].overrun = 30
      ∧ (after (.append 6 0 28 (List.replicate 28 0)) dropping).streams[6].chain = [69, 70]
      ∧ (after (.append 6 0 28 (List.replicate 28 0)) dropping).available = 4 := by decide +kernel
/-- R67: a SYNC with no item raises SYNC_DONE at once. -/
theorem test_sync_empty : (after .sync ready).eventLatch = 0x0001 ∧ (after .sync ready).sync = none := by decide +kernel
/-- R81: an ACK above last committed. -/
theorem test_ack_not_yet : (after (.ack 6 251) dropping).port.outcome = .notYet := by decide +kernel
/-- R82: an ACK of 200 releases segments 70 and 71, and makes a note pending. -/
theorem test_ack_releases : (after (.ack 6 200) dropping).streams[6].chain = [70]
    ∧ (after (.ack 6 200) dropping).ledger.pendingNotes[6] = true := by decide +kernel
/-- R86: the fifth mark pushes the oldest out. -/
theorem test_push_full :
    (after (.pushMark 2) (withStream ready 2 { openStream with marks := [4, 3, 2, 1], cursor := 9 })).streams[2].marks
      = [9, 4, 3, 2] := by decide +kernel
/-- R89: a mark below the range is clamped to the frontier + 1. -/
theorem test_rewind_clamps :
    (after (.rewind 6 0) (withStream ready 6 { openStream with
      marks := [3], volatileFrontier := 60, lastCommitted := 250, cursor := 100 })).streams[6].cursor = 61 := by decide +kernel
/-- R127, R129: SUSPEND of a running RECLAIM, and RESUME of it. -/
theorem test_suspend : (after .suspend (running ready (.reclaim 0 (.pulse 1)))).engine.state = .suspendPending := by
  decide +kernel
theorem test_resume_idle : (after .resume ready).port.outcome = .notSuspended := by decide +kernel
/-- R118: a record commits, and its footprint is added. -/
theorem test_record_commits : (after (.commitRecordStep []) (committing .record .current)).streams[2].lastCommitted = 518
    ∧ (after (.commitRecordStep []) (committing .record .current)).segments[39].bytesUsed = 3916 := by decide +kernel
/-- R119: a failed record program poisons the segment, and its entry awaits a replacement. -/
theorem test_record_fails : (after (.commitRecordStep stuck) (committing .record .current)).segments[39].poisoned = true
    ∧ (after (.commitRecordStep stuck) (committing .record .current)).engine.job = some (.commit (.close 39)) := by
  decide +kernel
/-- R183: a vault byte is driven toward old AND new. -/
theorem test_vault_byte :
    (after (.vaultWriteByteStep []) (running { ready with
      vault := ready.vault.set 1 (ready.vault[1].set 5 0x3C) } (.vault (.write 1 5 [0x0F])))).vault[1][5] = 0x0C := by
  decide +kernel
/-- R155: a soft reset keeps a working SESSION lock. -/
theorem test_reset_session :
    (after (.reset { pulses := [], residue := none, lockCell := false }) { ready with
      port := { Port.reset with resetEnable := true }
      guard := { Guard.default with working := .session } }).guard.working = .session := by decide +kernel
/-- R21: RESET without RESET ENABLE. -/
theorem test_reset_not_enabled :
    (after (.reset { pulses := [], residue := none, lockCell := false }) ready).port.outcome = .notEnabled := by decide +kernel
/-- R161: WAKE in DOZING, and the end of the wake phase. -/
theorem test_wake : (after .wake { ready with power := .dozing }).power = .waking
    ∧ (after .wakePhaseEnd { ready with power := .waking }).power = .active := by decide +kernel
/-- R14: during recovery. -/
theorem test_recovering : (after .arm State.reset).port.outcome = .recovering ∧ State.reset.statusByte = 0x40 := by
  decide +kernel

/-! ### For each statement, a state and operands that meet its hypotheses -/

theorem witness_StepRunsFrontCommand :
    ({ ready with pending := [.arm] } : State).pending = .arm :: [] ∧ ready.pending = [] := ⟨rfl, rfl⟩

/-- The invariants' premises, at a step that runs a command. -/
theorem witness_StepKeepsArrayCanonical : ∃ s t : State, Memory.wf s.array = true ∧ step s = .next t :=
  ⟨{ ready with pending := [.arm] }, _, rfl, rfl⟩

theorem witness_StepKeepsGuardAgreement : ∃ s t : State, s.guard.agrees = true ∧ step s = .next t :=
  ⟨{ ready with pending := [.arm] }, _, rfl, rfl⟩

theorem witness_StepKeepsEngineSound : ∃ s t : State, s.engineSound = true ∧ step s = .next t :=
  ⟨{ ready with pending := [.arm] }, _, by decide +kernel, rfl⟩

/-- A serving device with every data segment in the pool. -/
def placed : State := { ready with pool := List.finRange 510, pending := [.arm] }

theorem placed_segment (k : DataSeg) : placed.segments[k] = Segment.unscanned := by
  simp [placed, ready, State.reset]

theorem placed_stream (i : StreamId) : placed.streams[i] = Stream.formatted := by
  simp [placed, ready, State.reset]

theorem placed_placed : placed.Placed where
  pool_nodup := by
    have h : placed.pool = List.finRange 510 := by simp only [placed]
    rw [h]
    exact List.nodup_finRange _
  pool_iff k := by rw [placed_segment]; simp [placed, Segment.unscanned]
  reclaim_nodup := List.nodup_nil
  reclaim_iff k := by rw [placed_segment]; simp [placed, ready, State.reset, Segment.unscanned]
  chain_nodup i := by rw [placed_stream]; exact List.nodup_nil
  chain_owned i k h := by rw [placed_stream] at h; cases h
  chain_exists k h := by rw [placed_segment] at h; cases h
  release_iff k := by rw [placed_segment]; simp [Segment.unscanned]
  reclaim_first k h := by cases h
  erasing_job k p h := by cases h
  erasing_slot k n h := by cases h
  erasing_named k h := by rw [placed_segment] at h; cases h

theorem placed_related : placed.Related where
  ordered i := by rw [placed_stream]; rfl
  staged i := by
    unfold State.stagedInOrder
    rw [placed_stream]
    rfl
  chained i k h := by rw [placed_stream] at h; cases h
  captured_epoch c i h := by cases h
  captured_frontier c i h := by cases h
  fetching n b f c w i h := by cases h

theorem witness_StepKeepsPlaces : ∃ s t : State, s.power.holds = true ∧ s.engine.formatRuns = false ∧ s.engineSound = true
    ∧ s.Placed ∧ step s = .next t ∧ t.power.holds = true :=
  ⟨placed, _, rfl, rfl, by decide +kernel, placed_placed, rfl, rfl⟩

theorem witness_StepKeepsStreamRelations : ∃ s t : State, s.power.holds = true ∧ s.engine.formatRuns = false
    ∧ s.engineSound = true ∧ s.Placed ∧ s.Related ∧ step s = .next t ∧ t.power.holds = true :=
  ⟨placed, _, rfl, rfl, by decide +kernel, placed_placed, placed_related, rfl, rfl⟩

/-- An erase pulse on data segment 2 is due. -/
def erasing (n : Nat) : State := running ready (.reclaim 0 (.pulse n))

theorem witness_OnlyTheStepsWorkChangesTheArray :
    (∃ (c : Instr) (s t : State) (a : Nat), Memory.wf s.array = true ∧ exec c s = .next t ∧ ¬ s.stepWork.covers a)
      ∧ ∃ (c : Instr) (s t : State), Memory.wf s.array = true ∧ exec c s = .next t ∧ c.erasesArray = false
        ∧ c.cuts = false :=
  ⟨⟨.reclaimErasePulse [], erasing 0, _, 0, rfl, rfl, by show ¬ 0 / Config.segmentBytes = (0 : DataSeg).index; decide⟩, .arm, ready, _, rfl, rfl, rfl, rfl⟩

/-- A power loss in a record step and one in an erase pulse. -/
theorem witness_OnlyTheStepsWorkChangesTheArray_cut (cut : Cut) : ∃ t u : State, Memory.wf (committing .record .current).array = true
    ∧ exec (.powerLoss cut) (committing .record .current) = .next t ∧ (Instr.powerLoss cut).cuts = true
    ∧ (committing .record .current).stepWork.erasesArray = false
    ∧ exec (.powerLoss cut) (erasing 0) = .next u ∧ (erasing 0).stepWork.erasesArray = true :=
  ⟨_, _, rfl, rfl, rfl, by decide +kernel, rfl, by decide +kernel⟩

/-- The lock of vault page 3 is due. -/
def locking : State := running ready (.vault (.lock 3))

/-- A power loss in a record step, in the write and the erase of a page, and in a lock. -/
theorem witness_OnlyVaultStepsChangeTheVault_cut (cut : Cut) : (∃ t, exec (.powerLoss cut) (committing .record .current) = .next t)
    ∧ (∀ p : Fin 4, (committing .record .current).stepWork.vaultPage ≠ some p
      ∧ (committing .record .current).stepWork.lockPage ≠ some p)
    ∧ (∃ t, exec (.powerLoss cut) locking = .next t) ∧ locking.stepWork.vaultPage ≠ some 3 ∧ locking.stepWork.lockPage ≠ some 2
    ∧ (running ready (.vault (.write 1 0 [5]))).stepWork ≠ .vaultErase 1
    ∧ (running ready (.vault (.erase 1 0))).stepWork.lockPage ≠ some 1
    ∧ (running ready (.vault (.erase 1 0))).stepWork.vaultPage ≠ some 2 :=
  ⟨⟨_, rfl⟩, by decide +kernel, ⟨_, rfl⟩, by decide +kernel⟩

theorem witness_OnlyVaultStepsChangeTheVault :
    (∃ (c : Instr) (s t : State), exec c s = .next t ∧ c.vaultStep = false ∧ c.cuts = false)
      ∧ ∃ (c : Instr) (s t : State) (p : Fin 4), exec c s = .next t ∧ s.lockCells[p] = true :=
  ⟨⟨.arm, ready, _, rfl, rfl, rfl⟩,
   .arm, { ready with lockCells := Vector.replicate 4 true }, _, 0, rfl, rfl⟩

theorem witness_FrameRoundTrip :
    (Instr.append 2 9 1 [5]).wellFormed = true ∧ encodeFrame (.append 2 9 1 [5]) = some [0x56, 2, 9, 0, 1, 5] := by decide

/-- Each power state in which no frame is served, and a flag that is set. -/
theorem witness_FramesWithoutEffect : ready.port.snapshot = none ∧ Instr.arm.isFrame = true
    ∧ (Instr.unknownCommand 1).isFrame = true ∧ (Instr.discardedFrame 1).isFrame = true ∧ Instr.arm ≠ .wake
    ∧ ({ ready with power := .off } : State).power = .off ∧ ({ ready with power := .waking } : State).power = .waking
    ∧ ({ ready with power := .dozing } : State).power = .dozing ∧ ready.power = .active
    ∧ ({ Port.reset with frameIgnored := true } : Port).frameIgnored = true := by decide +kernel

theorem witness_RecoveringRefusesCommands : encodeFrame .arm = some [0x1A] ∧ Instr.arm.wellFormed = true
    ∧ Instr.arm ≠ .nullFrame ∧ (∀ n, Instr.arm ≠ .queryStatus n) ∧ State.reset.power = .recovering
    ∧ State.reset.port.frameIgnored = false ∧ State.reset.port.snapshot = none :=
  ⟨by decide, rfl, by decide, by simp, rfl, rfl, rfl⟩

theorem witness_RefusedFramesChangeNothing : ∃ t, encodeFrame .resume = some [0x74] ∧ (∀ n, Instr.resume ≠ .queryStatus n)
    ∧ Serving ready ∧ exec .resume ready = .next t ∧ t.port.outcome ≠ .done ∧ t.port.outcome ≠ .ledgerHalted :=
  ⟨_, by decide, by simp, ready_serving, rfl, by decide +kernel, by decide +kernel⟩

/-- In RECOVERING and in ACTIVE. -/
theorem witness_MalformedFramesAreDiscarded :
    ((State.reset.power = .active ∨ State.reset.power = .recovering) ∧ State.reset.port.frameIgnored = false
        ∧ State.reset.port.snapshot = none)
      ∧ (ready.power = .active ∨ ready.power = .recovering) ∧ ready.port.frameIgnored = false ∧ ready.port.snapshot = none := by
  decide +kernel

theorem witness_ArmDisarmAndResetEnable : Serving ready ∧ Instr.resume.isFrame = true ∧ Instr.resume ≠ .resetEnable
    ∧ (∀ n, Instr.resume ≠ .queryStatus n) ∧ Instr.resume ≠ .arm ∧ State.reset.power = .recovering
    ∧ State.reset.port.frameIgnored = false ∧ State.reset.port.snapshot = none ∧ ready.power ≠ .recovering
    ∧ ready.port.resetEnable = false ∧ (∃ t, exec .resetEnable ready = .next t ∧ t.port.resetEnable = true)
    ∧ (∃ t, exec .nullFrame ready = .next t) ∧ ready.port.snapshot = none
    ∧ (∃ t, exec .ignoredFrame { ready with power := .dozing } = .next t)
    ∧ ({ State.reset with power := .off } : State).power = .off :=
  ⟨ready_serving, by decide, by decide, by simp, by decide, rfl, rfl, rfl, by decide, rfl, ⟨_, rfl, rfl⟩, ⟨_, rfl⟩, rfl,
   ⟨_, rfl⟩, rfl⟩

theorem witness_QueryStatusIsTransparent : (State.reset.power = .active ∨ State.reset.power = .recovering)
    ∧ State.reset.port.frameIgnored = false ∧ State.reset.port.snapshot = none ∧ 8 ≤ 8
    ∧ State.reset.port.frameState = .idle := by decide +kernel

theorem witness_StatusCaptureAtSelFalling : ready.power = .active ∧ ready.port.frameState = .idle
    ∧ State.reset.power = .recovering ∧ State.reset.port.frameState = .idle := ⟨rfl, rfl, rfl, rfl⟩

/-- Where no frame is served, with no verdict in RECOVERING and ACTIVE, and with one formed while a job step is due. -/
theorem witness_VerdictIsFixed : ({ ready with power := .dozing } : State).power ≠ .active
    ∧ ({ ready with power := .dozing } : State).power ≠ .recovering
    ∧ State.reset.power = .recovering ∧ State.reset.port.frameIgnored = false ∧ State.reset.port.snapshot = none
    ∧ ready.power = .active ∧ ready.port.frameIgnored = false ∧ ready.port.snapshot = none
    ∧ OutputCommand.identify ≠ .queryStatus ∧ (ready.snapshotOf .readGuard).verdict = .done
    ∧ (ready.snapshotOf (.streamInfo 8 0)).verdict ≠ .done
    ∧ ∃ (s t : State) (n : Snapshot), s.power = .active ∧ s.port.frameIgnored = false ∧ s.port.snapshot = some n
      ∧ n.command = .readGuard ∧ n.verdict.isFrameError = false ∧ (Instr.reclaimErasePulse []).jobStep = true
      ∧ exec (.reclaimErasePulse []) s = .next t :=
  ⟨by decide, by decide, rfl, rfl, rfl, rfl, rfl, rfl, by decide, by decide +kernel, by decide +kernel,
   { erasing 0 with port := { Port.reset with frameState := .outputting, snapshot := some (ready.snapshotOf .readGuard) } }, _, _,
   rfl, rfl, rfl, rfl, by decide +kernel, rfl, rfl⟩

theorem witness_InformationCommandsChangeNothing : Serving ready
    ∧ (Instr.segmentInfo 511 3).wellFormed = true ∧ (511 : Word16).toNat < 512
    ∧ (Instr.vaultRead 3 127 3).wellFormed = true ∧ (3 : Byte).toNat < 4 ∧ (127 : Byte).toNat < 128
    ∧ ready.engine.vaultRuns = false ∧ (Instr.identify 1).wellFormed = true
    ∧ 512 ≤ (512 : Word16).toNat ∧ 4 ≤ (4 : Byte).toNat ∧ 128 ≤ (128 : Byte).toNat ∧ locking.engine.vaultRuns = true
    ∧ locking.power = .active ∧ locking.port.frameIgnored = false ∧ locking.port.snapshot = none :=
  ⟨ready_serving, by decide +kernel⟩

/-- A segment with an owner, one with each release condition, the only one under erasure, and a current anchor segment. -/
theorem witness_AnswersOfInformationCommands : Serving ready ∧ ready.port.frameState = .idle
    ∧ (7 : Byte).toNat = (7 : StreamId).val ∧ (511 : Word16).toNat < 512 ∧ (3 : Byte).toNat = (3 : Fin 4).val
    ∧ (127 : Byte).toNat < 128 ∧ ready.engine.vaultRuns = false ∧ (127 + 1) % 128 = (0 : Fin 128).val
    ∧ dropping.segments[(70 : DataSeg)].owner = some 6 ∧ dropping.segments[(70 : DataSeg)].header = .opened
    ∧ dropping.segments[(9 : DataSeg)].header = .blank ∧ dropping.segments[(9 : DataSeg)].eraseCount = none
    ∧ dropping.segments[(9 : DataSeg)].release = none
    ∧ (withSegment ready 9 { Segment.unscanned with eraseCount := some 7, release := some (.frontier 5) }).segments[(9 : DataSeg)].release
        = some (.frontier 5)
    ∧ (withSegment ready 9 { Segment.unscanned with release := some (.image 1) }).segments[(9 : DataSeg)].release = some (.image 1)
    ∧ ({ ready.ledger with current := some 1 } : Ledger).current = some 1 ∧ ready.ledger.current ≠ some 1
    ∧ ready.available < 2 ^ 15 ∧ -(2 ^ 15 : Int) ≤ ready.available := ⟨ready_serving, by decide +kernel⟩

theorem witness_ClearEventsResult : Serving ready := ready_serving
theorem witness_SetEventEnableResult : Serving ready := ready_serving

theorem ready_sound : ready.engineSound = true ∧ armed.engineSound = true := by decide +kernel

/-- Both policies, each at its smallest quota. -/
theorem witness_ConfigureStreamResult : Serving armed ∧ armed.engineSound = true ∧ armed.port.armLatch = true
    ∧ (3 : Byte).toNat = (3 : StreamId).val
    ∧ (((0 : Byte) = 0 ∧ Policy.block = .block ∧ 1 ≤ (1 : Word16).toNat) ∧ (1 : Word16).toNat ≤ 510)
    ∧ (((1 : Byte) = 1 ∧ Policy.wrap = .wrap ∧ 2 ≤ (2 : Word16).toNat) ∧ (2 : Word16).toNat ≤ 510)
    ∧ 1 ≤ (1 : Word16).toNat ∧ (1 : Word16).toNat ≤ (1 : Word16).toNat ∧ armed.guard.permits false
    ∧ armed.streams[(3 : StreamId)].state = .idle ∧ (∀ e ∈ armed.staging, e.stream ≠ 3)
    ∧ armed.streams[(3 : StreamId)].lastCommitted = armed.streams[(3 : StreamId)].volatileFrontier :=
  ⟨armed_serving, ready_sound.2, rfl, rfl, by decide, by decide, by decide, by decide, .inl rfl, rfl, by simp [armed, ready, State.reset],
   rfl⟩

/-- The guard forbids every guarded command, the arm latch is set. -/
def locked : State := { armed with guard := { Guard.default with working := .permanent, anchored := .permanent } }

theorem locked_serving : Serving locked ∧ locked.port.armLatch = true ∧ ¬ locked.guard.permits true :=
  ⟨⟨rfl, rfl, rfl⟩, rfl, by simp [Guard.permits, locked, Guard.default]⟩

/-- The refusals that the armed commands share: no arm latch, stream 8, a closed guard; a guard that follows the pin. -/
theorem witness_refusals : Serving ready ∧ ready.port.armLatch = false ∧ Serving armed ∧ armed.port.armLatch = true
    ∧ 8 ≤ (8 : Byte).toNat ∧ (7 : Byte).toNat < 8 ∧ Serving locked ∧ locked.port.armLatch = true
    ∧ ¬ locked.guard.permits true ∧ ¬ ({ Guard.default with working := .pin } : Guard).permits false
    ∧ ({ Guard.default with working := .pin } : Guard).permits true :=
  ⟨ready_serving, rfl, armed_serving, rfl, by decide, by decide, locked_serving.1, rfl, locked_serving.2.2,
   by simp [Guard.permits], .inr ⟨rfl, rfl⟩⟩

/-- The ledger is halted. -/
def halted : State := { armed with ledger := { armed.ledger with halted := true } }

/-- What the commands that set ledger work pending tell apart: an IDLE engine with the ledger in use and with it halted, one that runs. -/
theorem witness_LedgerWoken : Serving armed ∧ armed.engineSound = true ∧ armed.engine.state = .idle ∧ armed.ledger.halted = false
    ∧ Serving halted ∧ halted.engineSound = true ∧ halted.engine.state = .idle ∧ halted.ledger.halted = true
    ∧ halted.port.armLatch = true ∧ halted.guard.permits false ∧ halted.streams[(3 : StreamId)].state = .idle
    ∧ halted.engine.formatRuns = false ∧ (running armed (.ledger .image)).engineSound = true
    ∧ (running armed (.ledger .image)).engine.state ≠ .idle ∧ (running armed (.ledger .image)).port.armLatch = true
    ∧ (running armed (.ledger .image)).guard.permits false ∧ (running armed (.ledger .image)).engine.formatRuns = false :=
  ⟨armed_serving, ready_sound.2, rfl, rfl, ⟨rfl, rfl, rfl⟩, by decide +kernel, rfl, rfl, rfl, .inl rfl, by decide +kernel, rfl,
   by decide +kernel, by decide, rfl, .inl rfl, rfl⟩

/-- R111, R137: CONFIGURE STREAM on an IDLE engine starts the LEDGER job, which without a current segment is a compaction; a running
job goes on. -/
theorem test_configure_starts_ledger :
    (after (.configureStream 3 0 4 2 1 true) armed).engine.job = some (.ledger (.compactErase 0 1 0))
    ∧ (after (.configureStream 3 0 4 2 1 true) (running armed (.reclaim 0 (.pulse 1)))).engine.job = some (.reclaim 0 (.pulse 1))
    ∧ (after (.configureStream 3 0 4 2 1 true) halted).engine.state = .idle := by decide +kernel

/-- Arguments at the edges of R39's table, and a stream that is not IDLE, one with a staged entry, one that is not empty. -/
theorem witness_ConfigureStreamResult_refused : ¬ ConfigLegal 2 4 2 ∧ ¬ ConfigLegal 1 1 1 ∧ ¬ ConfigLegal 0 511 1
    ∧ ¬ ConfigLegal 0 4 5 ∧ ¬ ConfigLegal 0 4 0 ∧ ConfigLegal 0 1 1 ∧ ConfigLegal 1 510 510
    ∧ (withStream armed 2 openStream).streams[(2 : StreamId)].state ≠ .idle
    ∧ (∃ e ∈ ({ armed with staging := [entry .new] } : State).staging, e.stream = 2)
    ∧ dropping.streams[(6 : StreamId)].lastCommitted ≠ dropping.streams[(6 : StreamId)].volatileFrontier := by
  refine ⟨?_, ?_, ?_, ?_, ?_, ?_, ?_, by decide +kernel, ⟨entry .new, List.mem_singleton_self _, rfl⟩, by decide +kernel⟩ <;>
    unfold ConfigLegal <;> decide

/-- An IDLE stream to open, an OPEN one and a FAULTED one to close, with an IDLE engine and with one that runs. -/
theorem witness_OpenAndCloseStream : Serving armed ∧ armed.engineSound = true ∧ armed.port.armLatch = true
    ∧ (2 : Byte).toNat = (2 : StreamId).val ∧ armed.guard.permits false ∧ armed.streams[(2 : StreamId)].state = .idle
    ∧ armed.engine.state = .idle ∧ armed.ledger.halted = false
    ∧ (running armed (.ledger .image)).engineSound = true ∧ (running armed (.ledger .image)).engine.state ≠ .idle
    ∧ (withStream armed 2 openStream).streams[(2 : StreamId)].state = .opened
    ∧ (withStream armed 2 { openStream with state := .faulted }).streams[(2 : StreamId)].state = .faulted :=
  ⟨armed_serving, ready_sound.2, rfl, rfl, .inl rfl, by decide +kernel⟩

/-- States in which OPEN STREAM and CLOSE STREAM are refused WRONG_STATE. -/
theorem witness_OpenAndCloseStream_refused : (withStream armed 2 openStream).streams[(2 : StreamId)].state ≠ .idle
    ∧ armed.streams[(2 : StreamId)].state ≠ .opened ∧ armed.streams[(2 : StreamId)].state ≠ .faulted
    ∧ (withStream armed 2 { openStream with state := .sealed }).streams[(2 : StreamId)].state ≠ .opened := by decide +kernel

/-- A chain segment, a segment that waits already, and one of neither kind. -/
theorem witness_ResetStreamResult : ∃ s : State, Serving s ∧ s.engineSound = true ∧ s.port.armLatch = true
    ∧ (6 : Byte).toNat = (6 : StreamId).val ∧ s.guard.permits true ∧ s.engine.holdsCommit = false
    ∧ s.streams[(6 : StreamId)].epoch ≠ Config.max32 ∧ (70 : DataSeg) ∈ s.streams[(6 : StreamId)].chain
    ∧ (9 : DataSeg) ∉ s.streams[(6 : StreamId)].chain ∧ s.segments[(9 : DataSeg)].location = .release
    ∧ s.segments[(9 : DataSeg)].owner = some 6 ∧ (8 : DataSeg) ∉ s.streams[(6 : StreamId)].chain
    ∧ s.segments[(8 : DataSeg)].location ≠ .release :=
  ⟨withSegment { dropping with port := armed.port } 9 { Segment.unscanned with location := .release, owner := some 6 },
   ⟨rfl, rfl, rfl⟩, by decide +kernel, rfl, rfl, .inl rfl, by decide +kernel⟩

/-- The last epoch, a COMMIT job, a sync point with an item of each kind, and the note of the stream in progress. -/
theorem witness_ResetStreamResult_clauses :
    (withStream armed 6 { openStream with epoch := 0xFFFFFFFF }).streams[(6 : StreamId)].epoch = 0xFFFFFFFF
    ∧ (running armed (.commit .record)).engine.state ≠ .idle
    ∧ (running armed (.commit .record)).engine.job = some (.commit .record)
    ∧ (∀ c, (running armed (.reclaim 0 (.pulse 1))).engine.job ≠ some (.commit c))
    ∧ (running armed (.ledger .image)).engine.job ≠ some (.ledger (.note 6)) ∧ (5 : StreamId) ≠ 6
    ∧ (running armed (.ledger (.note 6))).engine.job = some (.ledger (.note 6))
    ∧ (running armed (.ledger (.note 6))).engineSound = true
    ∧ ∃ s : State, s.sync = some [.staged 6 0 5, .frontier 6 0 3, .frontier 5 0 3, .epochImage 6 0, .nextImage] :=
  ⟨by decide +kernel, by decide, rfl, by simp [running], by decide, by decide, rfl, by decide +kernel, { armed with sync := some _ }, rfl⟩

/-- With the verdict formed at SEL high and formed before, up to the notices byte and short of it, and with no such stream. -/
theorem witness_StreamInfoClearsShownNotices : Serving ready ∧ (2 : Byte).toNat = (2 : StreamId).val ∧ 3 ≤ 66 ∧ 66 ≤ 66
    ∧ 65 < 66 ∧ 8 ≤ (8 : Byte).toNat
    ∧ ∃ (s : State) (v : Snapshot), s.power = .active ∧ s.port.frameIgnored = false ∧ s.port.snapshot = some v
      ∧ v.command = .streamInfo 2 0xFF ∧ v.verdict = .done :=
  ⟨ready_serving, rfl, by decide, by decide, by decide, by decide,
   { ready with port := { Port.reset with snapshot := some (ready.snapshotOf (.streamInfo 2 0xFF)) } }, _, rfl, rfl, rfl, rfl,
   by decide +kernel⟩

theorem witness_DeviceConfigResult : Serving armed ∧ armed.engineSound = true ∧ armed.port.armLatch = true
    ∧ 1 ≤ (64 : Byte).toNat ∧ (64 : Byte).toNat ≤ 64 ∧ armed.guard.permits false ∧ armed.engine.formatRuns = false :=
  ⟨armed_serving, ready_sound.2, rfl, by decide, by decide, .inl rfl, rfl⟩

theorem witness_DeviceConfigResult_refused : (0 : Byte).toNat = 0 ∧ 64 < (65 : Byte).toNat
    ∧ (running armed (.format true (.anchorErase 0))).engine.formatRuns = true := by decide

/-- A WRITE GUARD that changes the anchored guard, and a SESSION that does not. -/
theorem witness_WriteGuardResult : Serving armed ∧ armed.engineSound = true ∧ armed.port.armLatch = true
    ∧ lockModeCode .permanent = 3 ∧ lockModeCode .session = 2 ∧ ((0 : Byte) = 0 ∨ (0 : Byte) = 1)
    ∧ armed.guard.permits false ∧ (after (.writeGuard 3 0 0 false) armed).guard.anchored ≠ armed.guard.anchored
    ∧ (after (.writeGuard 2 0 0 false) armed).guard.anchored = armed.guard.anchored :=
  ⟨armed_serving, ready_sound.2, rfl, rfl, rfl, .inl rfl, .inl rfl, by decide +kernel, by decide +kernel⟩

theorem witness_WriteGuardResult_refused : 4 ≤ (4 : Byte).toNat ∧ 2 ≤ (2 : Byte).toNat ∧ (3 : Byte).toNat < 4
    ∧ (1 : Byte).toNat < 2 := by decide

theorem witness_VaultCommandsStartTheirJob : Serving armed ∧ armed.port.armLatch = true ∧ (3 : Byte).toNat = (3 : Fin 4).val
    ∧ armed.engine.state = .idle ∧ armed.vaultLocks[(3 : Fin 4)] = false ∧ 1 ≤ (1 : Byte).toNat
    ∧ (127 : Byte).toNat + (1 : Byte).toNat ≤ 128 ∧ [(5 : Byte)].length = (1 : Byte).toNat :=
  ⟨armed_serving, rfl, rfl, rfl, by decide +kernel, by decide, by decide, by decide⟩

/-- Frames and arguments at the edges of R182, an engine that runs, a page that is locked. -/
theorem witness_VaultCommandsStartTheirJob_refused : [(5 : Byte)].length ≠ (2 : Byte).toNat ∧ ([] : List Byte).length = (0 : Byte).toNat
    ∧ 4 ≤ (4 : Byte).toNat ∧ 128 ≤ (128 : Byte).toNat ∧ 128 < (127 : Byte).toNat + (2 : Byte).toNat
    ∧ (List.replicate 129 (0 : Byte)).length = (129 : Byte).toNat ∧ 128 < (129 : Byte).toNat
    ∧ (running armed (.ledger .image)).engine.state ≠ .idle
    ∧ ({ armed with vaultLocks := Vector.replicate 4 true } : State).vaultLocks[(3 : Fin 4)] = true := by decide +kernel

/-- The premises that APPEND statements share, on chapter 3's example. -/
theorem filling_ready : Serving filling ∧ filling.engineSound = true ∧ (2 : Byte).toNat = (2 : StreamId).val
    ∧ filling.guard.appendLocks.getLsbD 2 = false ∧ filling.engine.formatRuns = false
    ∧ filling.streams[(2 : StreamId)].state = .opened ∧ filling.staging.length < 16
    ∧ filling.streams[(2 : StreamId)].nextSeq ≠ 0xFFFFFFFE := ⟨⟨rfl, rfl, rfl⟩, by decide +kernel⟩

/-- 150 bytes fit exactly, on an IDLE engine and on one that runs. -/
theorem witness_AppendIntoCurrentSegment : Serving filling ∧ filling.engineSound = true
    ∧ (List.replicate 150 (0 : Byte)).length = (150 : Word16).toNat ∧ 1 ≤ (150 : Word16).toNat ∧ (150 : Word16).toNat ≤ 1012
    ∧ footprint 150 ≤ filling.freeStaging ∧ filling.projectedFree 2 = some 164 ∧ footprint 150 ≤ 164
    ∧ filling.engine.state = .idle ∧ (running filling (.ledger .image)).engineSound = true
    ∧ (running filling (.ledger .image)).engine.state ≠ .idle := ⟨filling_ready.1, by decide +kernel⟩

/-- Each check of R50 before placement at its edge. -/
theorem witness_AppendIntoCurrentSegment_refused : [(5 : Byte)].length ≠ (2 : Word16).toNat ∧ 8 ≤ (8 : Byte).toNat
    ∧ (0 : Word16).toNat = 0 ∧ 1012 < (1013 : Word16).toNat ∧ (0x04 : Byte).getLsbD (2 : StreamId).val = true
    ∧ (running filling (.format true (.anchorErase 0))).engine.formatRuns = true
    ∧ ready.streams[(2 : StreamId)].state ≠ .opened
    ∧ ({ filling with staging := List.replicate 2 { entry .new with payload := List.replicate 1000 0 } } : State).freeStaging
        < footprint 1012
    ∧ 16 ≤ ({ filling with staging := List.replicate 16 (entry .new) } : State).staging.length := by decide +kernel

/-- 153 bytes do not fit: footprint 168. -/
theorem witness_AppendIntoNewSegment : Serving filling ∧ filling.engineSound = true
    ∧ (List.replicate 153 (0 : Byte)).length = (153 : Word16).toNat ∧ footprint 153 ≤ filling.freeStaging
    ∧ filling.projectedFree 2 = some 164 ∧ 164 < footprint 153
    ∧ filling.streams[(2 : StreamId)].held < filling.streams[(2 : StreamId)].quota ∧ 1 ≤ filling.available :=
  ⟨filling_ready.1, by decide +kernel⟩

/-- A BLOCK stream at its quota, a stream below it without an available segment, and an engine that runs. -/
theorem witness_AppendIntoNewSegment_refused :
    (withStream filling 2 { filling.streams[(2 : StreamId)] with quota := 2 }).streams[(2 : StreamId)].quota
      ≤ (withStream filling 2 { filling.streams[(2 : StreamId)] with quota := 2 }).streams[(2 : StreamId)].held
    ∧ filling.streams[(2 : StreamId)].policy = .block ∧ ({ filling with pool := [] } : State).available < 1
    ∧ filling.engine.state = .idle ∧ (running filling (.ledger .image)).engine.state ≠ .idle
    ∧ (running filling (.ledger .image)).engineSound = true := by decide +kernel

theorem witness_WrapDropAtAcceptance : Serving dropping ∧ dropping.engineSound = true ∧ (6 : Byte).toNat = (6 : StreamId).val
    ∧ (List.replicate 28 (0 : Byte)).length = (28 : Word16).toNat ∧ dropping.guard.appendLocks.getLsbD 6 = false
    ∧ dropping.engine.formatRuns = false ∧ dropping.streams[(6 : StreamId)].state = .opened
    ∧ footprint 28 ≤ dropping.freeStaging ∧ dropping.staging.length < 16 ∧ dropping.projectedFree 6 = some 12
    ∧ 12 < footprint 28 ∧ dropping.streams[(6 : StreamId)].policy = .wrap
    ∧ dropping.streams[(6 : StreamId)].quota ≤ dropping.streams[(6 : StreamId)].held ∧ dropping.dropCandidate 6 = some 68
    ∧ 1 ≤ dropping.available ∧ dropping.streams[(6 : StreamId)].nextSeq ≠ 0xFFFFFFFE :=
  ⟨⟨rfl, rfl, rfl⟩, by decide +kernel⟩

/-- Records lost and none lost, no drop candidate, and no available segment. -/
theorem witness_WrapDropAtAcceptance_clauses :
    max dropping.streams[(6 : StreamId)].volatileFrontier (dropping.segments[(68 : DataSeg)].first - 1)
      < dropping.segments[(68 : DataSeg)].last
    ∧ (withStream dropping 6 { dropping.streams[(6 : StreamId)] with volatileFrontier := 90, cursor := 91 }).dropCandidate 6 = some 68
    ∧ dropping.segments[(68 : DataSeg)].last ≤ 90
    ∧ (withStream dropping 6 { dropping.streams[(6 : StreamId)] with chain := [70], quota := 1 }).dropCandidate 6 = none
    ∧ ({ dropping with pool := [] } : State).dropCandidate 6 ≠ none ∧ ({ dropping with pool := [] } : State).available < 1 := by
  decide +kernel

theorem witness_WrapDropAtAcceptance_engine : dropping.engine.state = .idle
    ∧ (running dropping (.ledger .image)).engineSound = true ∧ (running dropping (.ledger .image)).engine.state ≠ .idle := by
  decide +kernel

/-- Stream 2 is about to be assigned the last sequence. -/
def lastOne : State := withStream filling 2 { filling.streams[(2 : StreamId)] with
  nextSeq := 0xFFFFFFFE, lastCommitted := 0xFFFFFFFD }

theorem witness_LastSequenceSealsTheStream : ∃ t, Serving lastOne ∧ lastOne.engineSound = true
    ∧ (2 : Byte).toNat = (2 : StreamId).val ∧ lastOne.streams[(2 : StreamId)].nextSeq = 0xFFFFFFFE
    ∧ exec (.append 2 0 1 [5]) lastOne = .next t ∧ t.port.outcome = .done :=
  ⟨_, ⟨rfl, rfl, rfl⟩, by decide +kernel, rfl, by decide +kernel, rfl, by decide +kernel⟩

/-- The last sequence in the current segment, in a new one below the quota, and in a new one after a drop. -/
theorem witness_LastSequenceSealsTheStream_placed : lastOne.guard.appendLocks.getLsbD 2 = false
    ∧ lastOne.engine.formatRuns = false ∧ lastOne.streams[(2 : StreamId)].state = .opened
    ∧ footprint 153 ≤ lastOne.freeStaging ∧ lastOne.staging.length < 16 ∧ lastOne.projectedFree 2 = some 164
    ∧ footprint 150 ≤ 164 ∧ 164 < footprint 153 ∧ 1 ≤ lastOne.available
    ∧ lastOne.streams[(2 : StreamId)].held < lastOne.streams[(2 : StreamId)].quota ∧ lastOne.engine.state = .idle
    ∧ (running lastOne (.ledger .image)).engineSound = true
    ∧ (let s := withStream dropping 6 { dropping.streams[(6 : StreamId)] with nextSeq := 0xFFFFFFFE }
       s.streams[(6 : StreamId)].policy = .wrap ∧ s.dropCandidate 6 ≠ none ∧ s.engineSound = true) := by decide +kernel

/-- A SYNC without items, and one with a frontier item. -/
theorem witness_SyncRecordsItsItems : Serving ready ∧ ready.engineSound = true ∧ ready.beginFrame.syncItems = []
    ∧ (∃ s : State, Serving s ∧ s.engineSound = true ∧ s.beginFrame.syncItems ≠ []) :=
  ⟨ready_serving, ready_sound.1, by decide +kernel,
   withStream ready 2 { openStream with volatileFrontier := 3, lastCommitted := 3, nextSeq := 4, cursor := 4 },
   ⟨rfl, rfl, rfl⟩, by decide +kernel, by decide +kernel⟩

/-- Frontiers that differ and frontiers that do not, on an IDLE engine, on one that runs and with the ledger halted. -/
theorem witness_SyncRecordsItsItems_engine :
    (∀ i : StreamId, ready.streams[i].volatileFrontier = ready.streams[i].durableFrontier) ∧ ready.engine.state = .idle
    ∧ (let s := withStream ready 2 { openStream with volatileFrontier := 3, lastCommitted := 3, nextSeq := 4, cursor := 4 }
       (∃ i : StreamId, s.streams[i].volatileFrontier ≠ s.streams[i].durableFrontier) ∧ s.engine.state = .idle
        ∧ s.ledger.halted = false ∧ (running s (.ledger .image)).engineSound = true
        ∧ ({ s with ledger := { s.ledger with halted := true } } : State).engineSound = true) :=
  ⟨fun i => by simp [ready, State.reset, Stream.formatted], rfl, ⟨2, by decide +kernel⟩, by decide +kernel⟩

/-- Stream 6 of chapter 3's example, its cursor at 61: the CURSOR form with records and without one, a frame cut short, and the
SEQUENCE form at the edges of what is retained and committed. -/
theorem witness_FetchAtTheCursor : ∃ d : List (List Byte), Serving dropping ∧ (6 : Byte).toNat = (6 : StreamId).val
    ∧ dropping.engine.runs = false ∧ dropping.streams[(6 : StreamId)].cursor = 61
    ∧ dropping.streams[(6 : StreamId)].volatileFrontier = 60 ∧ dropping.streams[(6 : StreamId)].lastCommitted = 250
    ∧ 2 = min (2 : Byte).toNat (250 + 1 - 61) ∧ 0 = min (2 : Byte).toNat (250 + 1 - 251)
    ∧ d = dropping.delivery 6 61 2 ∧ 9 + (d.take 1).flatten.length ≤ 9 + (d.take 1).flatten.length
    ∧ 9 + (d.take 1).flatten.length < 9 + (d.take 2).flatten.length :=
  ⟨_, ⟨rfl, rfl, rfl⟩, rfl, rfl, by decide +kernel, by decide +kernel, by decide +kernel, by decide, by decide, rfl, Nat.le_refl _,
   by decide +kernel⟩

/-- Every locator form, an operand and a count that break its rules, an engine that runs, a verdict formed before. -/
theorem witness_FetchAtTheCursor_forms : LocatorLegal 0 0 ∧ LocatorLegal 1 60 ∧ LocatorLegal 3 0xFFFF ∧ LocatorLegal 5 0
    ∧ ¬ LocatorLegal 0 1 ∧ ¬ LocatorLegal 2 0x10000 ∧ ¬ LocatorLegal 6 0
    ∧ dropping.streams[(6 : StreamId)].startsAt 1 60 60 ∧ dropping.streams[(6 : StreamId)].startsAt 1 251 251
    ∧ dropping.streams[(6 : StreamId)].startsAt 5 0 250 ∧ dropping.streams[(6 : StreamId)].startsAt 4 0 61
    ∧ dropping.streams[(6 : StreamId)].startsAt 2 0xFFFF 60 ∧ dropping.streams[(6 : StreamId)].marks = []
    ∧ (running dropping (.ledger .image)).engine.runs = true ∧ 16 < (17 : Byte).toNat
    ∧ ∃ (s : State) (v : Snapshot), s.power = .active ∧ s.port.frameIgnored = false ∧ s.port.snapshot = some v
      ∧ v.command = .fetch 6 0 0 2 ∧ v.verdict = .done
      ∧ 1 = (v.recordEnds.filter fun e => decide (9 + e ≤ 9 + v.recordEnds.headD 0)).length := by
  refine ⟨?_, ?_, ?_, ?_, ?_, ?_, ?_, ?_, ?_, ?_, ?_, ?_, by decide +kernel, rfl, by decide,
    { dropping with port := { Port.reset with snapshot := some (dropping.snapshotOf (.fetch 6 0 0 2)) } }, _, rfl, rfl, rfl, rfl,
    by decide +kernel, by decide +kernel⟩
  all_goals first | (unfold LocatorLegal; decide) | (unfold Stream.startsAt; refine ⟨?_, ?_, ?_, ?_, ?_, ?_⟩ <;>
    first | (intro h; exact absurd h (by decide)) | exact fun _ => by decide +kernel)

/-- Stream 2's first record stands alone in segment 41. -/
def recorded : State :=
  { withSegment (withStream ready 2 { openStream with chain := [38, 39], lastCommitted := 1, nextSeq := 2 }) 39
      { Segment.unscanned with location := .chain, header := .opened, owner := some 2, first := 1, last := 1, bytesUsed := 16 } with
    array := (program [] (recordItem (recordAddr 39 0) { entry .current with seq := 1 }) []).1 }

/-- A chain that holds the sequence in its second segment; a record that passes and one that does not; a length that cannot be used. -/
theorem witness_FetchAtTheCursor_records : recorded.streams[(2 : StreamId)].chain = [38] ++ 39 :: []
    ∧ recorded.segments[(38 : DataSeg)].last < 1 + 0 ∧ recorded.segments[(39 : DataSeg)].first + 0 = 1 + 0
    ∧ 1 + 0 ≤ recorded.segments[(39 : DataSeg)].last ∧ recorded.lengthUsable 39 0
    ∧ recorded.recordPasses 2 1 (recordAddr 39 (recorded.recordOffset 39 0))
    ∧ ¬ recorded.recordPasses 3 1 (recordAddr 39 (recorded.recordOffset 39 0)) ∧ ¬ dropping.lengthUsable 68 60 := by
  unfold State.lengthUsable State.recordPasses
  decide +kernel

/-- An ACK that releases (90 and 61), one at the frontier (60), one above last committed (251). -/
theorem witness_AckResult : Serving dropping ∧ (6 : Byte).toNat = (6 : StreamId).val ∧ dropping.engine.formatRuns = false
    ∧ dropping.engineSound = true ∧ dropping.streams[(6 : StreamId)].volatileFrontier < (61 : Word32).toNat
    ∧ (250 : Word32).toNat ≤ dropping.streams[(6 : StreamId)].lastCommitted
    ∧ (60 : Word32).toNat ≤ dropping.streams[(6 : StreamId)].volatileFrontier
    ∧ (60 : Word32).toNat ≤ dropping.streams[(6 : StreamId)].lastCommitted
    ∧ dropping.streams[(6 : StreamId)].lastCommitted < (251 : Word32).toNat := ⟨⟨rfl, rfl, rfl⟩, by decide +kernel⟩

/-- An ACK that moves no cursor and releases nothing, one that does, and the refusals. -/
theorem witness_AckResult_clauses : (after (.ack 6 61) dropping).streams[(6 : StreamId)].chain = [68, 69, 70]
    ∧ (after (.ack 6 90) dropping).streams[(6 : StreamId)].chain = [69, 70]
    ∧ (after (.ack 6 61) (withStream dropping 6 { dropping.streams[(6 : StreamId)] with cursor := 251 })).streams[(6 : StreamId)].cursor
        = 251
    ∧ dropping.engine.state = .idle ∧ dropping.ledger.halted = false
    ∧ ({ dropping with ledger := { dropping.ledger with halted := true } } : State).engineSound = true
    ∧ (running dropping (.ledger .image)).engineSound = true ∧ (running dropping (.ledger .image)).engine.state ≠ .idle
    ∧ 8 ≤ (8 : Byte).toNat ∧ (running dropping (.format true (.anchorErase 0))).engine.formatRuns = true := by decide +kernel

/-- A stack with room, a full one, one with a mark and an empty one. -/
theorem witness_MarkCommandsResult : Serving (withStream ready 2 { openStream with marks := [4, 3, 2, 1] })
    ∧ (2 : Byte).toNat = (2 : StreamId).val ∧ ready.engine.formatRuns = false
    ∧ ready.streams[(2 : StreamId)].marks.length < 4 ∧ ready.streams[(2 : StreamId)].marks = []
    ∧ (withStream ready 2 { openStream with marks := [4, 3, 2, 1] }).streams[(2 : StreamId)].marks = 4 :: [3, 2, 1]
    ∧ (withStream ready 2 { openStream with marks := [4, 3, 2, 1] }).streams[(2 : StreamId)].marks.length = 4 :=
  ⟨⟨rfl, rfl, rfl⟩, by decide +kernel⟩

theorem witness_RewindMovesTheCursor : Serving (withStream ready 2 { openStream with marks := [4] })
    ∧ (2 : Byte).toNat = (2 : StreamId).val
    ∧ (withStream ready 2 { openStream with marks := [4] }).engine.formatRuns = false
    ∧ (withStream ready 2 { openStream with marks := [4] }).streams[(2 : StreamId)].volatileFrontier
        ≤ (withStream ready 2 { openStream with marks := [4] }).streams[(2 : StreamId)].lastCommitted
    ∧ (0 : Byte).toNat < 3 ∧ (1 : Byte).toNat < 3 ∧ (2 : Byte).toNat < 3
    ∧ (withStream ready 2 { openStream with marks := [4] }).streams[(2 : StreamId)].marks ≠ [] :=
  ⟨⟨rfl, rfl, rfl⟩, by decide +kernel⟩

theorem witness_RewindMovesTheCursor_refused : 8 ≤ (8 : Byte).toNat ∧ 3 ≤ (3 : Byte).toNat ∧ (1 : Byte).toNat < 2
    ∧ ready.streams[(2 : StreamId)].marks = [] ∧ ready.engine.formatRuns = false
    ∧ (running ready (.format true (.anchorErase 0))).engine.formatRuns = true := by decide +kernel

/-- An engine in each state and with each kind of job that SUSPEND tells apart. -/
theorem witness_SuspendDecides : Serving (erasing 1) ∧ Serving ready ∧ Serving locking
    ∧ ({ (erasing 1).engine with state := .suspended } : Engine).state = .suspended
    ∧ ((erasing 1).engine.state = .running ∧ (erasing 1).engine.resumeLock = false
        ∧ (erasing 1).engine.job = some (.reclaim 0 (.pulse 1)))
    ∧ ({ (erasing 1).engine with resumeLock := true } : Engine).resumeLock = true
    ∧ (ready.engine.state = .idle ∧ ready.engine.resumeLock = false) ∧ locking.engine.job = some (.vault (.lock 3)) :=
  ⟨⟨rfl, rfl, rfl⟩, ready_serving, ⟨rfl, rfl, rfl⟩, rfl, ⟨rfl, rfl, rfl⟩, rfl, ⟨rfl, rfl⟩, rfl⟩

theorem witness_ResumeByEngineState : ∃ a b : State, Serving a ∧ a.engine.state = .suspended ∧ Serving b
    ∧ b.engine.state = .suspendPending ∧ Serving ready ∧ (ready.engine.state = .idle ∨ ready.engine.state = .running) :=
  ⟨{ erasing 1 with engine := { (erasing 1).engine with state := .suspended } },
   { erasing 1 with engine := { (erasing 1).engine with state := .suspendPending } },
   ⟨rfl, rfl, rfl⟩, rfl, ⟨rfl, rfl, rfl⟩, rfl, ready_serving, .inl rfl⟩

theorem witness_FormatIsAccepted : Serving armed ∧ armed.port.armLatch = true ∧ armed.guard.permits false
    ∧ armed.guard.formatInhibit = false ∧ armed.engine.state = .idle := ⟨armed_serving, rfl, .inl rfl, rfl, rfl⟩

theorem witness_FormatIsAccepted_refused : ready.port.armLatch = false ∧ ¬ locked.guard.permits true
    ∧ ({ Guard.default with formatInhibit := true } : Guard).formatInhibit = true
    ∧ (running armed (.ledger .image)).engine.state ≠ .idle := ⟨rfl, locked_serving.2.2, rfl, by decide⟩

theorem witness_DozeAndWake : Serving ready ∧ ready.engine.state = .idle ∧ ready.ledger.workPending = false
    ∧ (erasing 1).engine.state ≠ .idle ∧ ({ ready.ledger with imageNeeded := true } : Ledger).imageNeeded = true
    ∧ ({ ready.ledger with pendingNotes := Vector.replicate 8 true } : Ledger).pendingNotes[(0 : StreamId)] = true
    ∧ ({ ready with power := .dozing } : State).power = .dozing
    ∧ ({ ready with power := .waking } : State).power = .waking :=
  ⟨ready_serving, rfl, by decide +kernel, by decide, rfl, by decide, rfl, rfl⟩

/-- An OFF device, one that loses power with an IDLE engine, and one in a frame. -/
theorem witness_PowerOnAndPowerLoss : ({ ready with power := .off } : State).power = .off ∧ ready.power ≠ .off
    ∧ ready.engine.runs = false ∧ Instr.arm.isFrame = true
    ∧ ∃ t, exec (.powerLoss { pulses := [], residue := none, lockCell := false })
        { ready with port := { Port.reset with frameState := .receivingCommand } } = .next t ∧ t.port.frameIgnored = true :=
  ⟨rfl, by decide, rfl, by decide, _, rfl, rfl⟩

theorem witness_SoftReset : ∃ s : State, Serving s ∧ s.port.resetEnable = true ∧ s.engine.runs = false ∧ Serving ready
    ∧ ready.port.resetEnable = false :=
  ⟨{ ready with port := { Port.reset with resetEnable := true } }, ⟨rfl, rfl, rfl⟩, rfl, rfl, ready_serving, rfl⟩

/-- The default image with one stream configured, as chapter 2's example has it. -/
def imaged : ImageContent :=
  { ready.imageContent with
    streams := ready.imageContent.streams.set 2
      { StreamImage.default with state := .opened, policy := .wrap, quota := 32, highWater := 24, backlog := 10, epoch := 1
                                 frontier := 300 } }

/-- Anchor segment 1 with that image at units 0 to 7, and the units given after it. -/
def imagedArray (more : List Memory) : Memory :=
  ((List.finRange 8).map fun u => cellsAt (unitAddr 1 u.val) (unitBytes (imageUnit imaged 41 u))).flatten ++ more.flatten

theorem imaged_inRange : imaged.InRange := by
  constructor <;> decide +kernel

theorem witness_RecoveryDependsOnTheArray : ∃ s s' t t' : State, s.power = .recovering ∧ s'.power = .recovering
    ∧ s.array = s'.array ∧ s.freeIndex = s'.freeIndex ∧ s.engine = s'.engine ∧ exec .recoveryComplete s = .next t
    ∧ exec .recoveryComplete s' = .next t' :=
  ⟨State.reset, { State.reset with eventLatch := 0x4000 }, _, _, rfl, rfl, rfl, rfl, rfl, rfl, rfl⟩

theorem witness_JobStepsFrame : ∃ (c : Instr) (s t : State), c.jobStep = true ∧ c.vaultStep = false ∧ c.ledgerStep = false
    ∧ exec c s = .next t ∧ (Instr.vaultLockStep true).vaultStep = true :=
  ⟨.reclaimErasePulse [], erasing 0, _, rfl, rfl, rfl, rfl, rfl⟩

theorem proceeds_nil (s : State) : s.Proceeds [] := by simp [State.Proceeds]

/-! The job steps: a program sequence that succeeds and one that fails, where the statement tells them apart. -/

theorem witness_CommitSealStepResult : (committing .seal .new).due (.commit .seal) = true
    ∧ (committing .seal .new).staging = entry .new :: []
    ∧ (committing .seal .new).streams[(2 : StreamId)].chain.getLast? = some 39
    ∧ (program (committing .seal .new).array (sealItem 39 517 3900) []).2 = true
    ∧ (program (committing .seal .new).array (sealItem 39 517 3900) stuck).2 = false := by decide +kernel

/-- A new-segment entry behind a chain that the frontier covers, and behind one that it does not. -/
theorem witness_CommitSealStepResult_walk : (entry .new).placement = .new
    ∧ (committing .seal .new).streams[(2 : StreamId)].volatileFrontier < 517
    ∧ (let s := withStream (committing .seal .new) 2 { filling.streams[(2 : StreamId)] with volatileFrontier := 517, cursor := 518 }
       s.due (.commit .seal) = true ∧ (after (.commitSealStep []) s).streams[(2 : StreamId)].chain = []) := by decide +kernel

theorem witness_CommitOpeningStepsResult : (committing .freeStage .new).staging = entry .new :: []
    ∧ (committing .freeStage .new).pool.head? = some 100
    ∧ (committing .freeStage .new).due (.commit .freeStage) = true
    ∧ (program [] (freeStageItem 100 none) []).2 = true ∧ (program [] (freeStageItem 100 none) stuck).2 = false
    ∧ (committing .openStage .new).due (.commit .openStage) = true
    ∧ (committing .openStage .awaiting).due (.commit .openStage) = true
    ∧ (program [] (openStageItem 100 2 0 518) []).2 = true ∧ (program [] (openStageItem 100 2 0 518) stuck).2 = false := by
  decide +kernel

theorem witness_CommitOpeningStepsResult_reserved :
    (let s := withStream (committing .openStage .new) 2 { filling.streams[(2 : StreamId)] with reserved := 1 }
     1 ≤ s.streams[(2 : StreamId)].reserved ∧ s.due (.commit .openStage) = true ∧ s.pool = 100 :: s.pool.tail)
    ∧ (entry .new).placement = .new ∧ (entry .awaiting).placement = .awaiting := by decide +kernel

/-- With a pool and without one, with available segments and without. -/
theorem witness_CommitRetireAndCloseSteps : (committing (.openRetire 5) .new).due (.commit (.openRetire 5)) = true
    ∧ (committing (.openRetire 5) .new).staging = entry .new :: [] ∧ (committing (.openRetire 5) .new).pool ≠ []
    ∧ ({ committing (.openRetire 5) .new with pool := [] } : State).due (.commit (.openRetire 5)) = true
    ∧ (program [] (retireItem 5 3) []).2 = true
    ∧ (committing (.close 39) .awaiting).due (.commit (.close 39)) = true
    ∧ (committing (.close 39) .awaiting).staging = entry .awaiting :: [] ∧ 1 ≤ (committing (.close 39) .awaiting).available
    ∧ ({ committing (.close 39) .awaiting with pool := [] } : State).available < 1
    ∧ (program [] (retirePendingItem 39 517 3900) []).2 = true
    ∧ (program [] (retirePendingItem 39 517 3900) stuck).2 = false := by decide +kernel

/-- An entry that awaits a replacement, with a segment available and with none; the stream alone in the buffer, so that the next
head proceeds; the segment last in its chain. -/
theorem witness_CommitRetireAndCloseSteps_clauses :
    (committing (.openRetire 5) .awaiting).due (.commit (.openRetire 5)) = true ∧ 1 ≤ (committing (.openRetire 5) .awaiting).available
    ∧ (committing (.openRetire 5) .awaiting).staging = entry .awaiting :: []
    ∧ ({ committing (.openRetire 5) .awaiting with pool := [] } : State).available < 1
    ∧ (committing (.openRetire 5) .awaiting).Proceeds
        ((committing (.openRetire 5) .awaiting).staging.filter fun x => x.stream != (entry .awaiting).stream)
    ∧ (committing (.close 39) .awaiting).streams[(2 : StreamId)].chain.getLast? = some 39
    ∧ (committing (.close 39) .awaiting).engine.state = .running :=
  ⟨by decide +kernel, by decide +kernel, rfl, by decide +kernel, proceeds_nil _, by decide +kernel, rfl⟩

theorem witness_CommitRecordStepResult : (committing .record .current).due (.commit .record) = true
    ∧ (committing .record .current).staging = entry .current :: []
    ∧ (committing .record .current).streams[(2 : StreamId)].chain.getLast? = some 39
    ∧ (committing .record .current).segments[(39 : DataSeg)].bytesUsed + footprint 1 ≤ 4064
    ∧ (program [] (recordItem (recordAddr 39 3900) (entry .current)) []).2 = true
    ∧ (program [] (recordItem (recordAddr 39 3900) (entry .current)) stuck).2 = false := by decide +kernel

/-- A next head that proceeds in each placement, one that does not, a pending suspension with an entry left, and a RUNNING engine. -/
theorem witness_CommitRecordStepResult_clauses : filling.Proceeds [entry .current] ∧ filling.Proceeds [entry .new]
    ∧ filling.Proceeds [] ∧ ¬ ({ filling with pool := [] } : State).Proceeds [entry .awaiting]
    ∧ (committing .record .current).engine.state = .running
    ∧ (let s := { committing .record .current with
          staging := [entry .current, { entry .current with seq := 519 }]
          engine := { (committing .record .current).engine with state := .suspendPending } }
       s.due (.commit .record) = true ∧ s.engine.state = .suspendPending
        ∧ (after (.commitRecordStep []) s).staging ≠ []) := by
  refine ⟨?_, ?_, proceeds_nil _, ?_, rfl, by decide +kernel⟩
  · intro e h; cases h; exact ⟨by decide, by decide⟩
  · intro e h; cases h; exact ⟨fun _ => by decide +kernel, by decide⟩
  · intro h; exact absurd ((h (entry .awaiting) rfl).2 rfl) (by decide +kernel)

/-- A pulse that passes, the twelfth that does not, a free stage below and at the wear-out threshold, a failed one. -/
theorem witness_ReclaimStepsResult : (erasing 0).due (.reclaim 0 (.pulse 0)) = true
    ∧ segmentErased (erasePulse (erasing 0).array 2 []) 2 = true
    ∧ (erasing 11).due (.reclaim 0 (.pulse 11)) = true
    ∧ segmentErased (erasePulse (erasing 11).array 2 [(7, 0)]) 2 = false
    ∧ (running ready (.reclaim 0 (.freeStage 119999))).due (.reclaim 0 (.freeStage 119999)) = true
    ∧ (program [] (freeStageItem 0 (some 119999)) []).2 = true
    ∧ (program [] (freeStageItem 0 (some 119999)) stuck).2 = false
    ∧ (running ready (.reclaim 0 (.freeStage 120000))).due (.reclaim 0 (.freeStage 120000)) = true
    ∧ (program [] (freeStageItem 0 (some 120000)) []).2 = true
    ∧ (running ready (.reclaim 0 (.retire 1 true))).due (.reclaim 0 (.retire 1 true)) = true
    ∧ (program [] (retireItem 0 1) []).2 = true := by decide +kernel

/-- The eleventh pulse that does not pass, with a suspension pending and on a RUNNING engine without a preempted job. -/
theorem witness_ReclaimStepsResult_boundary : (erasing 10).due (.reclaim 0 (.pulse 10)) = true
    ∧ segmentErased (erasePulse (erasing 10).array 2 [(7, 0)]) 2 = false ∧ (erasing 10).engine.state = .running
    ∧ (erasing 10).engine.preempted = none
    ∧ ({ erasing 10 with engine := { (erasing 10).engine with state := .suspendPending } } : State).due (.reclaim 0 (.pulse 10))
        = true := by decide +kernel

/-- The highest count known is 7, and segment 2's is unknown; none is known at all. -/
def counted : State := withSegment ready 1 { Segment.unscanned with eraseCount := some 7 }

theorem ready_segment (k : DataSeg) : ready.segments[k] = Segment.unscanned := by simp [ready, State.reset]

theorem counted_segment (k : DataSeg) :
    counted.segments[k] = if k = 1 then { Segment.unscanned with eraseCount := some 7 } else Segment.unscanned := by
  by_cases h : k = 1
  · subst h; simp [counted, withSegment]
  · have h' : (1 : DataSeg).val ≠ k.val := fun e => h (Fin.ext e.symm)
    rw [if_neg h, ← ready_segment k]
    simp only [counted, withSegment, Fin.getElem_fin]
    exact Vector.getElem_set_ne _ _ h'

theorem witness_CountRaised : (∀ j : DataSeg, ready.segments[j].eraseCount = none)
    ∧ counted.segments[(0 : DataSeg)].eraseCount = none ∧ counted.segments[(1 : DataSeg)].eraseCount = some 7
    ∧ ∀ (n : DataSeg) (y : Nat), counted.segments[n].eraseCount = some y → y ≤ 7 := by
  refine ⟨fun j => by rw [ready_segment]; rfl, by rw [counted_segment]; rfl, by rw [counted_segment]; rfl, fun n y h => ?_⟩
  rw [counted_segment] at h
  split at h <;> simp [Segment.unscanned] at h
  omega

/-- Anchor segment 1 is current with generation 41, as in chapter 7's example. -/
def anchored (w : LedgerWork) : State :=
  let s := running ready (.ledger w)
  { s with ledger := { s.ledger with current := some 1, nextFree := 40, generation := 41 } }

/-- An image captured, at a part. -/
def capturedAt (w : LedgerWork) (part : Nat) : State :=
  let s := anchored w
  { s with ledger := { s.ledger with captured := some { ready.freshCapture with part := part } } }

theorem witness_LedgerNoteStepResult : (anchored (.note 2)).due (.ledger (.note 2)) = true
    ∧ (anchored (.note 2)).ledger.current = some 1
    ∧ (program [] (unitItem 1 40 (noteUnit 2 0 0 41)) []).2 = true
    ∧ (program [] (unitItem 1 40 (noteUnit 2 0 0 41)) stuck).2 = false := by decide +kernel

/-- Segments of the release list that a note of stream 2 up to 9 frees, one with a RETIRE_PENDING header, and one it does not; a sync
point; work left to choose and none. -/
theorem witness_LedgerNoteStepResult_clauses :
    ({ Segment.unscanned with location := .release, owner := some 2, release := some (.frontier 9) } : Segment).waitsForFrontier 2 0 9
      = true
    ∧ ({ Segment.unscanned with
          location := .release, owner := some 2, release := some (.frontier 9), header := .retirePending } : Segment).waitsForFrontier
        2 0 9 = true
    ∧ ({ Segment.unscanned with location := .release, owner := some 2, release := some (.frontier 10) } : Segment).waitsForFrontier
        2 0 9 = false
    ∧ (anchored (.note 2)).Proceeds (anchored (.note 2)).staging
    ∧ ({ ready with sync := some [.frontier 2 0 0, .nextImage] } : State).sync = some [.frontier 2 0 0, .nextImage]
    ∧ ready.ledger.choose = none ∧ ({ ready.ledger with imageNeeded := true } : Ledger).choose = some (.compactErase 0 1 0) :=
  ⟨by decide, by decide, by decide, proceeds_nil _, rfl, by decide +kernel, by decide +kernel⟩

/-- The first unit, a later one, part 7, and a failed one that still fits and that no longer fits. -/
theorem witness_LedgerImageStepsResult : (anchored .image).due (.ledger .image) = true
    ∧ (anchored .image).ledger.current = some 1 ∧ (anchored .image).ledger.captured = none
    ∧ (program [] (unitItem 1 40 (anchored .image).freshCapture.fields) []).2 = true
    ∧ (capturedAt .image 3).due (.ledger .image) = true ∧ (capturedAt .image 7).due (.ledger .image) = true
    ∧ (program [] (unitItem 1 40 ({ ready.freshCapture with part := 3 } : Captured).fields) []).2 = true
    ∧ (program [] (unitItem 1 40 ({ ready.freshCapture with part := 7 } : Captured).fields) []).2 = true
    ∧ (program [] (unitItem 1 40 ({ ready.freshCapture with part := 3 } : Captured).fields) stuck).2 = false
    ∧ (capturedAt .image 3).ledger.nextFree + 9 ≤ 128
    ∧ (program [] (unitItem 1 120 ({ ready.freshCapture with part := 0 } : Captured).fields) stuck).2 = false
    ∧ 128 < 120 + 9 := by decide +kernel

/-- A failed first unit, and segments that an image with its epochs and frontiers frees. -/
theorem witness_LedgerImageStepsResult_clauses :
    (program [] (unitItem 1 40 (anchored .image).freshCapture.fields) stuck).2 = false
    ∧ imaged.frees { Segment.unscanned with location := .release, owner := some 2, epoch := 1, release := some (.frontier 300) } = true
    ∧ imaged.frees { Segment.unscanned with location := .release, owner := some 2, release := some (.image 1) } = true
    ∧ imaged.frees { Segment.unscanned with location := .release, owner := some 2, release := some (.image 2) } = false
    ∧ (anchored .image).Proceeds (anchored .image).staging :=
  ⟨by decide +kernel, by decide +kernel, by decide +kernel, by decide +kernel, proceeds_nil _⟩

/-- A pulse that passes, one that does not, the twelfth that does not, the capture, part 7, and a failed unit of each attempt. -/
theorem witness_LedgerCompactionStepsResult :
    (anchored (.compactErase 0 1 0)).due (.ledger (.compactErase 0 1 0)) = true
    ∧ segmentErased (erasePulse [] 0 []) 0 = true ∧ segmentErased (erasePulse [] 0 [(0, 1)]) 0 = false
    ∧ (anchored (.compactErase 0 1 11)).due (.ledger (.compactErase 0 1 11)) = true
    ∧ (anchored (.compactCapture 0 1)).due (.ledger (.compactCapture 0 1)) = true
    ∧ (program [] (unitItem 0 0 (anchored (.compactCapture 0 1)).freshCapture.fields) []).2 = true
    ∧ (capturedAt (.compactImage 0 1) 7).due (.ledger (.compactImage 0 1)) = true
    ∧ (program [] (unitItem 0 7 ({ ready.freshCapture with part := 7 } : Captured).fields) []).2 = true
    ∧ (capturedAt (.compactImage 0 2) 7).due (.ledger (.compactImage 0 2)) = true
    ∧ (program [] (unitItem 0 7 ({ ready.freshCapture with part := 7 } : Captured).fields) stuck).2 = false := by
  decide +kernel

/-- A failed capture of each attempt, and a part before the last. -/
theorem witness_LedgerCompactionStepsResult_clauses :
    (program [] (unitItem 0 0 (anchored (.compactCapture 0 2)).freshCapture.fields) stuck).2 = false
    ∧ (anchored (.compactCapture 0 2)).due (.ledger (.compactCapture 0 2)) = true
    ∧ (capturedAt (.compactImage 0 1) 6).due (.ledger (.compactImage 0 1)) = true
    ∧ (program [] (unitItem 0 6 ({ ready.freshCapture with part := 6 } : Captured).fields) []).2 = true := by decide +kernel

/-- A byte of a write and its last byte, an erase pulse, a lock. -/
theorem witness_VaultStepsResult :
    (running ready (.vault (.write 1 127 [0x0F]))).due (.vault (.write 1 (127 : Fin 128).val (0x0F :: []))) = true
    ∧ (running ready (.vault (.write 1 0 [1, 2]))).due (.vault (.write 1 (0 : Fin 128).val (1 :: [2]))) = true
    ∧ (running ready (.vault (.erase 1 0))).due (.vault (.erase 1 0)) = true
    ∧ vaultErased (eraseVaultPage ready.vault 1 [(3, 1)]) 1 = false
    ∧ (running ready (.vault (.erase 1 11))).due (.vault (.erase 1 11)) = true
    ∧ locking.due (.vault (.lock 3)) = true := by decide +kernel

/-- A pulse that passes, a later one that does not, and a staging buffer whose head proceeds. -/
theorem witness_VaultStepsResult_ends : vaultErased (eraseVaultPage ready.vault 1 []) 1 = true
    ∧ (running ready (.vault (.erase 1 10))).due (.vault (.erase 1 10)) = true
    ∧ locking.Proceeds locking.staging ∧ (running filling (.vault (.lock 3))).due (.vault (.lock 3)) = true
    ∧ (running ready (.vault (.write 1 127 [0x0F]))).Proceeds (running ready (.vault (.write 1 127 [0x0F]))).staging :=
  ⟨by decide +kernel, by decide +kernel, proceeds_nil _, by decide +kernel, proceeds_nil _⟩

/-- R183, R111: the last byte, the twelfth pulse and the lock complete the job, and with nothing waiting the engine is IDLE. -/
theorem test_vault_ends : (after (.vaultWriteByteStep []) (running ready (.vault (.write 1 127 [5])))).engine.state = .idle
    ∧ (after (.vaultErasePulse [(3, 1)]) (running ready (.vault (.erase 1 11)))).engine.state = .idle
    ∧ (after (.vaultLockStep false) locking).engine.state = .idle := by decide +kernel

/-- The first step of the job and a later one, a pulse that passes, one that does not and the twelfth that does not, a free stage
below and at the threshold and a failed one, a retirement. -/
theorem witness_FormatSegmentStepsResult :
    (running ready (.format false (.segment 0 (.pulse 0)))).due (.format false (.segment 0 (.pulse 0))) = true
    ∧ (running ready (.format true (.segment 0 (.pulse 11)))).due (.format true (.segment 0 (.pulse 11))) = true
    ∧ ready.segments[(0 : DataSeg)].header ≠ .retirePending ∧ ready.segments[(0 : DataSeg)].location ≠ .retired
    ∧ segmentErased (erasePulse [] 2 []) 2 = true ∧ segmentErased (erasePulse [] 2 [(5, 0)]) 2 = false
    ∧ (running ready (.format true (.segment 0 (.freeStage 1)))).due (.format true (.segment 0 (.freeStage 1))) = true
    ∧ (program [] (freeStageItem 0 (some 1)) []).2 = true ∧ (program [] (freeStageItem 0 (some 1)) stuck).2 = false
    ∧ (∀ j ∈ ready.pool, ready.segments[j].header ≠ .retirePending)
    ∧ (running ready (.format true (.segment 0 (.freeStage 120000)))).due (.format true (.segment 0 (.freeStage 120000))) = true
    ∧ (program [] (freeStageItem 0 (some 120000)) []).2 = true
    ∧ (running ready (.format true (.segment 0 (.retire 2 false)))).due (.format true (.segment 0 (.retire 2 false))) = true
    ∧ (program [] (retireItem 0 2) []).2 = true := by decide +kernel

/-- RETIRE_PENDING segments 2 and 4 about segment 3: 2 is passed over at the first step, 4 after 3. -/
def pendingAbout : State :=
  withSegment (withSegment ready 0 { Segment.unscanned with header := .retirePending }) 2
    { Segment.unscanned with header := .retirePending }

theorem witness_FormatSegmentStepsResult_passed : pendingAbout.passedOver 0 0 = true ∧ pendingAbout.passedOver 0 1 = false
    ∧ pendingAbout.passedOver 0 2 = false ∧ pendingAbout.passedOver 2 2 = true ∧ pendingAbout.passedOver 2 3 = false
    ∧ (∀ j : DataSeg, 2 ≤ j.val → j < 3 → pendingAbout.segments[j].notErased = true)
    ∧ pendingAbout.segments[(3 : DataSeg)].notErased = false ∧ ∀ j : DataSeg, 510 ≤ j.val → pendingAbout.segments[j].notErased = true := by
  decide +kernel

/-- FORMAT's image captured, at a part, in an attempt. -/
def formatting (attempt part : Nat) : State :=
  let s := running ready (.format true (.compactImage attempt))
  { s with ledger := { s.ledger with captured := some { ready.formatCapture with part := part } } }

/-- A pulse on segment 1 that passes, one that does not and the twelfth that does not; the first step of the job with a RETIRE_PENDING
segment; the same pulses on segment 0; the capture; a part before the last, part 7 with the guard recorded and with another; a
failed unit of each attempt. -/
theorem witness_FormatAnchorStepsResult :
    (running ready (.format true (.anchorErase 0))).due (.format true (.anchorErase 0)) = true
    ∧ segmentErased (erasePulse [] 1 []) 1 = true
    ∧ (running ready (.format true (.anchorErase 11))).due (.format true (.anchorErase 11)) = true
    ∧ segmentErased (erasePulse [] 1 [(0, 0)]) 1 = false ∧ ready.staging = []
    ∧ (running ready (.format false (.anchorErase 0))).due (.format false (.anchorErase 0)) = true
    ∧ (withSegment ready 0 { Segment.unscanned with header := .retirePending }).segments[(0 : DataSeg)].header = .retirePending
    ∧ (∀ j < (0 : DataSeg), ready.segments[j].location = .retired)
    ∧ (running ready (.format true (.compactErase 1 0))).due (.format true (.compactErase 1 0)) = true
    ∧ (running ready (.format true (.compactErase 2 11))).due (.format true (.compactErase 2 11)) = true
    ∧ segmentErased (erasePulse [] 0 []) 0 = true ∧ segmentErased (erasePulse [] 0 [(0, 0)]) 0 = false
    ∧ (running ready (.format true (.compactCapture 1))).due (.format true (.compactCapture 1)) = true
    ∧ (program [] (unitItem 0 0 ready.formatCapture.fields) []).2 = true
    ∧ (program [] (unitItem 0 0 ready.formatCapture.fields) stuck).2 = false
    ∧ (formatting 1 6).due (.format true (.compactImage 1)) = true ∧ (formatting 2 7).due (.format true (.compactImage 2)) = true
    ∧ (program [] (unitItem 0 6 ({ ready.formatCapture with part := 6 } : Captured).fields) []).2 = true
    ∧ (program [] (unitItem 0 7 ({ ready.formatCapture with part := 7 } : Captured).fields) []).2 = true
    ∧ (program [] (unitItem 0 7 ({ ready.formatCapture with part := 7 } : Captured).fields) stuck).2 = false
    ∧ ready.formatCapture.content.records ready.guard.formatted = true
    ∧ ready.formatCapture.content.records locked.guard.formatted = false
    ∧ (formatting 1 7).staging = [] ∧ (formatting 1 7).reclaim = [] ∧ (formatting 1 7).engine.preempted = none
    ∧ locked.guard.anchored = .permanent ∧ ready.guard.anchored ≠ .permanent := by
  decide +kernel

/-- An image alone, and an image with a note of stream 2 in its epoch. -/
theorem witness_RecoveryCompletes : State.reset.power = .recovering ∧ State.reset.engineSound = true
    ∧ (∀ x ∈ State.reset.array, 8192 ≤ x.1) ∧ imaged.InRange ∧ HoldsImage (imagedArray []) 1 imaged 41 none
    ∧ HoldsImage (imagedArray [cellsAt (unitAddr 1 8) (unitBytes (noteUnit 2 1 320 41))]) 1 imaged 41 (some (2, 1, 320)) := by
  refine ⟨rfl, by decide +kernel, by simp [State.reset], imaged_inRange, ⟨by decide +kernel, ?_, by decide +kernel⟩,
    ⟨by decide +kernel, ?_, by decide +kernel⟩⟩
  · intro i e f h; cases h
  · intro i e f h
    cases h
    decide +kernel

/-- Segments 100 to 104 of stream 2 in epoch 1: records 200 to 300 SEALED; 301 to 310 SEALED; an OPEN one from 311 without a record; an
OPEN one from 320; an OPEN one from 330 with a stray byte. -/
def fiveSegments : Memory :=
  let cells (i : Item) : Memory := i.body ++ i.mark
  let opened (k : DataSeg) (first : Nat) : Memory := cells (freeStageItem k (some 1)) ++ cells (openStageItem k 2 1 first)
  opened 98 200 ++ cells (sealItem 98 300 3000) ++ (opened 99 301 ++ cells (sealItem 99 310 3000)) ++ opened 100 311
    ++ opened 101 320 ++ (opened 102 330 ++ [(recordAddr 102 9, 0)])

/-- With anchor segment 1 as above, whose frontier is 300. -/
def scanning : State := { State.reset with array := imagedArray [fiveSegments] }

theorem scanning_anchor : (anchorPhase scanning.array).current = some 1
    ∧ (anchorPhase scanning.array).streams[(2 : StreamId)].epoch = 1 := by decide +kernel

theorem scanning_headers : ∀ k ∈ ([98, 101, 102] : List DataSeg), headerOwner (scanning.headerOf k) = some 2
    ∧ headerField (scanning.headerOf k) 11 4 = 1
    ∧ readHeader (scanning.headerOf k) = if k = 98 then .sealed else .opened false := by decide +kernel

theorem scanning_candidates {k : DataSeg} (hk : k ∈ ([98, 101, 102] : List DataSeg)) : scanning.isCandidate 2 k := by
  obtain ⟨h1, h2, h3⟩ := scanning_headers k hk
  refine ⟨by simp [scanning_anchor.1], h1, h2.trans scanning_anchor.2.symm, ?_⟩
  by_cases e : k = 98
  · exact .inr (.inl (by rw [h3, if_pos e]))
  · exact .inl ⟨false, by rw [h3, if_neg e]⟩

/-- R150, R152: the frontier 300 covers the first, the second and third make the series, the fourth breaks it and sets TORN; without
it the series is kept whole. -/
theorem test_series_is_cut :
    (let a := { Anchored.default with
      current := some 1, streams := Anchored.default.streams.set 2 { StreamImage.default with epoch := 1, frontier := 300 } }
     let all := classifyAll a fiveSegments 0 none [98, 99, 100, 101]
     ((rebuildChain 2 300 all).chain.map fun x => x.1) = [99, 100] ∧ (rebuildChain 2 300 all).torn = true
      ∧ ((rebuildChain 2 300 (all.take 3)).chain.map fun x => x.1) = [99, 100] ∧ (rebuildChain 2 300 (all.take 3)).torn = false) := by
  decide +kernel

/-- Candidates out of the chain: one that the frontier covers and one beyond a break; OPEN ones, of which one's record scan finds damage. -/
theorem witness_RecoveryCompletes_series : scanning.power = .recovering ∧ scanning.isCandidate 2 98 ∧ scanning.isCandidate 2 101
    ∧ readHeader (scanning.headerOf 101) = .opened false ∧ (scanning.scanOf 2 101).damaged = false ∧ scanning.isCandidate 2 102
    ∧ readHeader (scanning.headerOf 102) = .opened false ∧ (scanning.scanOf 2 102).damaged = true :=
  ⟨rfl, scanning_candidates (by decide), scanning_candidates (by decide), (scanning_headers 101 (by decide)).2.2,
   by decide +kernel, scanning_candidates (by decide), (scanning_headers 102 (by decide)).2.2, by decide +kernel⟩

end Sys2Proof.Tests
end

section
/-! The arm latch and the reset-enable flag (R12, R18 to R20): which of them a frame's end, a job step or a change of the power
state leaves, sets or clears, and the settlement of O17. -/

namespace Sys2Proof.Machine

open Sys2Proof

/-! ### The host port through the engine's operations -/

section Port

variable (s : State)

@[simp] theorem State.evalPool_port (before : Int) : (s.evalPool before).port = s.port := (kept_evalPool s before).port
@[simp] theorem State.releaseCovered_port (i : StreamId) : (s.releaseCovered i).port = s.port := (kept_releaseCovered s i).port
@[simp] theorem State.setAllSides_port : s.setAllSides.port = s.port := (kept_setAllSides s).port
@[simp] theorem State.select_port : s.select.port = s.port := (kept_select s).port
@[simp] theorem State.endStep_port (e : StepEnd) : (s.endStep e).port = s.port := (kept_endStep s e).port
@[simp] theorem State.continueOpening_port (e : Entry) : (s.continueOpening e).port = s.port := (kept_continueOpening s e).port
@[simp] theorem State.withdraw_port (p : DataSeg) : (s.withdraw p).port = s.port := (kept_withdraw s p).port
@[simp] theorem State.opened_port (e : Entry) (p : DataSeg) : (s.opened e p).port = s.port := (kept_opened s e p).port
@[simp] theorem State.committed_port (e : Entry) (k : DataSeg) : (s.committed e k).port = s.port := (kept_committed s e k).port
@[simp] theorem State.recordFailed_port (e : Entry) (k : DataSeg) : (s.recordFailed e k).port = s.port :=
  (kept_recordFailed s e k).port
@[simp] theorem State.enterCount_port (k : DataSeg) (n : Nat) (ok : Bool) : (s.enterCount k n ok).port = s.port :=
  (kept_enterCount s k n ok).port
@[simp] theorem State.endRetire_port (k : DataSeg) (e ok : Bool) : (s.endRetire k e ok).port = s.port :=
  (kept_endRetire s k e ok).port
@[simp] theorem State.captureImage_port (c : Captured) : (s.captureImage c).port = s.port := (kept_captureImage s c).port
@[simp] theorem State.beginImage_port : s.beginImage.port = s.port := (kept_beginImage s).port
@[simp] theorem State.handOn_port (b : Bool) (r : Recorded) : (s.handOn b r).port = s.port := (kept_handOn s b r).port
@[simp] theorem State.completeImage_port (c : Captured) : (s.completeImage c).port = s.port := (kept_completeImage s c).port
@[simp] theorem State.chooseAgain_port : s.chooseAgain.port = s.port := (kept_chooseAgain s).port
@[simp] theorem State.haltLedger_port : s.haltLedger.port = s.port := (kept_haltLedger s).port
@[simp] theorem State.countAnchorErase_port (a : AnchorSeg) : (s.countAnchorErase a).port = s.port :=
  (kept_countAnchorErase s a).port
@[simp] theorem State.moveTo_port (a : AnchorSeg) : (s.moveTo a).port = s.port := (kept_moveTo s a).port
@[simp] theorem State.attemptFailed_port (a : AnchorSeg) (n : Nat) : (s.attemptFailed a n).port = s.port :=
  (kept_attemptFailed s a n).port
@[simp] theorem State.formatNext_port (ks : List DataSeg) : (s.formatNext ks).1.port = s.port := (kept_formatNext ks s).port
@[simp] theorem State.formatOn_port (b : Bool) (w : FormatWork) : (s.formatOn b w).port = s.port := (kept_formatOn s b w).port
@[simp] theorem State.formatAfter_port (k : DataSeg) : (s.formatAfter k).port = s.port := (kept_formatAfter s k).port
@[simp] theorem State.formatTake_port (k : DataSeg) : (s.formatTake k).port = s.port := (kept_formatTake s k).port

@[simp] theorem State.raiseIf_port (b : Bool) (e : Event) : (s.raiseIf b e).port = s.port := by
  unfold State.raiseIf
  split <;> rfl

/-! ### The host port through the job steps -/

theorem State.sealStep_port (p : Pulses) (e : Entry) (k : DataSeg) : (s.sealStep p e k).port = s.port := by
  simp [State.sealStep]

theorem State.openFreeStage_port (p : Pulses) (k : DataSeg) : (s.openFreeStage p k).port = s.port := by
  unfold State.openFreeStage
  dsimp only
  split <;> simp

theorem State.openStep_port (p : Pulses) (e : Entry) (k : DataSeg) : (s.openStep p e k).port = s.port := by
  unfold State.openStep
  dsimp only
  split <;> simp

theorem State.openRetireStep_port (p : Pulses) (e : Entry) (k : DataSeg) : (s.openRetireStep p e k).port = s.port := by
  simp [State.openRetireStep]

theorem State.recordStep_port (p : Pulses) (e : Entry) (k : DataSeg) : (s.recordStep p e k).port = s.port := by
  unfold State.recordStep
  dsimp only
  split <;> simp

theorem State.closeStep_port (p : Pulses) (e : Entry) (k : DataSeg) : (s.closeStep p e k).port = s.port := by
  simp [State.closeStep]

theorem State.reclaimPulse_port (r : Residue) (k : DataSeg) (n : Nat) : (s.reclaimPulse r k n).port = s.port := by
  simp [State.reclaimPulse]

theorem State.reclaimFreeStage_port (p : Pulses) (k : DataSeg) (n : Nat) : (s.reclaimFreeStage p k n).port = s.port := by
  unfold State.reclaimFreeStage
  dsimp only
  split <;> simp

theorem State.reclaimRetire_port (p : Pulses) (k : DataSeg) (c : Byte) (e : Bool) : (s.reclaimRetire p k c e).port = s.port := by
  simp [State.reclaimRetire]

theorem State.imageUnit_port (p : Pulses) : (s.imageUnit p).port = s.port := by
  unfold State.imageUnit
  dsimp only
  split
  · split <;> simp
  · simp

theorem State.compactUnit_port (w : ArrayWork) (p : Pulses) (a : AnchorSeg) (n : Nat) :
    (s.compactUnit w p a n).port = s.port := by
  unfold State.compactUnit
  dsimp only
  split
  · split <;> simp
  · simp

theorem State.ledgerUnit_port (p : Pulses) (w : LedgerWork) : (s.ledgerUnit p w).port = s.port := by
  cases w with
  | image => exact s.imageUnit_port p
  | compactCapture a n => exact State.compactUnit_port _ _ p a n
  | compactImage a n => exact s.compactUnit_port _ p a n
  | note i => rfl
  | compactErase a n m => rfl

theorem State.noteUnitStep_port (p : Pulses) (i : StreamId) : (s.noteUnitStep p i).port = s.port := by
  unfold State.noteUnitStep
  dsimp only
  split <;> simp

theorem State.compactPulse_port (r : Residue) (a : AnchorSeg) (n m : Nat) : (s.compactPulse r a n m).port = s.port := by
  unfold State.compactPulse
  dsimp only
  split
  · simp
  · split <;> simp

theorem State.vaultByteStep_port (p : List Byte) (g : Fin 4) (o : Nat) (b : Byte) (bs : List Byte) :
    (s.vaultByteStep p g o b bs).port = s.port := by
  unfold State.vaultByteStep
  dsimp only
  split <;> simp

theorem State.vaultPulse_port (r : Residue) (g : Fin 4) (n : Nat) : (s.vaultPulse r g n).port = s.port := by
  unfold State.vaultPulse
  dsimp only
  split <;> simp

theorem State.lockStep_port (b : Bool) (g : Fin 4) : (s.lockStep b g).port = s.port := by
  simp [State.lockStep]

theorem stepWhen_port {s t : State} {due : Bool} {act : State → State} (ha : (act s).port = s.port)
    (h : s.stepWhen due act = .next t) : t.port = s.port := by
  rcases stepWhen_cases h with rfl | ⟨-, rfl⟩
  · rfl
  · simpa using ha

end Port

/-- A row that does not take place leaves the state (log 1). -/
theorem eq_of_next {s t : State} (h : (.next s : Result) = .next t) : t = s := by
  injection h with h
  exact h.symm

/-- A step of a job other than FORMAT leaves the host port. -/
theorem jobStep_port {c : Instr} {s t : State} (hc : c.jobStep = true) (h : exec c s = .next t) : t.port = s.port := by
  cases c with
  | commitSealStep p =>
    simp only [exec, execCommitSealStep] at h
    refine stepWhen_port ?_ h
    split
    · rfl
    · split
      · exact s.sealStep_port p _ _
      · rfl
  | commitFreeStageStep p =>
    simp only [exec, execCommitFreeStageStep] at h
    refine stepWhen_port ?_ h
    split
    · rfl
    · exact s.openFreeStage_port p _
  | commitOpenStep p =>
    simp only [exec, execCommitOpenStep] at h
    refine stepWhen_port ?_ h
    split
    · exact s.openStep_port p _ _
    · rfl
    · rfl
  | commitOpenRetireStep p =>
    simp only [exec, execCommitOpenRetireStep] at h
    split at h
    · refine stepWhen_port ?_ h
      split
      · rfl
      · exact s.openRetireStep_port p _ _
    · rw [eq_of_next h]
  | commitRecordStep p =>
    simp only [exec, execCommitRecordStep] at h
    split at h
    · rw [eq_of_next h]
    · split at h
      · rw [eq_of_next h]
      · split at h
        · cases h
        · exact stepWhen_port (s.recordStep_port p _ _) h
  | commitCloseStep p =>
    simp only [exec, execCommitCloseStep] at h
    split at h
    · refine stepWhen_port ?_ h
      split
      · rfl
      · exact s.closeStep_port p _ _
    · rw [eq_of_next h]
  | reclaimErasePulse r =>
    simp only [exec, execReclaimErasePulse] at h
    split at h
    · exact stepWhen_port (s.reclaimPulse_port r _ _) h
    · rw [eq_of_next h]
  | reclaimFreeStageStep p =>
    simp only [exec, execReclaimFreeStageStep] at h
    split at h
    · exact stepWhen_port (s.reclaimFreeStage_port p _ _) h
    · rw [eq_of_next h]
  | reclaimRetireStep p =>
    simp only [exec, execReclaimRetireStep] at h
    split at h
    · exact stepWhen_port (s.reclaimRetire_port p _ _ _) h
    · rw [eq_of_next h]
  | ledgerImageUnitStep p =>
    simp only [exec, execLedgerImageUnitStep] at h
    split at h
    · exact stepWhen_port (s.ledgerUnit_port p _) h
    · rw [eq_of_next h]
  | ledgerNoteStep p =>
    simp only [exec, execLedgerNoteStep] at h
    split at h
    · exact stepWhen_port (s.noteUnitStep_port p _) h
    · rw [eq_of_next h]
  | ledgerAnchorErasePulse r =>
    simp only [exec, execLedgerAnchorErasePulse] at h
    split at h
    · exact stepWhen_port (s.compactPulse_port r _ _ _) h
    · rw [eq_of_next h]
  | vaultWriteByteStep p =>
    simp only [exec, execVaultWriteByteStep] at h
    split at h
    · exact stepWhen_port (s.vaultByteStep_port p _ _ _ _) h
    · rw [eq_of_next h]
  | vaultErasePulse r =>
    simp only [exec, execVaultErasePulse] at h
    split at h
    · exact stepWhen_port (s.vaultPulse_port r _ _) h
    · rw [eq_of_next h]
  | vaultLockStep b =>
    simp only [exec, execVaultLockStep] at h
    split at h
    · exact stepWhen_port (s.lockStep_port b _) h
    · rw [eq_of_next h]
  | _ => cases hc

/-! ### The host port through the FORMAT steps -/

/-- The host port is as it was, but that the receipt may have been forgotten (R27). -/
def PortKept (s t : State) : Prop := t.port = s.port ∨ t.port = { s.port with receipt := none }

section Format

variable (s : State)

theorem portKept_formatted {s u : State} (hu : u.port = s.port) (l : Ledger) : PortKept s (u.formatted l) :=
  .inr (by simp [State.formatted, hu])

theorem portKept_formatHalt {s u : State} (hu : u.port = s.port) : PortKept s u.formatHalt :=
  portKept_formatted (u := u.raise .ledgerHalt) hu _

theorem State.formatRetry_port (n : Nat) : (s.formatRetry n).port = s.port := by
  simp [State.formatRetry]

theorem State.formatPulse_port (r : Residue) (b : Bool) (k : DataSeg) (n : Nat) : (s.formatPulse r b k n).port = s.port := by
  simp [State.formatPulse]

theorem State.formatFreeStage_port (p : Pulses) (b : Bool) (k : DataSeg) (n : Nat) :
    (s.formatFreeStage p b k n).port = s.port := by
  unfold State.formatFreeStage
  dsimp only
  split <;> simp

theorem State.formatRetire_port (p : Pulses) (k : DataSeg) (c : Byte) (e : Bool) : (s.formatRetire p k c e).port = s.port := by
  simp [State.formatRetire]

theorem portKept_anchorPulse (r : Residue) (b : Bool) (a : AnchorSeg) (n : Nat) (passed again : FormatWork) :
    PortKept s (s.anchorPulse r b a n passed again) := by
  unfold State.anchorPulse
  dsimp only
  split
  · exact .inl (by simp)
  · split
    · exact portKept_formatHalt (by split <;> simp)
    · exact .inl (by simp)

theorem portKept_formatAnchorPulse (r : Residue) (b : Bool) (w : FormatWork) : PortKept s (s.formatAnchorPulse r b w) := by
  cases w with
  | anchorErase n => exact portKept_anchorPulse s r b 1 n _ _
  | compactErase a n => exact portKept_anchorPulse s r b 0 n _ _
  | segment k phase => exact .inl rfl
  | compactCapture a => exact .inl rfl
  | compactImage a => exact .inl rfl

theorem portKept_formatUnit {s u : State} (hu : u.port = s.port) (w : ArrayWork) (p : Pulses) (n : Nat) :
    PortKept s (u.formatUnit w p n) := by
  unfold State.formatUnit State.formatAttemptFailed
  dsimp only
  split
  · split
    · exact .inl (by simpa using hu)
    · split
      · exact portKept_formatted (by simpa using hu) _
      · exact .inl ((State.formatRetry_port _ _).trans (by simpa using hu))
  · split
    · exact .inl ((State.formatRetry_port _ _).trans (by simpa using hu))
    · exact portKept_formatHalt (by simpa using hu)

theorem portKept_formatImageUnit (p : Pulses) (w : FormatWork) : PortKept s (s.formatImageUnit p w) := by
  unfold State.formatImageUnit
  cases w with
  | compactCapture a => exact portKept_formatUnit (s.captureImage_port s.formatCapture) _ p a
  | compactImage a => exact portKept_formatUnit (u := s) rfl _ p a
  | segment k phase => exact .inl rfl
  | anchorErase n => exact .inl rfl
  | compactErase a n => exact .inl rfl

theorem portKept_formatWhen {s t : State} {due : Bool} {act : State → State} (ha : PortKept s (act s))
    (h : s.formatWhen due act = .next t) : PortKept s t := by
  rcases formatWhen_cases h with rfl | ⟨-, rfl⟩
  · exact .inl rfl
  · exact ha

end Format

/-- A step of a FORMAT job leaves the host port, but for the receipt that completion forgets (R27, R158). -/
theorem formatStep_portKept {c : Instr} {s t : State} (hc : c.formatStep = true) (h : exec c s = .next t) : PortKept s t := by
  cases c with
  | formatErasePulse r =>
    simp only [exec, execFormatErasePulse] at h
    split at h
    · exact portKept_formatWhen (.inl (s.formatPulse_port r _ _ _)) h
    · exact .inl (by rw [eq_of_next h])
  | formatFreeStageStep p =>
    simp only [exec, execFormatFreeStageStep] at h
    split at h
    · exact portKept_formatWhen (.inl (s.formatFreeStage_port p _ _ _)) h
    · exact .inl (by rw [eq_of_next h])
  | formatRetireStep p =>
    simp only [exec, execFormatRetireStep] at h
    split at h
    · exact portKept_formatWhen (.inl (s.formatRetire_port p _ _ _)) h
    · exact .inl (by rw [eq_of_next h])
  | formatAnchorErasePulse r =>
    simp only [exec, execFormatAnchorErasePulse] at h
    split at h
    · exact portKept_formatWhen (portKept_formatAnchorPulse s r _ _) h
    · exact .inl (by rw [eq_of_next h])
  | formatImageUnitStep p =>
    simp only [exec, execFormatImageUnitStep] at h
    split at h
    · exact portKept_formatWhen (portKept_formatImageUnit s p _) h
    · exact .inl (by rw [eq_of_next h])
  | _ => cases hc

/-- The end of the recovery scan leaves the host port (R154). -/
theorem recovered_port (s : State) : s.recovered.port = s.port := by
  simp [State.recovered, State.recoveryEvents, State.rebuild]

/-! ### The two flags at the end of a frame (R12, steps 3 and 4) -/

@[simp] theorem closeFrame_resetEnable (s : State) (k : FrameKind) (n : Nat) (o : OutcomeCode) :
    (s.closeFrame k n o).port.resetEnable = k.enable o := by
  simp [State.closeFrame]

@[simp] theorem closeFrame_armLatch (s : State) (k : FrameKind) (n : Nat) (o : OutcomeCode) :
    (s.closeFrame k n o).port.armLatch = k.latch s.port.armLatch o := by
  simp [State.closeFrame]

/-- Only an accepted RESET ENABLE leaves the reset-enable flag set (R20). -/
theorem FrameKind.enable_eq_true {k : FrameKind} {o : OutcomeCode} : k.enable o = true ↔ k = .enables ∧ o = .done := by
  cases k <;> simp [FrameKind.enable]

/-- Only an accepted ARM leaves the arm latch set; QUERY STATUS does not touch it (R17, R19). -/
theorem FrameKind.latch_eq_true {k : FrameKind} {b : Bool} {o : OutcomeCode} :
    k.latch b o = true ↔ (k = .arms ∧ o = .done) ∨ (k = .transparent ∧ b = true) := by
  cases k <;> simp [FrameKind.latch]

/-- How the frame of a row treats the outcome register and the two flags. -/
def frameKindOf : Instr → FrameKind
  | .arm => .arms
  | .queryStatus _ => .transparent
  | .resetEnable => .enables
  | _ => .plain

theorem frameKindOf_enables {c : Instr} : frameKindOf c = .enables ↔ c = .resetEnable := by
  unfold frameKindOf
  split <;> simp_all

theorem frameKindOf_arms {c : Instr} : frameKindOf c = .arms ↔ c = .arm := by
  unfold frameKindOf
  split <;> simp_all

theorem frameKindOf_transparent {c : Instr} : frameKindOf c = .transparent ↔ ∃ n, c = .queryStatus n := by
  unfold frameKindOf
  split <;> simp_all

/-! ### What the row of a frame runs -/

/-- The frame at hand is one that the device processes: it is not ignored, and no verdict has been formed in it (R12, R14). -/
structure Processing (s : State) : Prop where
  power : s.power = .active ∨ s.power = .recovering
  notIgnored : s.port.frameIgnored = false
  noVerdict : s.port.snapshot = none

/-- What the row of a frame of some kind runs: an action frame, a malformed or an output frame, or one of the two rows with an
effect of their own, an accepted RESET (R21) and a WAKE in DOZING (R161). -/
inductive FrameForm (s : State) : FrameKind → Result → Prop
  | action (k : FrameKind) (n : Nat) (body : State → State × OutcomeCode) : FrameForm s k (actionFrame k n body s)
  | malformed (o : OutcomeCode) (n : Nat) : FrameForm s .plain (malformedFrame o n s)
  | output (k : FrameKind) (hk : k = .plain ∨ k = .transparent) (c : OutputCommand) (n : Nat) (act : Snapshot → State → State) :
      FrameForm s k (outputFrame k c n act s)
  | softReset (hp : s.power = .active) (cut : Cut) : FrameForm s .plain
      (.next { s.softReset cut with port := { Port.reset with byteCounter := 1, sout := s.beginFrame.port.frameOutput 1 } })
  | wake (hp : s.power = .dozing) : FrameForm s .plain (.next { s.endIgnored with power := .waking })

theorem frameForm_append (s : State) (stream tag : Byte) (length : Word16) (payload : List Byte) :
    FrameForm s .plain (execAppend stream tag length payload s) := by
  unfold execAppend
  split
  · exact .action _ _ _
  · exact .malformed _ _

theorem frameForm_vaultWrite (s : State) (page offset length : Byte) (data : List Byte) :
    FrameForm s .plain (execVaultWrite page offset length data s) := by
  unfold execVaultWrite
  split
  · exact .action _ _ _
  · exact .malformed _ _

theorem frameForm_reset (s : State) (cut : Cut) : FrameForm s .plain (execReset cut s) := by
  unfold execReset
  split
  · rename_i h
    exact .softReset h.1 cut
  · exact .action _ _ _

theorem frameForm_wake (s : State) : FrameForm s .plain (execWake s) := by
  unfold execWake
  split
  · rename_i h
    exact .wake h
  · exact .action _ _ _

/-- Every frame's row runs the frame of its kind. The rows of the first group of action frames write their body out themselves. -/
theorem exec_frameForm {c : Instr} (hc : c.isFrame = true) (s : State) : FrameForm s (frameKindOf c) (exec c s) := by
  cases c with
  | discardedFrame | unknownCommand => exact .malformed _ _
  | queryStatus => exact .output _ (.inr rfl) _ _ _
  | readEvents | deviceInfo | streamInfo | segmentInfo | fetch | readGuard | vaultRead | identify | descriptor =>
    exact .output _ (.inl rfl) _ _ _
  | append => exact frameForm_append s _ _ _ _
  | vaultWrite => exact frameForm_vaultWrite s _ _ _ _
  | reset cut => exact frameForm_reset s cut
  | wake => exact frameForm_wake s
  | arm | disarm | clearEvents | setEventEnable | sync | doze | resetEnable =>
    simp only [exec, execArm, execDisarm, execClearEvents, execSetEventEnable, execSync, execDoze, execResetEnable]
    exact .action _ _ _
  | configureStream | openStream | closeStream | resetStream | ack | pushMark | popMark | rewind | suspend | resume | deviceConfig
  | format | writeGuard | vaultErase | vaultLock =>
    exact .action _ _ _
  | _ => cases hc

/-! ### What clears the two flags -/

/-- A frame of some kind leaves both flags clear, but for the one that its command sets where it can be accepted, and for the arm
latch after QUERY STATUS (R12, R14, R17). -/
structure ClearsFlags (k : FrameKind) (s t : State) : Prop where
  resetEnable : k ≠ .enables ∨ s.power = .recovering → t.port.resetEnable = false
  armLatch : k ≠ .transparent → k ≠ .arms ∨ s.power = .recovering → t.port.armLatch = false

/-- The end of a frame clears the flags where ARM and RESET ENABLE are refused during recovery (R14). -/
theorem clearsFlags_closeFrame {s : State} {k : FrameKind} {o : OutcomeCode}
    (ho : s.power = .recovering → k = .arms ∨ k = .enables → o ≠ .done) (u : State) (n : Nat) :
    ClearsFlags k s (u.closeFrame k n o) where
  resetEnable hk := by
    rw [closeFrame_resetEnable, Bool.eq_false_iff]
    intro h
    obtain ⟨rfl, rfl⟩ := FrameKind.enable_eq_true.1 h
    rcases hk with hk | hp
    · exact hk rfl
    · exact ho hp (.inr rfl) rfl
  armLatch ht hk := by
    rw [closeFrame_armLatch, Bool.eq_false_iff]
    intro h
    rcases FrameKind.latch_eq_true.1 h with ⟨rfl, rfl⟩ | ⟨rfl, -⟩
    · rcases hk with hk | hp
      · exact hk rfl
      · exact ho hp (.inl rfl) rfl
    · exact ht rfl

/-- A state with both flags clear is one that any frame may leave. -/
theorem clearsFlags_of_clear {k : FrameKind} {s t : State} (he : t.port.resetEnable = false) (ha : t.port.armLatch = false) :
    ClearsFlags k s t :=
  ⟨fun _ => he, fun _ _ => ha⟩

theorem actionFrame_clearsFlags {s : State} (h : Processing s) (k : FrameKind) (n : Nat) (body : State → State × OutcomeCode) :
    ∃ t, actionFrame k n body s = .next t ∧ ClearsFlags k s t := by
  rcases h.power with hp | hp
  · exact ⟨_, actionFrame_serving ⟨hp, h.notIgnored, h.noVerdict⟩, clearsFlags_closeFrame (by simp [hp]) _ _⟩
  · exact ⟨s.beginFrame.closeFrame k n .recovering, by simp [actionFrame, hp, h.notIgnored, h.noVerdict],
      clearsFlags_closeFrame (by simp) _ _⟩

/-- The end of a malformed frame that the device processes (R8, R10, R11). -/
theorem malformedFrame_processing {s : State} (h : Processing s) (o : OutcomeCode) (n : Nat) :
    malformedFrame o n s = .next (s.beginFrame.closeFrame .plain n o) := by
  rcases h.power with hp | hp <;> simp [malformedFrame, hp, h.notIgnored, h.noVerdict]

theorem closeFrame_plain_clear (s : State) (n : Nat) (o : OutcomeCode) :
    (s.closeFrame .plain n o).port.resetEnable = false ∧ (s.closeFrame .plain n o).port.armLatch = false := by
  simp [FrameKind.enable, FrameKind.latch]

theorem outputFrame_clearsFlags {s : State} (h : Processing s) {k : FrameKind} (hk : k = .plain ∨ k = .transparent)
    (c : OutputCommand) (n : Nat) (act : Snapshot → State → State) :
    ∃ t, outputFrame k c n act s = .next t ∧ ClearsFlags k s t := by
  unfold outputFrame
  rw [if_pos h.power, h.notIgnored, h.noVerdict]
  by_cases hn : n < c.argBytes + 1
  · obtain ⟨he, ha⟩ := closeFrame_plain_clear s.beginFrame n .frameLength
    exact ⟨_, by simp [hn, malformedFrame_processing h], clearsFlags_of_clear he ha⟩
  · exact ⟨_, by simp only [hn]; rfl, clearsFlags_closeFrame (by rcases hk with rfl | rfl <;> simp) _ _⟩

/-- A processed frame clears the flags that its kind lets it clear, whatever it is and whatever its outcome. -/
theorem FrameForm.processing {s : State} {k : FrameKind} {r : Result} (hr : FrameForm s k r) (h : Processing s) :
    ∃ t, r = .next t ∧ ClearsFlags k s t := by
  cases hr with
  | action k n body => exact actionFrame_clearsFlags h k n body
  | malformed o n =>
    obtain ⟨he, ha⟩ := closeFrame_plain_clear s.beginFrame n o
    exact ⟨_, malformedFrame_processing h o n, clearsFlags_of_clear he ha⟩
  | output k hk c n act => exact outputFrame_clearsFlags h hk c n act
  | softReset hp cut => exact ⟨_, rfl, clearsFlags_of_clear rfl rfl⟩
  | wake hp => rcases h.power with h | h <;> simp [h] at hp

/-! ### What leaves the two flags -/

/-- A frame in DOZING or WAKING is ignored, but that a WAKE may begin the wake phase (R25, R161). -/
theorem FrameForm.ignored {s t : State} {k : FrameKind} (hr : FrameForm s k (.next t))
    (hp : s.power = .dozing ∨ s.power = .waking) : t.port = s.endIgnored.port := by
  generalize hrt : (.next t : Result) = r at hr
  cases hr with
  | action k n body =>
    rcases hp with hp | hp <;> simp only [actionFrame, hp] at hrt <;> rw [eq_of_next hrt.symm]
  | malformed o n =>
    rcases hp with hp | hp <;> simp only [malformedFrame, hp] at hrt <;> rw [eq_of_next hrt.symm]
  | output k hk c n act =>
    rcases hp with hp | hp <;> simp [outputFrame, hp] at hrt <;> rw [hrt]
  | softReset ha cut => rcases hp with hp | hp <;> simp [hp] at ha
  | wake ha => rw [eq_of_next hrt.symm]

/-- A change that does not set the reset-enable flag: it stands as it was, or is clear. -/
def EnableNotSet (s t : State) : Prop := t.port.resetEnable = s.port.resetEnable ∨ t.port.resetEnable = false

theorem EnableNotSet.of_port {s t : State} (h : t.port = s.port) : EnableNotSet s t := .inl (by rw [h])

theorem EnableNotSet.of_portKept {s t : State} (h : PortKept s t) : EnableNotSet s t := by
  rcases h with h | h <;> exact .inl (by rw [h])

theorem enableNotSet_closeFrame (s u : State) {k : FrameKind} (hk : k ≠ .enables) (n : Nat) (o : OutcomeCode) :
    EnableNotSet s (u.closeFrame k n o) := by
  refine .inr ?_
  rw [closeFrame_resetEnable, Bool.eq_false_iff]
  exact fun h => hk (FrameKind.enable_eq_true.1 h).1

/-- A frame of any kind but RESET ENABLE's does not set the reset-enable flag. -/
theorem FrameForm.enableNotSet {s t : State} {k : FrameKind} (hr : FrameForm s k (.next t)) (hk : k ≠ .enables) :
    EnableNotSet s t := by
  generalize hrt : (.next t : Result) = r at hr
  cases hr with
  | action k n body =>
    rcases actionFrame_cases hrt.symm with rfl | rfl | ⟨-, rfl⟩ | ⟨-, rfl⟩
    · exact .inl rfl
    · exact .inl rfl
    · exact enableNotSet_closeFrame s _ hk _ _
    · exact enableNotSet_closeFrame s _ hk _ _
  | malformed o n =>
    rcases malformedFrame_cases hrt.symm with rfl | rfl | rfl
    · exact .inl rfl
    · exact .inl rfl
    · exact enableNotSet_closeFrame s _ hk _ _
  | output k _ c n act =>
    rcases outputFrame_cases hrt.symm with rfl | rfl | rfl | ⟨v, -, -, rfl⟩ | ⟨-, rfl⟩
    · exact .inl rfl
    · exact .inl rfl
    · exact enableNotSet_closeFrame s _ (by simp) _ _
    · exact enableNotSet_closeFrame s _ hk _ _
    · exact enableNotSet_closeFrame s _ hk _ _
  | softReset hp cut => exact .inr (by rw [eq_of_next hrt.symm]; rfl)
  | wake hp => exact .inl (by rw [eq_of_next hrt.symm]; rfl)

/-- A null frame with no verdict formed ends with SEL high, and changes nothing else (R1). -/
theorem exec_nullFrame {s : State} (h : s.port.snapshot = none) :
    exec .nullFrame s = .next { s with port := { s.port with frameState := .idle, frameIgnored := false } } := by
  simp [exec, execNullFrame, h]

/-- Power-on leaves the reset-enable flag clear (R147). -/
theorem exec_powerOn {s : State} (h : s.power = .off) :
    exec .powerOn s = .next { s.clearVolatile with port := { Port.reset with frameIgnored := s.port.frameIgnored } } := by
  simp [exec, execPowerOn, h]

/-- Only RESET ENABLE sets the reset-enable flag (R20): the rows that are no frame's end leave it or clear it. -/
theorem exec_enableNotSet {c : Instr} {s t : State} (hc : c ≠ .resetEnable) (h : exec c s = .next t) : EnableNotSet s t := by
  cases c with
  | nullFrame =>
    simp only [exec, execNullFrame] at h
    split at h
    · exact .of_port (by rw [eq_of_next h])
    · exact .inl (by rw [eq_of_next h])
  | ignoredFrame => exact .inl (by rw [eq_of_next h]; rfl)
  | powerOn =>
    simp only [exec, execPowerOn] at h
    split at h
    · exact .inr (by rw [eq_of_next h]; rfl)
    · exact .of_port (by rw [eq_of_next h])
  | powerLoss cut =>
    simp only [exec, execPowerLoss] at h
    split at h
    · exact .of_port (by rw [eq_of_next h])
    · exact .inr (by rw [eq_of_next h]; rfl)
  | recoveryComplete =>
    simp only [exec, execRecoveryComplete] at h
    split at h
    · exact .of_port (by rw [eq_of_next h, recovered_port])
    · exact .of_port (by rw [eq_of_next h])
  | wakePhaseEnd =>
    simp only [exec, execWakePhaseEnd] at h
    split at h <;> exact .of_port (by rw [eq_of_next h])
  | statusCapture =>
    simp only [exec, execStatusCapture] at h
    split at h
    · exact .inl (by rw [eq_of_next h])
    · exact .inl (by rw [eq_of_next h])
    · exact .inl (by rw [eq_of_next h])
    · split at h
      · exact .inl (by rw [eq_of_next h]; rfl)
      · exact .of_port (by rw [eq_of_next h])
  | verdict d =>
    simp only [exec, execVerdict] at h
    split at h
    · exact .inl (by rw [eq_of_next h]; exact beginFrame_resetEnable s)
    · exact .of_port (by rw [eq_of_next h])
  | commitSealStep | commitFreeStageStep | commitOpenStep | commitOpenRetireStep | commitRecordStep | commitCloseStep
  | reclaimErasePulse | reclaimFreeStageStep | reclaimRetireStep | ledgerImageUnitStep | ledgerNoteStep | ledgerAnchorErasePulse
  | vaultWriteByteStep | vaultErasePulse | vaultLockStep => exact .of_port (jobStep_port rfl h)
  | formatErasePulse | formatFreeStageStep | formatRetireStep | formatAnchorErasePulse | formatImageUnitStep =>
    exact .of_portKept (formatStep_portKept rfl h)
  | _ => exact FrameForm.enableNotSet (h ▸ exec_frameForm rfl s) (mt frameKindOf_enables.1 hc)

/-! ### ARM, DISARM and RESET ENABLE (R19, R20), and the status byte (R5) -/

/-- The end of a frame that is no QUERY STATUS and raises no FRAME_ERROR leaves `framePort` in the port, with the flags of its kind
(R12). -/
theorem closeFrame_framePort (s : State) {k : FrameKind} {o : OutcomeCode} (hk : k ≠ .transparent) (ho : o.isFrameError = false)
    (n : Nat) : s.beginFrame.closeFrame k n o
      = { s with port := s.framePort n o (k.latch s.port.armLatch o) (k.enable o) } := by
  have hr : k.recorded s.beginFrame.port.outcome o = o := by cases k <;> simp_all [FrameKind.recorded]
  simp only [State.closeFrame, State.raiseIf, ho, hr, beginFrame_armLatch, State.framePort]
  rw [beginFrame_eq s]
  rfl

/-- An action command that does nothing but record DONE and give the flags the values of its kind. -/
theorem actionFrame_flagsOnly {s : State} (h : Serving s) {k : FrameKind} (hk : k ≠ .transparent) (n : Nat) :
    actionFrame k n (fun s => (s, .done)) s
      = .next { s with port := s.framePort n .done (k.latch s.port.armLatch .done) (k.enable .done) } := by
  rw [actionFrame_serving h, closeFrame_framePort s hk rfl]

/-- Bit 5 of the status byte is the reset-enable flag (R5, R20). -/
theorem statusByte_bit5 {s : State} (h : s.power ≠ .recovering) : s.statusByte.getLsbD 5 = s.port.resetEnable := by
  simp [State.statusByte, h, apply_ite (fun b : Byte => b[5])]

/-- Settles O17: each processed frame ends with `closeFrame`, which gives the two flags the values of its kind; no other row but
power-on, power loss and an accepted RESET, which clear them, touches them. -/
theorem armDisarmAndResetEnable : Obligations.ArmDisarmAndResetEnable := by
  refine ⟨?accepted, ?processed, ?onlyResetEnable, ?kept, ?resets, rfl, fun s => statusByte_bit5⟩
  case accepted =>
    intro s h
    exact ⟨actionFrame_flagsOnly h (k := .arms) (by simp) 1, actionFrame_flagsOnly h (k := .plain) (by simp) 1,
      actionFrame_flagsOnly h (k := .enables) (by simp) 1⟩
  case processed =>
    intro c s hc hp hi hv
    obtain ⟨t, ht, hf⟩ := (exec_frameForm hc s).processing ⟨hp, hi, hv⟩
    refine ⟨t, ht, fun h => hf.resetEnable (h.imp_left (mt frameKindOf_enables.1)), fun hq h => hf.armLatch ?_ (h.imp_left ?_)⟩
    · exact fun hk => (frameKindOf_transparent.1 hk).elim hq
    · exact mt frameKindOf_arms.1
  case onlyResetEnable =>
    intro c s t h hs ht
    by_contra hc
    rcases exec_enableNotSet hc h with he | he <;> simp [he, hs] at ht
  case kept =>
    rintro c s t h (⟨rfl, hv⟩ | rfl | ⟨hc, hp⟩)
    · rw [exec_nullFrame hv] at h
      rw [eq_of_next h]
      exact ⟨rfl, rfl⟩
    · rw [eq_of_next h]
      exact ⟨rfl, rfl⟩
    · rw [FrameForm.ignored (h ▸ exec_frameForm hc s) hp]
      exact ⟨rfl, rfl⟩
  case resets =>
    intro s cut
    refine ⟨fun h => ⟨_, exec_powerOn h, rfl⟩, fun h => ?_⟩
    obtain ⟨t, ht, hf⟩ := (exec_frameForm (c := .reset cut) rfl s).processing ⟨.inl h.active, h.notIgnored, h.noVerdict⟩
    exact ⟨t, ht, hf.resetEnable (.inl (by simp [frameKindOf]))⟩

end Sys2Proof.Machine
end

section
/-! PUSH MARK and POP MARK (R85 to R87): what the mark stack does, what the two commands' checks decide, and the settlement of O39. -/

namespace Sys2Proof.Machine

open Sys2Proof

variable {s : State} {b : Byte} {i : StreamId}

/-- A stream argument of 8 or above names no stream (R13, check 5). -/
theorem streamOf_eq_none (h : 8 ≤ b.toNat) : streamOf b = none := dif_neg (Nat.not_lt.2 h)

theorem beginFrame_streams (s : State) : s.beginFrame.streams = s.streams := by rw [beginFrame_eq s]

theorem beginFrame_engine (s : State) : s.beginFrame.engine = s.engine := by rw [beginFrame_eq s]

/-! ### The mark stack (R86) -/

/-- Two changes of one stream record are one. -/
theorem State.updStream_updStream (s : State) (i : StreamId) (f g : Stream → Stream) :
    (s.updStream i f).updStream i g = s.updStream i (g ∘ f) := by
  simp [State.updStream]

/-- A push on a stack with room. -/
theorem State.pushMark_room (h : s.streams[i].marks.length < 4) :
    s.pushMark i = { s with
      streams := s.streams.set i.val { s.streams[i] with marks := s.streams[i].cursor :: s.streams[i].marks } } := by
  have hroom : ¬ Config.markDepth ≤ s.streams[i].marks.length := Nat.not_le.2 h
  have hfits : (s.streams[i].cursor :: s.streams[i].marks).take Config.markDepth = s.streams[i].cursor :: s.streams[i].marks :=
    List.take_of_length_le h
  simp only [State.pushMark, if_neg hroom, State.updStream, hfits]

/-- A push on a full stack loses the bottom mark, with the notice and the event. -/
theorem State.pushMark_full (h : s.streams[i].marks.length = 4) :
    s.pushMark i = { s with
      streams := s.streams.set i.val { s.streams[i] with
        marks := s.streams[i].cursor :: s.streams[i].marks.dropLast, notices := s.streams[i].notices ||| 0x10 }
      eventLatch := s.eventLatch ||| 0x80 } := by
  have hfull : Config.markDepth ≤ s.streams[i].marks.length := h.ge
  have hbottom : (s.streams[i].cursor :: s.streams[i].marks).take Config.markDepth
      = s.streams[i].cursor :: s.streams[i].marks.dropLast := by
    rw [List.dropLast_eq_take, h]
    rfl
  simp only [State.pushMark, if_pos hfull, State.notify, State.updStream_updStream]
  simp only [State.raise, State.updStream, Function.comp_apply, hbottom]
  rfl

/-- A push does not look at the port. -/
theorem State.pushMark_setPort (s : State) (i : StreamId) (p : Port) :
    State.pushMark i { s with port := p } = { s.pushMark i with port := p } := by
  unfold State.pushMark
  split <;> rfl

/-! ### What the checks of the two commands decide (R13, R85) -/

theorem State.pushBody_accepted (hb : b.toNat = i.val) (hf : s.engine.formatRuns = false) :
    State.pushBody b s = (s.pushMark i, .done) := by
  simp [State.pushBody, streamOf_of_toNat hb, hf]

theorem State.pushBody_noStream (hb : 8 ≤ b.toNat) : State.pushBody b s = (s, .noStream) := by
  simp [State.pushBody, streamOf_eq_none hb]

theorem State.pushBody_busy (hb : b.toNat = i.val) (hf : s.engine.formatRuns = true) : State.pushBody b s = (s, .busy) := by
  simp [State.pushBody, streamOf_of_toNat hb, hf]

theorem State.popBody_accepted {m : Nat} {ms : List Nat} (hb : b.toNat = i.val) (hf : s.engine.formatRuns = false)
    (hm : s.streams[i].marks = m :: ms) :
    State.popBody b s = ({ s with streams := s.streams.set i.val { s.streams[i] with marks := ms } }, .done) := by
  simp only [State.popBody, streamOf_of_toNat hb, hf, hm, State.updStream, reduceCtorEq, if_false, List.tail_cons]

theorem State.popBody_markEmpty (hb : b.toNat = i.val) (hf : s.engine.formatRuns = false) (hm : s.streams[i].marks = []) :
    State.popBody b s = (s, .markEmpty) := by
  simp only [State.popBody, streamOf_of_toNat hb, hf, if_pos hm]
  rfl

theorem State.popBody_noStream (hb : 8 ≤ b.toNat) : State.popBody b s = (s, .noStream) := by
  simp [State.popBody, streamOf_eq_none hb]

theorem State.popBody_busy (hb : b.toNat = i.val) (hf : s.engine.formatRuns = true) : State.popBody b s = (s, .busy) := by
  simp [State.popBody, streamOf_of_toNat hb, hf]

/-! ### The two commands (R86, R87) -/

/-- A PUSH MARK that its checks accept is the push, in the state as it was before the frame. -/
theorem exec_pushMark_accepted (h : Serving s) (hb : b.toNat = i.val) (hf : s.engine.formatRuns = false) :
    exec (.pushMark b) s = .next { s.pushMark i with port := s.framePort 2 .done false false } := by
  have hpush : s.beginFrame.pushMark i = { s.pushMark i with port := s.beginFrame.port } := by
    rw [beginFrame_eq s, State.pushMark_setPort]
  rw [← beginFrame_engine] at hf
  refine (actionFrame_plain h (State.pushBody_accepted hb hf) rfl (by rw [hpush])).trans ?_
  rw [hpush]

/-- A POP MARK that its checks accept removes the top mark. -/
theorem exec_popMark_accepted {m : Nat} {ms : List Nat} (h : Serving s) (hb : b.toNat = i.val)
    (hf : s.engine.formatRuns = false) (hm : s.streams[i].marks = m :: ms) :
    exec (.popMark b) s = .next { s with
      port := s.framePort 2 .done false false, streams := s.streams.set i.val { s.streams[i] with marks := ms } } := by
  rw [← beginFrame_engine] at hf
  rw [← beginFrame_streams] at hm
  refine (actionFrame_plain h (State.popBody_accepted hb hf hm) rfl rfl).trans ?_
  rw [beginFrame_eq s]

/-- Settles O39: the mark stack by its room, and the checks of both commands in their order. -/
theorem markCommandsResult : Obligations.MarkCommandsResult := by
  refine ⟨fun s b i h hb hf => ⟨?room, ?full, ?pop, ?empty⟩, fun s b c h hc => ⟨?noStream, ?busy⟩⟩
  case room =>
    intro hm
    rw [exec_pushMark_accepted h hb hf, State.pushMark_room hm]
  case full =>
    intro hm
    rw [exec_pushMark_accepted h hb hf, State.pushMark_full hm]
  case pop => exact fun m ms hm => exec_popMark_accepted h hb hf hm
  case empty =>
    intro hm
    rw [← beginFrame_engine] at hf
    rw [← beginFrame_streams] at hm
    exact actionFrame_refused h (State.popBody_markEmpty hb hf hm) rfl
  case noStream =>
    intro hb
    rcases hc with rfl | rfl
    · exact actionFrame_refused h (State.pushBody_noStream hb) rfl
    · exact actionFrame_refused h (State.popBody_noStream hb) rfl
  case busy =>
    intro hb hf
    have hi : b.toNat = (⟨b.toNat, hb⟩ : StreamId).val := rfl
    rw [← beginFrame_engine] at hf
    rcases hc with rfl | rfl
    · exact actionFrame_refused h (State.pushBody_busy hi hf) rfl
    · exact actionFrame_refused h (State.popBody_busy hi hf) rfl

end Sys2Proof.Machine
end

section
/-! SUSPEND (R127): which engine can be suspended, what the command decides, and the settlement of O41. -/

namespace Sys2Proof.Machine

open Sys2Proof

variable {s : State}

/-! ### The engine that can be suspended -/

/-- Exactly a RUNNING COMMIT or RECLAIM job can be suspended. -/
theorem Engine.suspendable_iff {e : Engine} : e.suspendable = true ↔
    e.state = .running ∧ ((∃ c, e.job = some (.commit c)) ∨ ∃ k p, e.job = some (.reclaim k p)) := by
  unfold Engine.suspendable
  split
  next c hs hj => simp [hs, hj]
  next k p hs hj => simp [hs, hj]
  next hc hr =>
    simp only [Bool.false_eq_true, false_iff]
    rintro ⟨hs, ⟨c, hj⟩ | ⟨k, p, hj⟩⟩
    · exact hc c hs hj
    · exact hr k p hs hj

/-- An IDLE engine, and one with no job or with a LEDGER, VAULT or FORMAT job, cannot be suspended. -/
theorem Engine.suspendable_eq_false {e : Engine}
    (h : e.state = .idle ∨ e.job = none ∨ (∃ w, e.job = some (.ledger w)) ∨ (∃ w, e.job = some (.vault w))
      ∨ ∃ a w, e.job = some (.format a w)) : e.suspendable = false := by
  rw [Bool.eq_false_iff, ne_eq, Engine.suspendable_iff]
  rintro ⟨hs, hj⟩
  rcases h with h | h | ⟨w, h⟩ | ⟨w, h⟩ | ⟨a, w, h⟩
  case inl => simp [h] at hs
  all_goals simp [h] at hj

/-- An IDLE or RUNNING engine has no suspension pending or in force. -/
theorem Engine.not_suspending {e : Engine} (h : e.state = .idle ∨ e.state = .running) :
    ¬ (e.state = .suspendPending ∨ e.state = .suspended) := by
  rcases h with h | h <;> simp [h]

/-! ### What the command decides, in the order of R127 -/

theorem State.suspendBody_suspending (h : s.engine.state = .suspendPending ∨ s.engine.state = .suspended) :
    s.suspendBody = (s, .done) := if_pos h

theorem State.suspendBody_locked (hs : s.engine.state = .idle ∨ s.engine.state = .running)
    (hl : s.engine.resumeLock = true) : s.suspendBody = (s, .notSuspendable) := by
  rw [State.suspendBody, if_neg (Engine.not_suspending hs), if_pos hl]

theorem State.suspendBody_accepted (hl : s.engine.resumeLock = false) (h : s.engine.suspendable = true) :
    s.suspendBody = ({ s with engine := { s.engine with state := .suspendPending } }, .done) := by
  have hs : s.engine.state = .running := (Engine.suspendable_iff.1 h).1
  rw [State.suspendBody, if_neg (Engine.not_suspending (.inr hs)), if_neg (Bool.eq_false_iff.1 hl), if_pos h]

theorem State.suspendBody_notSuspendable (hs : s.engine.state = .idle ∨ s.engine.state = .running)
    (hl : s.engine.resumeLock = false) (h : s.engine.suspendable = false) : s.suspendBody = (s, .notSuspendable) := by
  rw [State.suspendBody, if_neg (Engine.not_suspending hs), if_neg (Bool.eq_false_iff.1 hl), if_neg (Bool.eq_false_iff.1 h)]

/-! ### The command's frame -/

/-- The decision does not look at the port. -/
theorem State.suspendBody_setPort (s : State) (p : Port) :
    State.suspendBody { s with port := p } = ({ s.suspendBody.1 with port := p }, s.suspendBody.2) := by
  unfold State.suspendBody
  split_ifs <;> rfl

/-- The command's frame does what the command decides in the state before the frame, and records it (R12). -/
theorem exec_suspend {u : State} {o : OutcomeCode} (h : Serving s) (hb : s.suspendBody = (u, o)) (ho : o.isFrameError = false) :
    exec .suspend s = .next { u with port := s.framePort 1 o false false } := by
  have hbody : s.beginFrame.suspendBody = ({ u with port := s.beginFrame.port }, o) := by
    rw [beginFrame_eq s, State.suspendBody_setPort, hb]
  exact (actionFrame_plain h hbody ho rfl).trans rfl

/-- Settles O41: each clause is one case of what the command decides, done by the command's frame. -/
theorem suspendDecides : Obligations.SuspendDecides := by
  refine fun s h => ⟨?suspending, ?locked, ?accepted, ?notSuspendable⟩
  case suspending => exact fun hs => exec_suspend h (State.suspendBody_suspending hs) rfl
  case locked => exact fun hs hl => exec_suspend h (State.suspendBody_locked hs hl) rfl
  case accepted =>
    intro c k p hs hl hj
    have hsus : s.engine.suspendable = true := Engine.suspendable_iff.2 ⟨hs, hj.imp (⟨c, ·⟩) (⟨k, p, ·⟩)⟩
    exact exec_suspend h (State.suspendBody_accepted hl hsus) rfl
  case notSuspendable =>
    intro hs hl hj
    exact exec_suspend h (State.suspendBody_notSuspendable hs hl (Engine.suspendable_eq_false hj)) rfl

end Sys2Proof.Machine
end

section
/-! SET EVENT ENABLE (R173): when ALERT is low, the command's frame, and the settlement of O24. -/

namespace Sys2Proof.Machine

open Sys2Proof

variable {s : State}

/-- ALERT is low just where some event is both pending and enabled (R164). -/
theorem State.alertLow_iff :
    s.alertLow = true ↔ ∃ b : Nat, s.eventLatch.getLsbD b = true ∧ s.eventEnable.getLsbD b = true := by
  have hmask : s.alertLow = true ↔ ¬ (s.eventLatch &&& s.eventEnable = 0#16) := bne_iff_ne
  rw [hmask, BitVec.zero_iff_eq_false]
  simp only [BitVec.getLsbD_and, not_forall, Bool.not_eq_false, Bool.and_eq_true]

/-- The frame of a command that is never refused, and whose action does not look at the port: it acts in the state before the
frame, and records DONE (R12). -/
theorem actionFrame_done {f : State → State} (h : Serving s) (hf : ∀ p : Port, f { s with port := p } = { f s with port := p })
    (n : Nat) :
    actionFrame .plain n (fun u => (f u, .done)) s = .next { f s with port := s.framePort n .done false false } := by
  have hbody : (f s.beginFrame, OutcomeCode.done) = ({ f s with port := s.beginFrame.port }, .done) := by
    rw [beginFrame_eq s, hf]
  rw [actionFrame_plain (body := fun u => (f u, .done)) h hbody rfl rfl]

/-- SET EVENT ENABLE is accepted whatever its value and the engine state, and only writes the enable (R173). -/
theorem exec_setEventEnable (h : Serving s) (w : Word16) :
    exec (.setEventEnable w) s = .next { s with port := s.framePort 3 .done false false, eventEnable := w } :=
  actionFrame_done (f := fun u => { u with eventEnable := w }) h (fun _ => rfl) 3

/-- Settles O24: the frame gives the next state, and ALERT is read off the latch as it stood and the new enable. -/
theorem setEventEnableResult : Obligations.SetEventEnableResult :=
  fun w _ h => ⟨_, exec_setEventEnable h w, rfl, State.alertLow_iff⟩

end Sys2Proof.Machine
end

section
/-! What the rows of the table can do, said once: which action a frame runs with what its checks have found, which step a job
performs with what the engine names, and what each of them works on. The invariants of the later parts are read off this. -/

namespace Sys2Proof.Machine

-- One proof after the other: the stacks of proofs elaborated side by side come near the memory that a check may take.
set_option Elab.async false

open Sys2Proof

/-! ### Frames -/

/-- A change of the port and the event latch; a verdict that stands in the port afterwards stood there before, or has been formed. -/
structure PortStep (s t : State) : Prop where
  only : PortOnly s t
  snapshot : t.port.snapshot = none ∨ t.port.snapshot = s.port.snapshot
    ∨ ∃ r c, PortOnly s r ∧ t.port.snapshot = some (r.snapshotOf c)

theorem portStep_refl (s : State) : PortStep s s := ⟨portOnly_refl s, .inr (.inl rfl)⟩

theorem portStep_endIgnored (s : State) : PortStep s s.endIgnored := ⟨portOnly_endIgnored s, .inr (.inl rfl)⟩

theorem portStep_capture (s : State) : PortStep s s.capture := ⟨portOnly_capture s, .inl rfl⟩

theorem portStep_beginFrame (s : State) : PortStep s s.beginFrame := by
  unfold State.beginFrame
  split
  · exact portStep_capture s
  · exact portStep_refl s

@[simp] theorem closeFrame_snapshot (s : State) (k : FrameKind) (n : Nat) (o : OutcomeCode) :
    (s.closeFrame k n o).port.snapshot = none := by
  simp [State.closeFrame]

theorem portStep_closeFrame (s : State) (k : FrameKind) (n : Nat) (o : OutcomeCode) : PortStep s (s.closeFrame k n o) :=
  ⟨portOnly_closeFrame s k n o, .inl (closeFrame_snapshot s k n o)⟩

theorem portStep_beginClose (s : State) (k : FrameKind) (n : Nat) (o : OutcomeCode) :
    PortStep s (s.beginFrame.closeFrame k n o) :=
  ⟨portOnly_trans (portOnly_beginFrame s) (portOnly_closeFrame _ k n o), .inl (closeFrame_snapshot _ k n o)⟩

theorem portStep_formVerdict (s : State) (c : OutputCommand) : PortStep s (s.beginFrame.formVerdict c) :=
  ⟨portOnly_trans (portOnly_beginFrame s) (portOnly_formVerdict _ c), .inr (.inr ⟨_, c, portOnly_beginFrame s, rfl⟩)⟩

/-- A position that the cursor may take where relation 1 of R29 holds (R89). -/
def Stream.Reaches (t : Stream) (q : Nat) : Prop :=
  t.volatileFrontier ≤ t.lastCommitted → t.volatileFrontier + 1 ≤ q ∧ q ≤ t.lastCommitted + 1

/-- What the action of a served action frame does, with what its checks have found. -/
inductive ActionAct (s : State) : State → Prop
  | nothing : ActionAct s s
  | clearEvents (mask : Word16) : ActionAct s { s with eventLatch := s.eventLatch &&& ~~~mask }
  | setEnable (e : Word16) : ActionAct s { s with eventEnable := e }
  | configure (i : StreamId) (p : Policy) (q h b : Nat) (he : s.streamEmpty i = true) : ActionAct s (s.configure i p q h b)
  | move (i : StreamId) (target : StreamState) : ActionAct s (s.moveStream i target)
  | resetStream (i : StreamId) (hc : s.engine.holdsCommit = false) : ActionAct s (s.resetStream i)
  | appendCurrent (i : StreamId) (tag : Byte) (payload : List Byte) (hf : s.engine.formatRuns = false) :
      ActionAct s (s.acceptCurrent i tag payload)
  | appendNew (i : StreamId) (tag : Byte) (payload : List Byte) (drop : Option DataSeg) (hf : s.engine.formatRuns = false)
      (hd : s.placeNew i = .new drop) : ActionAct s (s.acceptNew i tag payload drop)
  | quotaFull (i : StreamId) : ActionAct s ((s.notify i .quotaHit).raise .quotaHit)
  | poolEmpty : ActionAct s (s.raise .poolEmpty)
  | sync : ActionAct s s.recordSync
  | ack (i : StreamId) (q : Nat) (hq : q ≤ (s.streams[i]'i.isLt).lastCommitted) (hf : (s.streams[i]'i.isLt).volatileFrontier < q) :
      ActionAct s (s.acknowledge i q)
  | push (i : StreamId) : ActionAct s (s.pushMark i)
  | pop (i : StreamId) : ActionAct s (s.updStream i fun t => { t with marks := t.marks.tail })
  | rewind (i : StreamId) (q : Nat) (hq : (s.streams[i]'i.isLt).Reaches q) :
      ActionAct s (s.moveCursor i q)
  | rewindPop (i : StreamId) (q : Nat) (qs : List Nat) (hq : (s.streams[i]'i.isLt).Reaches q) :
      ActionAct s ((s.moveCursor i q).updStream i fun t => { t with marks := qs })
  | suspend (hs : s.engine.suspendable = true) :
      ActionAct s { s with engine := { s.engine with state := .suspendPending } }
  | resume (l : Bool) (hs : s.engine.state = .suspended ∨ s.engine.state = .suspendPending) :
      ActionAct s { s with engine := { s.engine with state := .running, resumeLock := l } }
  | deviceConfig (n : Nat) : ActionAct s (State.setPoolSide { s with lowWater := n }).needImage.selectIfIdle
  | format (hi : s.engine.state = .idle) :
      ActionAct s (State.run (.format false (s.formatNext allSegments).2) { s with sync := none })
  | writeGuard (m : LockMode) (locks : Byte) (f : Bool) : ActionAct s (s.writeGuard m locks f).1
  | vault (w : VaultWork) (hi : s.engine.state = .idle) : ActionAct s (s.run (.vault w))
  | doze (hi : s.engine.state = .idle) : ActionAct s { s with power := .dozing }

/-- What the SEL-high action of an output frame does in the state that holds its verdict. -/
inductive OutputAct (s : State) : State → Prop
  | nothing : OutputAct s s
  | clearNotices (i : StreamId) (m : Byte) : OutputAct s (s.updStream i fun t => { t with notices := t.notices &&& ~~~m })
  | advance (b f count : Byte) (w : Word32) (n : Snapshot) (i : StreamId) (bytes : Nat) (hs : s.port.snapshot = some n)
      (hc : n.command = .fetch b f w count) (hv : n.verdict = .done) (hf : f = 0) (hb : streamOf b = some i)
      (hn : 0 < n.counted bytes) :
      OutputAct s ((s.updStream i fun t => { t with cursor := n.start + n.counted bytes }).evalUnread i)

/-! ### Job steps -/

/-- What a step of a job other than FORMAT does, with what the engine and the staging buffer name. -/
inductive StepAct (s : State) : Instr → State → Prop
  | sealOpen (p : Pulses) (e : Entry) (es : List Entry) (k : DataSeg) (hj : s.engine.job = some (.commit .seal))
      (hs : s.staging = e :: es) (hk : s.headSegment e = some k) : StepAct s (.commitSealStep p) (s.sealStep p e k)
  | freeStage (p : Pulses) (k : DataSeg) (ks : List DataSeg) (hj : s.engine.job = some (.commit .freeStage))
      (hk : s.pool = k :: ks) : StepAct s (.commitFreeStageStep p) (s.openFreeStage p k)
  | openStage (p : Pulses) (e : Entry) (es : List Entry) (k : DataSeg) (ks : List DataSeg)
      (hj : s.engine.job = some (.commit .openStage)) (hs : s.staging = e :: es) (hk : s.pool = k :: ks) :
      StepAct s (.commitOpenStep p) (s.openStep p e k)
  | openRetire (p : Pulses) (e : Entry) (es : List Entry) (k : DataSeg) (hj : s.engine.job = some (.commit (.openRetire k)))
      (hs : s.staging = e :: es) : StepAct s (.commitOpenRetireStep p) (s.openRetireStep p e k)
  | record (p : Pulses) (e : Entry) (es : List Entry) (k : DataSeg) (hj : s.engine.job = some (.commit .record))
      (hs : s.staging = e :: es) (hk : s.headSegment e = some k) : StepAct s (.commitRecordStep p) (s.recordStep p e k)
  | close (p : Pulses) (e : Entry) (es : List Entry) (k : DataSeg) (hj : s.engine.job = some (.commit (.close k)))
      (hs : s.staging = e :: es) : StepAct s (.commitCloseStep p) (s.closeStep p e k)
  | reclaimPulse (r : Residue) (k : DataSeg) (n : Nat) (hj : s.engine.job = some (.reclaim k (.pulse n))) :
      StepAct s (.reclaimErasePulse r) (s.reclaimPulse r k n)
  | reclaimFreeStage (p : Pulses) (k : DataSeg) (c : Nat) (hj : s.engine.job = some (.reclaim k (.freeStage c))) :
      StepAct s (.reclaimFreeStageStep p) (s.reclaimFreeStage p k c)
  | reclaimRetire (p : Pulses) (k : DataSeg) (c : Byte) (b : Bool) (hj : s.engine.job = some (.reclaim k (.retire c b))) :
      StepAct s (.reclaimRetireStep p) (s.reclaimRetire p k c b)
  | image (p : Pulses) (w : LedgerWork) (hj : s.engine.job = some (.ledger w)) (hw : w.isImage = true) :
      StepAct s (.ledgerImageUnitStep p) (s.ledgerUnit p w)
  | note (p : Pulses) (i : StreamId) (hj : s.engine.job = some (.ledger (.note i))) :
      StepAct s (.ledgerNoteStep p) (s.noteUnitStep p i)
  | compactPulse (r : Residue) (a : AnchorSeg) (m n : Nat) (hj : s.engine.job = some (.ledger (.compactErase a m n))) :
      StepAct s (.ledgerAnchorErasePulse r) (s.compactPulse r a m n)
  | vaultByte (p : List Byte) (g : Fin 4) (o : Nat) (b : Byte) (bs : List Byte)
      (hj : s.engine.job = some (.vault (.write g o (b :: bs)))) : StepAct s (.vaultWriteByteStep p) (s.vaultByteStep p g o b bs)
  | vaultPulse (r : Residue) (g : Fin 4) (n : Nat) (hj : s.engine.job = some (.vault (.erase g n))) :
      StepAct s (.vaultErasePulse r) (s.vaultPulse r g n)
  | vaultLock (b : Bool) (g : Fin 4) (hj : s.engine.job = some (.vault (.lock g))) :
      StepAct s (.vaultLockStep b) (s.lockStep b g)

/-- What a step of a FORMAT job does. -/
inductive FormatAct (s : State) : Instr → State → Prop
  | pulse (r : Residue) (b : Bool) (k : DataSeg) (n : Nat) (hj : s.engine.job = some (.format b (.segment k (.pulse n)))) :
      FormatAct s (.formatErasePulse r) (s.formatPulse r b k n)
  | freeStage (p : Pulses) (b : Bool) (k : DataSeg) (c : Nat)
      (hj : s.engine.job = some (.format b (.segment k (.freeStage c)))) :
      FormatAct s (.formatFreeStageStep p) (s.formatFreeStage p b k c)
  | retire (p : Pulses) (b : Bool) (k : DataSeg) (c : Byte) (e : Bool)
      (hj : s.engine.job = some (.format b (.segment k (.retire c e)))) :
      FormatAct s (.formatRetireStep p) (s.formatRetire p k c e)
  | anchorPulse (r : Residue) (b : Bool) (w : FormatWork) (hj : s.engine.job = some (.format b w))
      (hw : w.isAnchorErase = true) : FormatAct s (.formatAnchorErasePulse r) (s.formatAnchorPulse r b w)
  | image (p : Pulses) (b : Bool) (w : FormatWork) (hj : s.engine.job = some (.format b w)) (hw : w.isImage = true) :
      FormatAct s (.formatImageUnitStep p) (s.formatImageUnit p w)

/-! ### Rows -/

/-- What a row of the table does. -/
inductive Row (s : State) : Instr → State → Prop
  | port (c : Instr) {t : State} (h : PortStep s t) : Row s c t
  | action (c : Instr) {u v t : State} (hp : s.power = .active) (hu : PortStep s u) (h : ActionAct u v) (ht : PortStep v t)
      (hn : t.port.snapshot = none) : Row s c t
  | output (c : Instr) {u v t : State} (hu : PortStep s u) (h : OutputAct u v) (ht : PortStep v t) : Row s c t
  | wake (c : Instr) (hp : s.power = .dozing) : Row s c { s.endIgnored with power := .waking }
  | wakeEnd (c : Instr) (hp : s.power = .waking) : Row s c { s with power := .active }
  | softReset (cut : Cut) (port : Port) : Row s (.reset cut) { s.softReset cut with port := port }
  | powerLoss (cut : Cut) (port : Port) :
      Row s (.powerLoss cut) { (s.abandonStep cut).clearVolatile with power := .off, port := port }
  | powerOn (c : Instr) (port : Port) : Row s c { s.clearVolatile with port := port }
  | recovered (c : Instr) (hp : s.power = .recovering) : Row s c s.recovered
  | step {c : Instr} {u : State} (hp : s.power = .active) (hr : s.engine.runs = true) (h : StepAct s c u) :
      Row s c (u.evalPool s.available)
  | format {c : Instr} {t : State} (hp : s.power = .active) (hr : s.engine.runs = true) (h : FormatAct s c t) : Row s c t

/-- The row of an action frame whose body is one of the actions. -/
theorem actionFrame_row {s t : State} {c : Instr} {k : FrameKind} {n : Nat} {body : State → State × OutcomeCode}
    (hb : ∀ u, ActionAct u (body u).1) (h : actionFrame k n body s = .next t) : Row s c t := by
  rcases actionFrame_cases h with rfl | rfl | ⟨-, rfl⟩ | ⟨hs, rfl⟩
  · exact .port c (portStep_endIgnored s)
  · exact .port c (portStep_refl _)
  · exact .port c (portStep_beginClose s k n _)
  · exact .action c hs.active (portStep_beginFrame s) (hb _) (portStep_closeFrame _ k n _)
      (closeFrame_snapshot _ k n _)

theorem malformedFrame_row {s t : State} {c : Instr} {o : OutcomeCode} {n : Nat} (h : malformedFrame o n s = .next t) :
    Row s c t := by
  rcases malformedFrame_cases h with rfl | rfl | rfl
  · exact .port c (portStep_endIgnored s)
  · exact .port c (portStep_refl _)
  · exact .port c (portStep_beginClose s _ n o)

/-- The row of an output frame whose SEL-high action is one of the actions. -/
theorem outputFrame_row {s t : State} {c : Instr} {k : FrameKind} {d : OutputCommand} {n : Nat}
    {act : Snapshot → State → State}
    (ha : ∀ u v, u.port.snapshot = some v → v.command = d → v.verdict = .done → OutputAct u (act v u))
    (h : outputFrame k d n act s = .next t) : Row s c t := by
  have hend : ∀ u v, u.port.snapshot = some v → v.command = d → PortStep s u → Row s c (u.outputEnd k n act v) := by
    intro u v hu hv hsu
    by_cases hd : v.verdict = .done
    · simp only [State.outputEnd, hd, if_true]
      exact .output c hsu (ha u v hu hv hd) (portStep_closeFrame _ k n _)
    · simp only [State.outputEnd, hd, if_false]
      exact .output c hsu .nothing (portStep_closeFrame _ k n _)
  have hcmd : (s.beginFrame.snapshotOf d).command = d := by
    unfold State.snapshotOf State.activeSnapshot State.fetchSnapshot State.streamInfoSnapshot State.vaultSnapshot
    repeat' (first | rfl | split)
  rcases outputFrame_cases h with rfl | rfl | rfl | ⟨v, hv, hc, rfl⟩ | ⟨-, rfl⟩
  · exact .port c (portStep_endIgnored s)
  · exact .port c (portStep_refl _)
  · exact .port c (portStep_beginClose s _ n _)
  · exact hend s v hv hc (portStep_refl s)
  · exact hend _ _ rfl hcmd (portStep_formVerdict s d)

/-! ### The bodies of the action frames -/

theorem configureBody_act (stream policy : Byte) (q h b : Word16) (g : Bool) (s : State) :
    ActionAct s (State.configureBody stream policy q h b g s).1 := by
  unfold State.configureBody
  split
  · exact .nothing
  · split
    · exact .nothing
    · split
      · exact .nothing
      · split
        · exact .nothing
        · split
          · exact .nothing
          · rename_i hs
            exact .configure _ _ _ _ _ (by simpa using fun h => hs (.inr h))

theorem openBody_act (stream : Byte) (g : Bool) (s : State) : ActionAct s (State.openBody stream g s).1 := by
  unfold State.openBody
  split
  · exact .nothing
  · split
    · exact .nothing
    · split
      · exact .nothing
      · split
        · exact .nothing
        · exact .move _ _

theorem closeBody_act (stream : Byte) (g : Bool) (s : State) : ActionAct s (State.closeBody stream g s).1 := by
  unfold State.closeBody
  split
  · exact .nothing
  · split
    · exact .nothing
    · split
      · exact .nothing
      · split
        · exact .nothing
        · exact .move _ _

theorem resetBody_act (stream : Byte) (g : Bool) (s : State) : ActionAct s (State.resetBody stream g s).1 := by
  unfold State.resetBody
  split
  · exact .nothing
  · split
    · exact .nothing
    · split
      · exact .nothing
      · split
        · exact .nothing
        · rename_i hc
          split
          · exact .nothing
          · exact .resetStream _ (by simpa using hc)

/-- A placement with a new segment has passed the quota and the availability check (R54 to R57). -/
theorem placeNew_of_place {s : State} {i : StreamId} {fp : Nat} {drop : Option DataSeg} (h : s.place i fp = .new drop) :
    s.placeNew i = .new drop := by
  unfold State.place at h
  split at h
  · split at h
    · cases h
    · exact h
  · exact h

theorem appendBody_act (stream tag : Byte) (l : Word16) (payload : List Byte) (s : State) :
    ActionAct s (State.appendBody stream tag l payload s).1 := by
  unfold State.appendBody
  split
  · exact .nothing
  · split
    · exact .nothing
    · split
      · exact .nothing
      · split
        · exact .nothing
        · rename_i hf
          split
          · exact .nothing
          · split
            · exact .nothing
            · split
              · exact .appendCurrent _ _ _ (by simpa using hf)
              · rename_i drop hd
                exact .appendNew _ _ _ _ (by simpa using hf) (placeNew_of_place hd)
              · exact .quotaFull _
              · exact .poolEmpty

theorem ackBody_act (stream : Byte) (q : Word32) (s : State) : ActionAct s (State.ackBody stream q s).1 := by
  unfold State.ackBody
  split
  · exact .nothing
  · split
    · exact .nothing
    · split
      · exact .nothing
      · split
        · exact .nothing
        · exact .ack _ _ (by omega) (by omega)

theorem pushBody_act (stream : Byte) (s : State) : ActionAct s (State.pushBody stream s).1 := by
  unfold State.pushBody
  split
  · exact .nothing
  · split
    · exact .nothing
    · exact .push _

theorem popBody_act (stream : Byte) (s : State) : ActionAct s (State.popBody stream s).1 := by
  unfold State.popBody
  split
  · exact .nothing
  · split
    · exact .nothing
    · split
      · exact .nothing
      · exact .pop _

/-- A mark is brought into the range of the cursor (R89). -/
theorem reaches_clamp (t : Stream) (m : Nat) : t.Reaches (t.clamp m) := by
  unfold Stream.Reaches Stream.clamp
  split
  · omega
  · split <;> omega

theorem reaches_oldest (t : Stream) : t.Reaches (t.volatileFrontier + 1) := fun _ => by omega

theorem rewindBody_act (stream mode : Byte) (s : State) : ActionAct s (State.rewindBody stream mode s).1 := by
  unfold State.rewindBody
  split
  · exact .nothing
  · split
    · exact .nothing
    · split
      · exact .nothing
      · unfold State.rewind
        split
        · exact .rewind _ _ (reaches_oldest _)
        · exact .nothing
        · exact .rewind _ _ (reaches_clamp _ _)
        · exact .rewindPop _ _ _ (reaches_clamp _ _)

theorem suspendBody_act (s : State) : ActionAct s s.suspendBody.1 := by
  unfold State.suspendBody
  split
  · exact .nothing
  · split
    · exact .nothing
    · split
      · rename_i h
        exact .suspend h
      · exact .nothing

theorem resumeBody_act (s : State) : ActionAct s s.resumeBody.1 := by
  unfold State.resumeBody
  split
  · rename_i h
    exact .resume true (.inl h)
  · rename_i h
    exact .resume s.engine.resumeLock (.inr h)
  · exact .nothing
  · exact .nothing

theorem deviceConfigBody_act (n : Byte) (g : Bool) (s : State) : ActionAct s (State.deviceConfigBody n g s).1 := by
  unfold State.deviceConfigBody
  split
  · exact .nothing
  · split
    · exact .nothing
    · split
      · exact .nothing
      · split
        · exact .nothing
        · exact .deviceConfig _

theorem formatBody_act (g : Bool) (s : State) : ActionAct s (State.formatBody g s).1 := by
  unfold State.formatBody
  split
  · exact .nothing
  · split
    · exact .nothing
    · split
      · exact .nothing
      · rename_i hi
        exact .format (by simpa using hi)

theorem writeGuardBody_act (m l f : Byte) (g : Bool) (s : State) : ActionAct s (State.writeGuardBody m l f g s).1 := by
  unfold State.writeGuardBody
  split
  · exact .nothing
  · split
    · split
      · exact .nothing
      · exact .writeGuard _ _ _
    · exact .nothing

theorem startVault_act (p : Fin 4) (w : VaultWork) (s : State) : ActionAct s (s.startVault p w).1 := by
  unfold State.startVault
  split
  · exact .nothing
  · rename_i hi
    split
    · exact .nothing
    · exact .vault _ (by simpa using hi)

theorem vaultWriteBody_act (p o l : Byte) (d : List Byte) (s : State) : ActionAct s (State.vaultWriteBody p o l d s).1 := by
  unfold State.vaultWriteBody
  split
  · exact .nothing
  · split
    · exact .nothing
    · split
      · exact .nothing
      · exact startVault_act _ _ s

theorem vaultEraseBody_act (p : Byte) (s : State) : ActionAct s (State.vaultEraseBody p s).1 := by
  unfold State.vaultEraseBody
  split
  · exact .nothing
  · split
    · exact .nothing
    · exact startVault_act _ _ s

theorem vaultLockBody_act (p : Byte) (s : State) : ActionAct s (State.vaultLockBody p s).1 := by
  unfold State.vaultLockBody
  split
  · exact .nothing
  · split
    · exact .nothing
    · exact startVault_act _ _ s

/-! ### The rows of the job steps -/

/-- A step is due: what `State.due` says. -/
theorem due_iff {s : State} {j : Job} :
    s.due j = true ↔ s.power = .active ∧ s.engine.runs = true ∧ s.engine.job = some j := by
  simp [State.due, and_assoc]

/-- A step whose work is not there changes nothing. -/
theorem evalPool_self (s : State) : s.evalPool s.available = s := by
  simp [State.evalPool]

/-- What the row of a step of a job other than FORMAT does. -/
inductive StepRow (s : State) (c : Instr) : State → Prop
  | stays : StepRow s c s
  | step {u : State} (hp : s.power = .active) (hr : s.engine.runs = true) (h : StepAct s c u) :
      StepRow s c (u.evalPool s.available)

theorem StepRow.row {s t : State} {c : Instr} (h : StepRow s c t) : Row s c t := by
  cases h with
  | stays => exact .port c (portStep_refl s)
  | step hp hr h => exact .step hp hr h

theorem stepWhen_row {s t : State} {c : Instr} {j : Job} {act : State → State}
    (ha : s.engine.job = some j → act s = s ∨ StepAct s c (act s)) (h : s.stepWhen (s.due j) act = .next t) : StepRow s c t := by
  rcases stepWhen_cases h with rfl | ⟨hd, rfl⟩
  · exact .stays
  · obtain ⟨hp, hr, hj⟩ := due_iff.1 hd
    rcases ha hj with he | hu
    · rw [he, evalPool_self]
      exact .stays
    · exact .step hp hr hu

theorem stepRow_of_next {s t : State} {c : Instr} (h : (.next s : Result) = .next t) : StepRow s c t := by
  rw [eq_of_next h]
  exact .stays

theorem row_of_next {s t : State} {c : Instr} (h : (.next s : Result) = .next t) : Row s c t := by
  rw [eq_of_next h]
  exact .port c (portStep_refl s)

theorem formatWhen_row {s t : State} {c : Instr} {j : Job} {act : State → State}
    (ha : s.engine.job = some j → FormatAct s c (act s)) (h : s.formatWhen (s.due j) act = .next t) : Row s c t := by
  rcases formatWhen_cases h with rfl | ⟨hd, rfl⟩
  · exact .port c (portStep_refl t)
  · obtain ⟨hp, hr, hj⟩ := due_iff.1 hd
    exact .format hp hr (ha hj)

/-- The row of a step of a COMMIT job. -/
theorem commitStep_row {s t : State} {c : Instr} (h : exec c s = .next t)
    (hc : ∃ p, c = .commitSealStep p ∨ c = .commitFreeStageStep p ∨ c = .commitOpenStep p ∨ c = .commitOpenRetireStep p
      ∨ c = .commitRecordStep p ∨ c = .commitCloseStep p) : StepRow s c t := by
  obtain ⟨p, rfl | rfl | rfl | rfl | rfl | rfl⟩ := hc
  · simp only [exec, execCommitSealStep] at h
    refine stepWhen_row (fun hj => ?_) h
    split
    · exact .inl rfl
    · rename_i hs
      split
      · rename_i hk
        exact .inr (.sealOpen p _ _ _ hj hs hk)
      · exact .inl rfl
  · simp only [exec, execCommitFreeStageStep] at h
    refine stepWhen_row (fun hj => ?_) h
    split
    · exact .inl rfl
    · rename_i hk
      exact .inr (.freeStage p _ _ hj hk)
  · simp only [exec, execCommitOpenStep] at h
    refine stepWhen_row (fun hj => ?_) h
    split
    · rename_i hs hk
      exact .inr (.openStage p _ _ _ _ hj hs hk)
    · exact .inl rfl
    · exact .inl rfl
  · simp only [exec, execCommitOpenRetireStep] at h
    split at h
    · refine stepWhen_row (fun hj => ?_) h
      split
      · exact .inl rfl
      · rename_i hs
        exact .inr (.openRetire p _ _ _ hj hs)
    · exact stepRow_of_next h
  · simp only [exec, execCommitRecordStep] at h
    split at h
    · exact stepRow_of_next h
    · rename_i hs
      split at h
      · exact stepRow_of_next h
      · rename_i hk
        split at h
        · cases h
        · exact stepWhen_row (fun hj => .inr (.record p _ _ _ hj hs hk)) h
  · simp only [exec, execCommitCloseStep] at h
    split at h
    · refine stepWhen_row (fun hj => ?_) h
      split
      · exact .inl rfl
      · rename_i hs
        exact .inr (.close p _ _ _ hj hs)
    · exact stepRow_of_next h

/-- The row of a step of a RECLAIM job. -/
theorem reclaimStep_row {s t : State} {c : Instr} (h : exec c s = .next t)
    (hc : (∃ r, c = .reclaimErasePulse r) ∨ (∃ p, c = .reclaimFreeStageStep p) ∨ ∃ p, c = .reclaimRetireStep p) :
    StepRow s c t := by
  obtain ⟨p, rfl⟩ | ⟨p, rfl⟩ | ⟨p, rfl⟩ := hc
  · simp only [exec, execReclaimErasePulse] at h
    split at h
    · exact stepWhen_row (fun hj => .inr (.reclaimPulse p _ _ hj)) h
    · exact stepRow_of_next h
  · simp only [exec, execReclaimFreeStageStep] at h
    split at h
    · exact stepWhen_row (fun hj => .inr (.reclaimFreeStage p _ _ hj)) h
    · exact stepRow_of_next h
  · simp only [exec, execReclaimRetireStep] at h
    split at h
    · exact stepWhen_row (fun hj => .inr (.reclaimRetire p _ _ _ hj)) h
    · exact stepRow_of_next h

/-- The row of a step of a LEDGER job. -/
theorem ledgerStep_row {s t : State} {c : Instr} (hc : c.ledgerStep = true) (h : exec c s = .next t) : StepRow s c t := by
  cases c with
  | ledgerImageUnitStep p =>
    simp only [exec, execLedgerImageUnitStep] at h
    split at h
    · rename_i w hj
      rcases stepWhen_cases h with rfl | ⟨hd, rfl⟩
      · exact .stays
      · rw [Bool.and_eq_true, due_iff] at hd
        obtain ⟨hw, hp, hr, -⟩ := hd
        exact .step hp hr (.image p w hj hw)
    · exact stepRow_of_next h
  | ledgerNoteStep p =>
    simp only [exec, execLedgerNoteStep] at h
    split at h
    · exact stepWhen_row (fun hj => .inr (.note p _ hj)) h
    · exact stepRow_of_next h
  | ledgerAnchorErasePulse r =>
    simp only [exec, execLedgerAnchorErasePulse] at h
    split at h
    · exact stepWhen_row (fun hj => .inr (.compactPulse r _ _ _ hj)) h
    · exact stepRow_of_next h
  | _ => cases hc

/-- The row of a step of a VAULT job. -/
theorem vaultStep_row {s t : State} {c : Instr} (hc : c.vaultStep = true) (h : exec c s = .next t) : StepRow s c t := by
  cases c with
  | vaultWriteByteStep p =>
    simp only [exec, execVaultWriteByteStep] at h
    split at h
    · exact stepWhen_row (fun hj => .inr (.vaultByte p _ _ _ _ hj)) h
    · exact stepRow_of_next h
  | vaultErasePulse r =>
    simp only [exec, execVaultErasePulse] at h
    split at h
    · exact stepWhen_row (fun hj => .inr (.vaultPulse r _ _ hj)) h
    · exact stepRow_of_next h
  | vaultLockStep b =>
    simp only [exec, execVaultLockStep] at h
    split at h
    · exact stepWhen_row (fun hj => .inr (.vaultLock b _ hj)) h
    · exact stepRow_of_next h
  | _ => cases hc

/-- The row of a step of a job other than FORMAT. -/
theorem jobStep_row {s t : State} {c : Instr} (hc : c.jobStep = true) (h : exec c s = .next t) : StepRow s c t := by
  cases c with
  | commitSealStep | commitFreeStageStep | commitOpenStep | commitOpenRetireStep | commitRecordStep | commitCloseStep =>
    exact commitStep_row h (by simp)
  | reclaimErasePulse | reclaimFreeStageStep | reclaimRetireStep => exact reclaimStep_row h (by simp)
  | ledgerImageUnitStep | ledgerNoteStep | ledgerAnchorErasePulse => exact ledgerStep_row rfl h
  | vaultWriteByteStep | vaultErasePulse | vaultLockStep => exact vaultStep_row rfl h
  | _ => cases hc

/-- The row of a step of a FORMAT job. -/
theorem formatStep_row {s t : State} {c : Instr} (hc : c.formatStep = true) (h : exec c s = .next t) : Row s c t := by
  cases c with
  | formatErasePulse r =>
    simp only [exec, execFormatErasePulse] at h
    split at h
    · exact formatWhen_row (fun hj => .pulse r _ _ _ hj) h
    · exact row_of_next h
  | formatFreeStageStep p =>
    simp only [exec, execFormatFreeStageStep] at h
    split at h
    · exact formatWhen_row (fun hj => .freeStage p _ _ _ hj) h
    · exact row_of_next h
  | formatRetireStep p =>
    simp only [exec, execFormatRetireStep] at h
    split at h
    · exact formatWhen_row (fun hj => .retire p _ _ _ _ hj) h
    · exact row_of_next h
  | formatAnchorErasePulse r =>
    simp only [exec, execFormatAnchorErasePulse] at h
    split at h
    · rename_i b w hj
      rcases formatWhen_cases h with rfl | ⟨hd, rfl⟩
      · exact .port _ (portStep_refl t)
      · rw [Bool.and_eq_true, due_iff] at hd
        obtain ⟨hw, hp, hr, -⟩ := hd
        exact .format hp hr (.anchorPulse r b w hj hw)
    · exact row_of_next h
  | formatImageUnitStep p =>
    simp only [exec, execFormatImageUnitStep] at h
    split at h
    · rename_i b w hj
      rcases formatWhen_cases h with rfl | ⟨hd, rfl⟩
      · exact .port _ (portStep_refl t)
      · rw [Bool.and_eq_true, due_iff] at hd
        obtain ⟨hw, hp, hr, -⟩ := hd
        exact .format hp hr (.image p b w hj hw)
    · exact row_of_next h
  | _ => cases hc

/-! ### Every row -/

theorem noAction_act {d : OutputCommand} (u : State) (v : Snapshot) (_ : u.port.snapshot = some v) (_ : v.command = d)
    (_ : v.verdict = .done) : OutputAct u (noAction v u) := .nothing

theorem clearNotices_act (stream mask : Byte) (n : Nat) (v : Snapshot) (u : State) :
    OutputAct u (State.clearNotices stream mask n v u) := by
  unfold State.clearNotices
  split
  · exact .nothing
  · split
    · exact .clearNotices _ _
    · exact .nothing

theorem advanceCursor_act {stream form count : Byte} {w : Word32} {n : Nat} {v : Snapshot} {u : State}
    (hs : u.port.snapshot = some v) (hc : v.command = .fetch stream form w count) (hv : v.verdict = .done) :
    OutputAct u (State.advanceCursor stream form n v u) := by
  unfold State.advanceCursor
  split
  · exact .nothing
  · rename_i i hi
    split
    · rename_i h
      exact .advance _ _ _ _ v i n hs hc hv h.1 hi h.2
    · exact .nothing

theorem powerRow {s t : State} {c : Instr} (h : exec c s = .next t)
    (hc : c = .powerOn ∨ (∃ cut, c = .powerLoss cut) ∨ c = .recoveryComplete ∨ c = .wakePhaseEnd ∨ c = .wake
      ∨ ∃ cut, c = .reset cut) : Row s c t := by
  obtain rfl | ⟨cut, rfl⟩ | rfl | rfl | rfl | ⟨cut, rfl⟩ := hc
  · simp only [exec, execPowerOn] at h
    split at h
    · rw [eq_of_next h]
      exact .powerOn _ _
    · exact row_of_next h
  · simp only [exec, execPowerLoss] at h
    split at h
    · exact row_of_next h
    · rw [eq_of_next h]
      exact .powerLoss _ _
  · simp only [exec, execRecoveryComplete] at h
    split at h
    · rename_i hp
      rw [eq_of_next h]
      exact .recovered _ hp
    · exact row_of_next h
  · simp only [exec, execWakePhaseEnd] at h
    split at h
    · rename_i hp
      rw [eq_of_next h]
      exact .wakeEnd _ hp
    · exact row_of_next h
  · simp only [exec, execWake] at h
    split at h
    · rename_i hp
      rw [eq_of_next h]
      exact .wake _ hp
    · exact actionFrame_row (fun _ => .nothing) h
  · simp only [exec, execReset] at h
    split at h
    · rw [eq_of_next h]
      exact .softReset _ _
    · exact actionFrame_row (fun _ => .nothing) h

/-- Every command's row is one of `Row`. -/
theorem exec_row {c : Instr} {s t : State} (h : exec c s = .next t) : Row s c t := by
  cases c with
  | nullFrame =>
    simp only [exec, execNullFrame] at h
    split at h
    · exact row_of_next h
    · rw [eq_of_next h]
      exact .port _ ⟨by constructor <;> rfl, .inr (.inl rfl)⟩
  | discardedFrame | unknownCommand => exact malformedFrame_row h
  | ignoredFrame =>
    rw [eq_of_next h]
    exact .port _ (portStep_endIgnored s)
  | arm | disarm | resetEnable =>
    simp only [exec, execArm, execDisarm, execResetEnable] at h
    exact actionFrame_row (fun _ => .nothing) h
  | clearEvents mask =>
    simp only [exec, execClearEvents] at h
    exact actionFrame_row (fun _ => .clearEvents mask) h
  | setEventEnable e =>
    simp only [exec, execSetEventEnable] at h
    exact actionFrame_row (fun _ => .setEnable e) h
  | configureStream => exact actionFrame_row (configureBody_act _ _ _ _ _ _) h
  | openStream => exact actionFrame_row (openBody_act _ _) h
  | closeStream => exact actionFrame_row (closeBody_act _ _) h
  | resetStream => exact actionFrame_row (resetBody_act _ _) h
  | append =>
    simp only [exec, execAppend] at h
    split at h
    · exact actionFrame_row (appendBody_act _ _ _ _) h
    · exact malformedFrame_row h
  | sync =>
    simp only [exec, execSync] at h
    exact actionFrame_row (fun _ => .sync) h
  | ack => exact actionFrame_row (ackBody_act _ _) h
  | pushMark => exact actionFrame_row (pushBody_act _) h
  | popMark => exact actionFrame_row (popBody_act _) h
  | rewind => exact actionFrame_row (rewindBody_act _ _) h
  | suspend => exact actionFrame_row suspendBody_act h
  | resume => exact actionFrame_row resumeBody_act h
  | deviceConfig => exact actionFrame_row (deviceConfigBody_act _ _) h
  | format => exact actionFrame_row (formatBody_act _) h
  | writeGuard => exact actionFrame_row (writeGuardBody_act _ _ _ _) h
  | vaultWrite =>
    simp only [exec, execVaultWrite] at h
    split at h
    · exact actionFrame_row (vaultWriteBody_act _ _ _ _) h
    · exact malformedFrame_row h
  | vaultErase => exact actionFrame_row (vaultEraseBody_act _) h
  | vaultLock => exact actionFrame_row (vaultLockBody_act _) h
  | doze =>
    simp only [exec, execDoze] at h
    refine actionFrame_row (fun u => ?_) h
    split
    · exact .nothing
    · rename_i hi
      exact .doze (by simpa using fun h => hi (.inl h))
  | queryStatus | readEvents | deviceInfo | segmentInfo | readGuard | vaultRead | identify | descriptor =>
    exact outputFrame_row noAction_act h
  | streamInfo => exact outputFrame_row (fun u v _ _ _ => clearNotices_act _ _ _ v u) h
  | fetch => exact outputFrame_row (fun _ _ => advanceCursor_act) h
  | wake | reset | powerOn | powerLoss | recoveryComplete | wakePhaseEnd => exact powerRow h (by simp)
  | commitSealStep | commitFreeStageStep | commitOpenStep | commitOpenRetireStep | commitRecordStep | commitCloseStep
  | reclaimErasePulse | reclaimFreeStageStep | reclaimRetireStep | ledgerImageUnitStep | ledgerNoteStep | ledgerAnchorErasePulse
  | vaultWriteByteStep | vaultErasePulse | vaultLockStep => exact (jobStep_row rfl h).row
  | formatErasePulse | formatFreeStageStep | formatRetireStep | formatAnchorErasePulse | formatImageUnitStep =>
    exact formatStep_row rfl h
  | statusCapture =>
    have hi : PortStep s { s with port := { s.port with frameIgnored := true } } :=
      ⟨by constructor <;> rfl, .inr (.inl rfl)⟩
    simp only [exec, execStatusCapture] at h
    split at h
    · exact eq_of_next h ▸ .port _ hi
    · exact eq_of_next h ▸ .port _ hi
    · exact eq_of_next h ▸ .port _ hi
    · split at h
      · exact eq_of_next h ▸ .port _ (portStep_capture s)
      · exact row_of_next h
  | verdict d =>
    simp only [exec, execVerdict] at h
    split at h
    · exact eq_of_next h ▸ .port _ (portStep_formVerdict s d)
    · exact row_of_next h

end Sys2Proof.Machine
end

section
/-! What the rows do to the array, the vault and the lock cells: the work of the step in progress or of the cut of it, and nothing
else. The settlement of O4, O9 and O10. -/

namespace Sys2Proof.Machine

-- One proof after the other: the stacks of proofs elaborated side by side come near the memory that a check may take.
set_option Elab.async false

open Sys2Proof

/-! ### The work that a step has done -/

/-- The state once the work of the step in progress has been done on the array or the vault, and nothing else. -/
inductive Worked (s : State) : Instr → State → Prop
  | none (c : Instr) : Worked s c s
  | programmed (c : Instr) (w : ArrayWork) (p : Pulses) (hw : s.stepWork = w) : Worked s c (s.programmed w p)
  | erased {c : Instr} (hc : c.erasesArray = true) (index : Nat) (r : Residue) (hw : s.stepWork = .erase index) :
      Worked s c { s with array := erasePulse s.array index r }
  | vaultByte {c : Instr} (hc : c.vaultStep = true) (p : List Byte) (g : Fin 4) (o : Nat) (b : Byte)
      (hw : s.stepWork = .vaultByte g o b) :
      Worked s c { s with vault := setVaultByte s.vault g o (s.programmedByte g o b p) }
  | vaultErased {c : Instr} (hc : c.vaultStep = true) (r : Residue) (g : Fin 4) (hw : s.stepWork = .vaultErase g) :
      Worked s c { s with vault := eraseVaultPage s.vault g r }
  | locked {c : Instr} (hc : c.vaultStep = true) (b : Bool) (g : Fin 4) (hw : s.stepWork = .vaultLock g) :
      Worked s c { s with
        lockCells := s.lockCells.set g.val ((s.lockCells[g]'g.isLt) || b), vaultLocks := s.vaultLocks.set g.val true }

/-- The work of the next step of a job. -/
def State.jobWork (s : State) : Job → ArrayWork
  | .ledger w => s.ledgerWork w
  | .commit c => s.commitWork c
  | .reclaim k phase => phase.work k
  | .vault v => v.work
  | .format _ f => s.formatWork f

/-- The work of a step in progress is that of the current job (R108). -/
theorem stepWork_of_runs {s : State} {j : Job} (hr : s.engine.runs = true) (hj : s.engine.job = some j) :
    s.stepWork = s.jobWork j := by
  unfold State.stepWork
  rw [if_pos hr, hj]
  cases j <;> rfl

section Kept

variable (s : State)

theorem kept_sealStep (p : Pulses) (e : Entry) (k : DataSeg) :
    Kept (s.programmed (s.commitWork .seal) p) (s.sealStep p e k) := by
  unfold State.sealStep
  exact (kept_updSegment _ k _).trans ((kept_releaseCovered _ _).trans ((kept_setJob _ _).trans (kept_endStep _ _)))

theorem kept_openFreeStage (p : Pulses) (k : DataSeg) :
    Kept (s.programmed (s.commitWork .freeStage) p) (s.openFreeStage p k) := by
  unfold State.openFreeStage
  exact Kept.ite _ ((kept_updSegment _ k _).trans ((kept_setJob _ _).trans (kept_endStep _ _))) (kept_withdraw _ k)

theorem kept_openStep (p : Pulses) (e : Entry) (k : DataSeg) :
    Kept (s.programmed (s.commitWork .openStage) p) (s.openStep p e k) := by
  unfold State.openStep
  exact Kept.ite _ (kept_opened _ e k) (kept_withdraw _ k)

theorem kept_openRetireStep (p : Pulses) (e : Entry) (k : DataSeg) :
    Kept (s.programmed (s.commitWork (.openRetire k)) p) (s.openRetireStep p e k) := by
  unfold State.openRetireStep
  exact (kept_updSegment _ k _).trans (kept_continueOpening _ e)

theorem kept_recordStep (p : Pulses) (e : Entry) (k : DataSeg) :
    Kept (s.programmed (s.commitWork .record) p) (s.recordStep p e k) := by
  unfold State.recordStep
  exact Kept.ite _ (kept_committed _ e k) (kept_recordFailed _ e k)

theorem kept_closeStep (p : Pulses) (e : Entry) (k : DataSeg) :
    Kept (s.programmed (s.commitWork (.close k)) p) (s.closeStep p e k) := by
  unfold State.closeStep
  exact (kept_updSegment _ k _).trans ((kept_raise _ _).trans ((kept_releaseCovered _ _).trans (kept_continueOpening _ e)))

theorem kept_reclaimPulse (r : Residue) (k : DataSeg) (n : Nat) :
    Kept { s with array := erasePulse s.array k.index r } (s.reclaimPulse r k n) := by
  unfold State.reclaimPulse
  exact (kept_takeForErase _ k).trans ((kept_setJob _ _).trans (kept_endStep _ _))

theorem kept_reclaimFreeStage (p : Pulses) (k : DataSeg) (n : Nat) :
    Kept (s.programmed (ErasePhase.work k (.freeStage n)) p) (s.reclaimFreeStage p k n) := by
  unfold State.reclaimFreeStage
  exact Kept.ite _ ((kept_enterCount _ k _ _).trans ((kept_toPool _ k).trans (kept_endStep _ _)))
    ((kept_enterCount _ k _ _).trans ((kept_setJob _ _).trans (kept_endStep _ _)))

theorem kept_reclaimRetire (p : Pulses) (k : DataSeg) (c : Byte) (b : Bool) :
    Kept (s.programmed (ErasePhase.work k (.retire c b)) p) (s.reclaimRetire p k c b) := by
  unfold State.reclaimRetire
  exact (kept_endRetire _ k b _).trans (kept_endStep _ _)

theorem programmed_of_kept {u : State} (h : Kept s u) (w : ArrayWork) (p : Pulses) :
    Kept (s.programmed w p) (u.programmed w p) :=
  ⟨h.power, h.port, h.eventEnable, h.guard, h.lowWater, h.vaultLocks, congrArg (w.programmed p) h.array, h.vault, h.lockCells,
   h.freeIndex, h.pending⟩

theorem kept_imageUnit (p : Pulses) : Kept (s.programmed (s.ledgerWork .image) p) (s.imageUnit p) := by
  unfold State.imageUnit
  refine (programmed_of_kept s (kept_beginImage s) _ p).trans (Kept.ite _ (Kept.ite _ ?_ ?_) ?_)
  · exact (kept_updLedger _ _).trans ((kept_updLedger _ _).trans (kept_endStep _ _))
  · exact (kept_updLedger _ _).trans ((kept_completeImage _ _).trans (kept_chooseAgain _))
  · exact (kept_updLedger _ _).trans ((kept_updLedger _ _).trans ((kept_setJob _ _).trans (kept_endStep _ _)))

theorem kept_compactUnit (w : ArrayWork) (p : Pulses) (a : AnchorSeg) (n : Nat) :
    Kept (s.programmed w p) (s.compactUnit w p a n) := by
  unfold State.compactUnit
  refine Kept.ite _ (Kept.ite _ ?_ ?_) ?_
  · exact (kept_updLedger _ _).trans ((kept_setJob _ _).trans (kept_endStep _ _))
  · exact (kept_moveTo _ a).trans ((kept_completeImage _ _).trans (kept_chooseAgain _))
  · exact kept_attemptFailed _ a n

theorem kept_ledgerUnit (p : Pulses) {w : LedgerWork} (hw : w.isImage = true) :
    Kept (s.programmed (s.ledgerWork w) p) (s.ledgerUnit p w) := by
  cases w with
  | image => exact kept_imageUnit s p
  | compactCapture a n =>
    exact (programmed_of_kept s (kept_captureImage s _) _ p).trans (kept_compactUnit _ _ p a n)
  | compactImage a n => exact kept_compactUnit s _ p a n
  | note i => cases hw
  | compactErase a m n => cases hw

theorem kept_noteUnitStep (p : Pulses) (i : StreamId) :
    Kept (s.programmed (s.ledgerWork (.note i)) p) (s.noteUnitStep p i) := by
  unfold State.noteUnitStep
  refine (programmed_of_kept s (kept_setNote s i false) _ p).trans (Kept.ite _ ?_ ?_)
  · exact (kept_updLedger _ _).trans ((kept_handOn _ _ _).trans (kept_chooseAgain _))
  · exact (kept_updLedger _ _).trans ((kept_setNote _ _ _).trans ((kept_setJob _ _).trans (kept_endStep _ _)))

theorem kept_compactPulse (r : Residue) (a : AnchorSeg) (m n : Nat) :
    Kept { s with array := erasePulse s.array a.val r } (s.compactPulse r a m n) := by
  unfold State.compactPulse
  refine Kept.ite _ ?_ (Kept.ite _ ?_ ?_)
  · exact (kept_countAnchorErase _ a).trans ((kept_setJob _ _).trans (kept_endStep _ _))
  · exact (kept_haltLedger _).trans (kept_endStep _ _)
  · exact (kept_setJob _ _).trans (kept_endStep _ _)

theorem kept_vaultByteStep (p : List Byte) (g : Fin 4) (o : Nat) (b : Byte) (bs : List Byte) :
    Kept { s with vault := setVaultByte s.vault g o (s.programmedByte g o b p) } (s.vaultByteStep p g o b bs) := by
  unfold State.vaultByteStep
  exact Kept.ite _ (kept_endStep _ _) ((kept_setJob _ _).trans (kept_endStep _ _))

theorem kept_vaultPulse (r : Residue) (g : Fin 4) (n : Nat) :
    Kept { s with vault := eraseVaultPage s.vault g r } (s.vaultPulse r g n) := by
  unfold State.vaultPulse
  exact Kept.ite _ (kept_endStep _ _) ((kept_setJob _ _).trans (kept_endStep _ _))

end Kept

/-- A step of a job other than FORMAT does the work in progress, and touches nothing else of what `Kept` names. -/
theorem StepAct.worked {s u : State} {c : Instr} (hr : s.engine.runs = true) (h : StepAct s c u) :
    ∃ w, Worked s c w ∧ Kept w u := by
  cases h with
  | sealOpen p e es k hj => exact ⟨_, .programmed _ _ p (stepWork_of_runs hr hj), kept_sealStep s p e k⟩
  | freeStage p k ks hj => exact ⟨_, .programmed _ _ p (stepWork_of_runs hr hj), kept_openFreeStage s p k⟩
  | openStage p e es k ks hj => exact ⟨_, .programmed _ _ p (stepWork_of_runs hr hj), kept_openStep s p e k⟩
  | openRetire p e es k hj => exact ⟨_, .programmed _ _ p (stepWork_of_runs hr hj), kept_openRetireStep s p e k⟩
  | record p e es k hj => exact ⟨_, .programmed _ _ p (stepWork_of_runs hr hj), kept_recordStep s p e k⟩
  | close p e es k hj => exact ⟨_, .programmed _ _ p (stepWork_of_runs hr hj), kept_closeStep s p e k⟩
  | reclaimPulse r k n hj => exact ⟨_, .erased rfl _ r (stepWork_of_runs hr hj), kept_reclaimPulse s r k n⟩
  | reclaimFreeStage p k n hj => exact ⟨_, .programmed _ _ p (stepWork_of_runs hr hj), kept_reclaimFreeStage s p k n⟩
  | reclaimRetire p k d b hj => exact ⟨_, .programmed _ _ p (stepWork_of_runs hr hj), kept_reclaimRetire s p k d b⟩
  | image p w hj hw => exact ⟨_, .programmed _ _ p (stepWork_of_runs hr hj), kept_ledgerUnit s p hw⟩
  | note p i hj => exact ⟨_, .programmed _ _ p (stepWork_of_runs hr hj), kept_noteUnitStep s p i⟩
  | compactPulse r a m n hj => exact ⟨_, .erased rfl _ r (stepWork_of_runs hr hj), kept_compactPulse s r a m n⟩
  | vaultByte p g o b bs hj => exact ⟨_, .vaultByte rfl p g o b (stepWork_of_runs hr hj), kept_vaultByteStep s p g o b bs⟩
  | vaultPulse r g n hj => exact ⟨_, .vaultErased rfl r g (stepWork_of_runs hr hj), kept_vaultPulse s r g n⟩
  | vaultLock b g hj => exact ⟨_, .locked rfl b g (stepWork_of_runs hr hj), kept_endStep _ _⟩

/-! ### FORMAT steps -/

/-- What a FORMAT step leaves beyond the work it has done: `Kept`, or with the job's completion the values of R158. -/
inductive FormatKept (s : State) : State → Prop
  | inside {t : State} (h : Kept s t) : FormatKept s t
  | ended {u : State} (h : Kept s u) (l : Ledger) : FormatKept s (u.formatted l)

theorem FormatKept.trans {s t u : State} (h : Kept s t) (h' : FormatKept t u) : FormatKept s u := by
  cases h' with
  | inside h' => exact .inside (h.trans h')
  | ended h' l => exact .ended (h.trans h') l

theorem FormatKept.ite {s t u : State} (b : Prop) [Decidable b] (h : FormatKept s t) (h' : FormatKept s u) :
    FormatKept s (if b then t else u) := by
  split <;> assumption

section Format

variable (s : State)

theorem kept_formatPulse (r : Residue) (b : Bool) (k : DataSeg) (n : Nat) :
    Kept { s with array := erasePulse s.array k.index r } (s.formatPulse r b k n) := by
  unfold State.formatPulse
  exact (kept_formatTake _ k).trans (kept_formatOn _ b _)

theorem kept_formatFreeStage (p : Pulses) (b : Bool) (k : DataSeg) (n : Nat) :
    Kept (s.programmed (ErasePhase.work k (.freeStage n)) p) (s.formatFreeStage p b k n) := by
  unfold State.formatFreeStage
  exact Kept.ite _ ((kept_enterCount _ k _ _).trans ((kept_toPool _ k).trans (kept_formatAfter _ k)))
    ((kept_enterCount _ k _ _).trans (kept_formatOn _ b _))

theorem kept_formatRetire (p : Pulses) (k : DataSeg) (c : Byte) (e : Bool) :
    Kept (s.programmed (ErasePhase.work k (.retire c e)) p) (s.formatRetire p k c e) := by
  unfold State.formatRetire
  exact (kept_endRetire _ k e _).trans (kept_formatAfter _ k)

theorem formatKept_formatHalt {s u : State} (h : Kept s u) : FormatKept s u.formatHalt :=
  .ended (h.trans (kept_raise u .ledgerHalt)) _

theorem formatKept_anchorPulse (r : Residue) (b : Bool) (a : AnchorSeg) (n : Nat) (passed again : FormatWork) :
    FormatKept { s with array := erasePulse s.array a.val r } (s.anchorPulse r b a n passed again) := by
  unfold State.anchorPulse
  refine FormatKept.ite _ ?_ (FormatKept.ite _ ?_ ?_)
  · exact .inside ((kept_countAnchorErase _ a).trans (kept_formatOn _ b _))
  · exact formatKept_formatHalt (Kept.ite _ (Kept.refl _) (kept_formatNext _ _))
  · exact .inside (kept_formatOn _ b _)

theorem kept_formatRetry (n : Nat) : Kept s (s.formatRetry n) := (kept_updLedger s _).trans (kept_formatOn _ _ _)

theorem formatKept_formatUnit (w : ArrayWork) (p : Pulses) (n : Nat) :
    FormatKept (s.programmed w p) (s.formatUnit w p n) := by
  unfold State.formatUnit State.formatAttemptFailed
  refine FormatKept.ite _ (FormatKept.ite _ ?_ (FormatKept.ite _ ?_ ?_)) (FormatKept.ite _ ?_ ?_)
  · exact .inside ((kept_updLedger _ _).trans (kept_formatOn _ _ _))
  · exact .ended (Kept.refl _) _
  · exact .inside (kept_formatRetry _ n)
  · exact .inside (kept_formatRetry _ 2)
  · exact formatKept_formatHalt (Kept.refl _)

theorem formatKept_formatImageUnit (p : Pulses) {w : FormatWork} (hw : w.isImage = true) :
    FormatKept (s.programmed (s.formatWork w) p) (s.formatImageUnit p w) := by
  cases w with
  | compactCapture a =>
    exact (FormatKept.trans (programmed_of_kept s (kept_captureImage s s.formatCapture) _ p)
      (formatKept_formatUnit _ _ p a))
  | compactImage a => exact formatKept_formatUnit s _ p a
  | segment k phase => cases hw
  | anchorErase n => cases hw
  | compactErase a n => cases hw

end Format

/-- A FORMAT step does the work in progress, and touches nothing else of what `FormatKept` names. -/
theorem FormatAct.worked {s t : State} {c : Instr} (hr : s.engine.runs = true) (h : FormatAct s c t) :
    ∃ w, Worked s c w ∧ FormatKept w t := by
  cases h with
  | pulse r b k n hj => exact ⟨_, .erased rfl _ r (stepWork_of_runs hr hj), .inside (kept_formatPulse s r b k n)⟩
  | freeStage p b k n hj =>
    exact ⟨_, .programmed _ _ p (stepWork_of_runs hr hj), .inside (kept_formatFreeStage s p b k n)⟩
  | retire p b k d e hj => exact ⟨_, .programmed _ _ p (stepWork_of_runs hr hj), .inside (kept_formatRetire s p k d e)⟩
  | anchorPulse r b w hj hw =>
    cases w with
    | anchorErase n =>
      exact ⟨_, .erased rfl 1 r (stepWork_of_runs hr hj), formatKept_anchorPulse s r b 1 n _ _⟩
    | compactErase a n =>
      exact ⟨_, .erased rfl 0 r (stepWork_of_runs hr hj), formatKept_anchorPulse s r b 0 n _ _⟩
    | segment k phase => cases hw
    | compactCapture a => cases hw
    | compactImage a => cases hw
  | image p b w hj hw => exact ⟨_, .programmed _ _ p (stepWork_of_runs hr hj), formatKept_formatImageUnit s p hw⟩

/-! ### The storage through every row -/

/-- What a row leaves of array, vault and lock cells: all as it was, or the work of the step in progress or of the cut of it. -/
inductive StorageEffect (s : State) (c : Instr) : State → Prop
  | kept {t : State} (ha : t.array = s.array) (hv : t.vault = s.vault) (hl : t.lockCells = s.lockCells) : StorageEffect s c t
  | worked {w t : State} (hc : c.jobStep = true ∨ c.formatStep = true) (hw : Worked s c w) (ha : t.array = w.array)
      (hv : t.vault = w.vault) (hl : t.lockCells = w.lockCells) : StorageEffect s c t
  | cut {t : State} (hc : c.cuts = true) (k : Cut) (ha : t.array = (s.abandonStep k).array)
      (hv : t.vault = (s.abandonStep k).vault) (hl : t.lockCells = (s.abandonStep k).lockCells) : StorageEffect s c t

theorem StorageEffect.of_portOnly {s t : State} {c : Instr} (h : PortOnly s t) : StorageEffect s c t :=
  .kept h.array h.vault h.lockCells

section Actions

variable (s : State)

theorem kept_releaseReset (i : StreamId) (ks : List DataSeg) (n : Nat) : Kept s (s.releaseReset i ks n) := by
  unfold State.releaseReset
  constructor <;> rfl

theorem kept_rechoose (i : StreamId) : Kept s (s.rechoose i) := by
  unfold State.rechoose
  split
  · split
    · exact kept_setJob s _
    · exact Kept.refl s
  · exact Kept.refl s

theorem kept_sync (f : Option (List SyncItem)) : Kept s { s with sync := f } := by constructor <;> rfl

theorem kept_streamReset (i : StreamId) : Kept s (s.resetStream i) := by
  unfold State.resetStream
  dsimp only
  refine Kept.trans ?_ ((kept_evalSync _).trans ((kept_selectIfIdle _).trans (kept_evalPool _ _)))
  refine Kept.trans ?_ (kept_sync _ _)
  refine Kept.trans ?_ ((kept_rechoose _ i).trans (kept_satisfy _ _))
  refine Kept.trans ?_ ((kept_setNote _ i false).trans (kept_needImage _))
  refine Kept.trans ?_ (kept_staging _ fun l => l.filter fun e => e.stream != i)
  exact (kept_releaseReset s i _ _).trans ((kept_updStream _ i _).trans (kept_setStreamSides _ i))

theorem kept_configure (i : StreamId) (p : Policy) (q h b : Nat) : Kept s (s.configure i p q h b) :=
  (kept_updStream s i _).trans ((kept_setStreamSides _ i).trans ((kept_needImage _).trans (kept_selectIfIdle _)))

theorem kept_moveStream (i : StreamId) (t : StreamState) : Kept s (s.moveStream i t) :=
  (kept_updStream s i _).trans ((kept_needImage _).trans (kept_selectIfIdle _))

theorem kept_sealIf (i : StreamId) (q : Nat) : Kept s (s.sealIf i q) := by
  unfold State.sealIf
  exact Kept.ite _ ((kept_updStream s i _).trans ((kept_needImage _).trans ((kept_notify _ i _).trans (kept_raise _ _))))
    (Kept.refl s)

theorem kept_dropSegment (i : StreamId) (d : DataSeg) : Kept s (s.dropSegment i d) := by
  unfold State.dropSegment
  exact (kept_release s d _).trans ((kept_updStream _ i _).trans ((Kept.ite _ ((kept_notify _ i _).trans (kept_raise _ _))
    (Kept.refl _)).trans (kept_setNote _ i true)))

theorem kept_dropIf (i : StreamId) (drop : Option DataSeg) : Kept s (s.dropIf i drop) := by
  cases drop with
  | none => exact Kept.refl s
  | some d => exact kept_dropSegment s i d

/-- Staging touches the port's receipt beside what `Kept` leaves free (R58, step 5). -/
theorem kept_stage (i : StreamId) (tag : Byte) (payload : List Byte) (p : Placement) :
    Kept { s with port := (s.stage i tag payload p).port } (s.stage i tag payload p) := by constructor <;> rfl

theorem Kept.setPort {s t : State} (h : Kept s t) (p : Port) : Kept { s with port := p } { t with port := p } :=
  ⟨h.power, rfl, h.eventEnable, h.guard, h.lowWater, h.vaultLocks, h.array, h.vault, h.lockCells, h.freeIndex, h.pending⟩

theorem kept_acceptCurrent (i : StreamId) (tag : Byte) (payload : List Byte) :
    Kept { s with port := (s.stage i tag payload .current).port } (s.acceptCurrent i tag payload) :=
  (kept_stage s i tag payload .current).trans ((kept_sealIf _ i _).trans (kept_selectIfIdle _))

theorem kept_acceptNew (i : StreamId) (tag : Byte) (payload : List Byte) (drop : Option DataSeg) :
    ∃ p, Kept { s with port := p } (s.acceptNew i tag payload drop) := by
  have hdrop : Kept s ((s.updStream i fun t => { t with reserved := t.reserved + 1 }).dropIf i drop) :=
    (kept_updStream s i _).trans (kept_dropIf _ i drop)
  refine ⟨_, (hdrop.setPort _).trans ((kept_stage _ i tag payload .new).trans ?_)⟩
  unfold State.acceptNew
  have hsides := (kept_sealIf (State.stage i tag payload .new
      ((s.updStream i fun t => { t with reserved := t.reserved + 1 }).dropIf i drop))
    i (s.streams[i]'i.isLt).nextSeq).trans ((kept_selectIfIdle _).trans (kept_evalHeld _ i))
  exact (Kept.ite _ hsides (hsides.trans (kept_evalUnread _ i))).trans (kept_evalPool _ _)

theorem kept_recordSync : Kept s s.recordSync := by
  unfold State.recordSync
  exact (kept_updLedger s fun l => { l with
    pendingNotes := tabulate fun i => (s.ledger.pendingNotes[i]'i.isLt) || (s.streams[i]'i.isLt).frontierDiffers }).trans
      ((kept_sync _ _).trans ((kept_evalSync _).trans (kept_selectIfIdle _)))

theorem kept_acknowledge (i : StreamId) (q : Nat) : Kept s (s.acknowledge i q) := by
  unfold State.acknowledge
  have hwalk := (kept_updStream s i fun t => { t with volatileFrontier := q, cursor := max t.cursor (q + 1) }).trans
    (kept_releaseCovered _ i)
  exact (Kept.ite _ hwalk (hwalk.trans (kept_evalUnread _ i))).trans (kept_selectIfIdle _)

theorem kept_pushMark (i : StreamId) : Kept s (s.pushMark i) := by
  unfold State.pushMark
  exact Kept.ite _ ((kept_updStream s i _).trans ((kept_notify _ i _).trans (kept_raise _ _))) (kept_updStream s i _)

theorem kept_moveCursor (i : StreamId) (q : Nat) : Kept s (s.moveCursor i q) := by
  unfold State.moveCursor
  exact Kept.ite _ (Kept.refl s) ((kept_updStream s i _).trans (kept_evalUnread _ i))

end Actions

/-- What an action frame's action may touch beside what `Kept` leaves free: the receipt, the event enable, the low-water, the guard
by WRITE GUARD, and the power state by DOZE. -/
structure ActionKept (s t : State) : Prop where
  kept : ∃ p e n g w, Kept { s with port := p, eventEnable := e, lowWater := n, guard := g, power := w } t
    ∧ (g = s.guard ∨ ∃ m l f, g = s.guard.written m l f)
    ∧ (w = s.power ∨ (t = { s with power := .dozing } ∧ s.engine.state = .idle))

theorem ActionKept.of_kept {s t : State} {p : Port} (h : Kept { s with port := p } t) : ActionKept s t :=
  ⟨p, _, _, _, _, h, .inl rfl, .inl rfl⟩

theorem ActionAct.kept {s t : State} (h : ActionAct s t) : ActionKept s t := by
  have of_kept : ∀ {t}, Kept s t → ActionKept s t := fun h => .of_kept (p := s.port) h
  cases h with
  | nothing => exact of_kept (Kept.refl s)
  | clearEvents | suspend | resume => exact of_kept (by constructor <;> rfl)
  | setEnable e => exact ⟨s.port, e, s.lowWater, s.guard, s.power, by constructor <;> rfl, .inl rfl, .inl rfl⟩
  | configure i p q h b => exact of_kept (kept_configure s i p q h b)
  | move i t => exact of_kept (kept_moveStream s i t)
  | resetStream i => exact of_kept (kept_streamReset s i)
  | appendCurrent i tag payload => exact .of_kept (kept_acceptCurrent s i tag payload)
  | appendNew i tag payload drop => exact (kept_acceptNew s i tag payload drop).elim fun _ => .of_kept
  | quotaFull i => exact of_kept ((kept_notify s i _).trans (kept_raise _ _))
  | poolEmpty => exact of_kept (kept_raise s _)
  | sync => exact of_kept (kept_recordSync s)
  | ack i q => exact of_kept (kept_acknowledge s i q)
  | push i => exact of_kept (kept_pushMark s i)
  | pop i => exact of_kept (kept_updStream s i _)
  | rewind i q => exact of_kept (kept_moveCursor s i q)
  | rewindPop i q qs => exact of_kept ((kept_moveCursor s i q).trans (kept_updStream _ i _))
  | deviceConfig n =>
    exact ⟨s.port, s.eventEnable, n, s.guard, s.power,
      (kept_setPoolSide _).trans ((kept_needImage _).trans (kept_selectIfIdle _)), .inl rfl, .inl rfl⟩
  | format => exact of_kept ((kept_sync s none).trans (kept_run _ _))
  | writeGuard m l f =>
    refine ⟨s.port, s.eventEnable, s.lowWater, s.guard.written m l f, s.power, ?_, .inr ⟨m, l, f, rfl⟩, .inl rfl⟩
    unfold State.writeGuard
    dsimp only
    split
    · exact (kept_needImage _).trans (kept_selectIfIdle _)
    · exact Kept.refl _
  | vault w => exact of_kept (kept_run s _)
  | doze hi => exact ⟨s.port, s.eventEnable, s.lowWater, s.guard, .dozing, Kept.refl _, .inl rfl, .inr ⟨rfl, hi⟩⟩

theorem OutputAct.kept {s t : State} (h : OutputAct s t) : Kept s t := by
  cases h with
  | nothing => exact Kept.refl s
  | clearNotices => exact kept_updStream s _ _
  | advance => exact (kept_updStream s _ _).trans (kept_evalUnread _ _)

theorem StepAct.jobStep {s u : State} {c : Instr} (h : StepAct s c u) : c.jobStep = true := by cases h <;> rfl

theorem FormatAct.formatStep {s u : State} {c : Instr} (h : FormatAct s c u) : c.formatStep = true := by cases h <;> rfl

theorem FormatKept.storage {s t : State} (h : FormatKept s t) :
    t.array = s.array ∧ t.vault = s.vault ∧ t.lockCells = s.lockCells := by
  cases h with
  | inside h => exact ⟨h.array, h.vault, h.lockCells⟩
  | ended h l =>
    unfold State.formatted
    exact ⟨(kept_endStep _ _).array.trans h.array, (kept_endStep _ _).vault.trans h.vault,
      (kept_endStep _ _).lockCells.trans h.lockCells⟩

theorem kept_raiseIf (s : State) (b : Bool) (e : Event) : Kept s (s.raiseIf b e) := Kept.ite _ (kept_raise s e) (Kept.refl s)

/-- What the end of the recovery scan leaves alone (R154). -/
theorem kept_recovered (s : State) : Kept
    { s with
      power := .active, guard := (anchorPhase s.array).guard (s.guard.working == LockMode.session)
      lowWater := (anchorPhase s.array).lowWater, vaultLocks := s.lockCells, freeIndex := s.freeIndex + 1 } s.recovered := by
  unfold State.recovered State.recoveryEvents
  dsimp only
  refine Kept.trans ?_ (kept_select _)
  have h := fun (u : State) (a b : Bool) =>
    (kept_raise { u with eventLatch := 0 } .recoveryDone).trans ((kept_raiseIf _ a .tornFound).trans (kept_raiseIf _ b .anchorFault))
  have hs := fun (u : State) (a b : Bool) => (h u a b).trans (kept_setAllSides _)
  constructor
  · rfl
  · exact (hs _ _ _).port
  · exact (hs _ _ _).eventEnable
  · exact (hs _ _ _).guard
  · exact (hs _ _ _).lowWater
  · exact (hs _ _ _).vaultLocks
  · exact (hs _ _ _).array
  · exact (hs _ _ _).vault
  · exact (hs _ _ _).lockCells
  · exact (hs _ _ _).freeIndex
  · exact (hs _ _ _).pending

/-- Every row leaves the storage, or does the work in progress, or cuts it short. -/
theorem Row.storage {s t : State} {c : Instr} (h : Row s c t) : StorageEffect s c t := by
  cases h with
  | port c h => exact .of_portOnly h.only
  | action c hp hu h ht =>
    obtain ⟨p, e, n, g, w, h, -⟩ := h.kept.kept
    exact .kept (ht.only.array.trans (h.array.trans hu.only.array)) (ht.only.vault.trans (h.vault.trans hu.only.vault))
      (ht.only.lockCells.trans (h.lockCells.trans hu.only.lockCells))
  | output c hu h ht =>
    have h := h.kept
    exact .kept (ht.only.array.trans (h.array.trans hu.only.array)) (ht.only.vault.trans (h.vault.trans hu.only.vault))
      (ht.only.lockCells.trans (h.lockCells.trans hu.only.lockCells))
  | wake | wakeEnd | powerOn => exact .kept rfl rfl rfl
  | softReset cut | powerLoss cut => exact .cut rfl cut rfl rfl rfl
  | recovered =>
    have h := kept_recovered s
    exact .kept h.array h.vault h.lockCells
  | step hp hr h =>
    obtain ⟨w, hw, hk⟩ := h.worked hr
    have hk := hk.trans (kept_evalPool _ s.available)
    exact .worked (.inl h.jobStep) hw hk.array hk.vault hk.lockCells
  | format hp hr h =>
    obtain ⟨w, hw, hk⟩ := h.worked hr
    obtain ⟨ha, hv, hl⟩ := hk.storage
    exact .worked (.inr h.formatStep) hw ha hv hl

/-! ### The array (R91, R110, R159) -/

/-- What a row leaves of the array: all of it, a program sequence of the item in progress, or an erase pulse in progress. -/
inductive ArrayEffect (s : State) (c : Instr) (m : Memory) : Prop
  | kept (h : m = s.array) : ArrayEffect s c m
  | programmed (hc : c.jobStep = true ∨ c.formatStep = true ∨ c.cuts = true) (item : Item) (hw : s.stepWork = .program item)
      (h : Programs item.addresses s.array m) : ArrayEffect s c m
  | erased (hc : c.jobStep = true ∨ c.formatStep = true ∨ c.cuts = true) (he : c.erasesArray = true ∨ c.cuts = true)
      (index : Nat) (r : Residue) (hw : s.stepWork = .erase index) (h : m = erasePulse s.array index r) : ArrayEffect s c m

theorem Worked.array {s w : State} {c : Instr} (hc : c.jobStep = true ∨ c.formatStep = true) (h : Worked s c w) :
    ArrayEffect s c w.array := by
  cases h with
  | none | vaultByte | vaultErased | locked => exact .kept rfl
  | programmed w p hw =>
    cases w with
    | program item => exact .programmed (by tauto) item hw (programs_program _ item p)
    | nothing | erase | vaultByte | vaultErase | vaultLock => exact .kept rfl
  | erased he index r hw => exact .erased (by tauto) (.inl he) index r hw rfl

theorem abandonStep_array {s : State} {c : Instr} (hc : c.cuts = true) (k : Cut) : ArrayEffect s c (s.abandonStep k).array := by
  unfold State.abandonStep
  split
  · exact .kept rfl
  · rename_i item hw
    exact .programmed (by tauto) item hw (programs_cutProgram _ item _)
  · rename_i index hw
    split
    · rename_i r _
      exact .erased (by tauto) (.inr hc) index r hw rfl
    · exact .kept rfl
  · exact .kept rfl
  · split <;> exact .kept rfl
  · exact .kept rfl

theorem StorageEffect.array {s t : State} {c : Instr} (h : StorageEffect s c t) : ArrayEffect s c t.array := by
  cases h with
  | kept ha => exact .kept ha
  | worked hc hw ha => exact ha ▸ hw.array hc
  | cut hc k ha => exact ha ▸ abandonStep_array hc k

theorem exec_array {c : Instr} {s t : State} (h : exec c s = .next t) : ArrayEffect s c t.array := (exec_row h).storage.array

theorem ArrayEffect.wf {s : State} {c : Instr} {m : Memory} (h : ArrayEffect s c m) (hs : Memory.wf s.array = true) :
    Memory.wf m = true := by
  cases h with
  | kept h => rwa [h]
  | programmed hc item hw h => exact h.wf hs
  | erased hc he index r hw h => exact h ▸ erasePulse_wf hs

/-- A step of the machine runs a command on the state with the queue's rest, or idles. -/
theorem step_cases {s t : State} (h : step s = .next t) :
    t = s ∨ ∃ c rest, s.pending = c :: rest ∧ exec c { s with pending := rest } = .next t := by
  unfold step at h
  split at h
  · exact .inl (eq_of_next h)
  · rename_i c rest hp
    exact .inr ⟨c, rest, hp, h⟩

/-- Settles O4: program sequences and erase pulses keep the canonical form, and no row changes the array otherwise. -/
theorem stepKeepsArrayCanonical : Obligations.StepKeepsArrayCanonical := by
  intro s t hs h
  rcases step_cases h with rfl | ⟨c, rest, -, h⟩
  · exact hs
  · exact (exec_array h).wf hs

/-- Settles O9: what the row does to the array is a program sequence on the item in progress, or an erase pulse in progress. -/
theorem onlyTheStepsWorkChangesTheArray : Obligations.OnlyTheStepsWorkChangesTheArray := by
  intro c s t hs h
  cases exec_array h with
  | kept h => simp [h]
  | programmed hc item hw h =>
    refine ⟨fun a ha => ?_, fun h1 h2 h3 => by simp_all, fun _ a => h.clears hs a⟩
    rw [hw] at ha
    exact h.outside hs a ha
  | erased hc he index r hw h =>
    refine ⟨fun a ha => ?_, fun h1 h2 h3 => by simp_all, fun hk => ?_⟩
    · rw [hw] at ha
      exact h ▸ readByte_erasePulse hs ha
    · simp_all [ArrayWork.erasesArray]

/-! ### The vault and the lock cells (R155, R159, R183) -/

/-- What a piece of work may do to the vault and the lock cells. -/
structure VaultEffect (w : ArrayWork) (s t : State) : Prop where
  page : ∀ p : Fin 4, w.vaultPage ≠ some p → (t.vault[p]'p.isLt) = (s.vault[p]'p.isLt)
  cell : ∀ p : Fin 4, w.lockPage ≠ some p → (t.lockCells[p]'p.isLt) = (s.lockCells[p]'p.isLt)
  clears : ∀ p : Fin 4, w ≠ .vaultErase p → ∀ o : Fin 128, (t.vault[p]'p.isLt)[o] &&& (s.vault[p]'p.isLt)[o] = (t.vault[p]'p.isLt)[o]
  locked : ∀ p : Fin 4, (s.lockCells[p]'p.isLt) = true → (t.lockCells[p]'p.isLt) = true

theorem VaultEffect.of_eq {w : ArrayWork} {s t : State} (hv : t.vault = s.vault) (hl : t.lockCells = s.lockCells) :
    VaultEffect w s t :=
  ⟨fun _ _ => by rw [hv], fun _ _ => by rw [hl], fun _ _ _ => by simp [hv], fun _ h => by rw [hl]; exact h⟩

theorem setVaultByte_other {v : Vector (Vector Byte 128) 4} {g p : Fin 4} (h : g ≠ p) (o : Nat) (b : Byte) :
    (setVaultByte v g o b)[p] = v[p] := by
  have h' : g.val ≠ p.val := fun e => h (Fin.ext e)
  unfold setVaultByte
  split
  · simp [h']
  · rfl

/-- A byte of the page on which the work is: the written byte, or what was there. -/
theorem setVaultByte_same (v : Vector (Vector Byte 128) 4) (g : Fin 4) (o : Nat) (b : Byte) (x : Fin 128) :
    (setVaultByte v g o b)[g][x] = if o = x.val then b else v[g][x] := by
  unfold setVaultByte
  split
  · simp [Vector.getElem_set]
  · rename_i ho
    rw [if_neg (fun e => ho (by omega))]

/-- A byte that the work drives only loses bits. -/
theorem vaultEffect_byte {s t : State} {g : Fin 4} {o : Nat} {v b : Byte}
    (ht : t.vault = setVaultByte s.vault g o b) (hl : t.lockCells = s.lockCells)
    (hb : b &&& (s.vault[g]'g.isLt).toList.getD o 0xFF = b) : VaultEffect (.vaultByte g o v) s t where
  page p hp := by
    rw [ht, setVaultByte_other]
    exact fun e => hp (by simp [ArrayWork.vaultPage, e])
  cell p _ := by rw [hl]
  clears p _ x := by
    by_cases hg : g = p
    · subst hg
      rw [ht, setVaultByte_same]
      split
      · rename_i ho
        subst ho
        simpa using hb
      · simp
    · rw [ht, setVaultByte_other hg]
      simp
  locked p h := by rw [hl]; exact h

theorem eraseVaultPage_other {v : Vector (Vector Byte 128) 4} {g p : Fin 4} (h : g ≠ p) (r : Residue) :
    (eraseVaultPage v g r)[p] = v[p] := by
  have h' : g.val ≠ p.val := fun e => h (Fin.ext e)
  have hfold : ∀ (r : Residue) (u : Vector (Vector Byte 128) 4), u[p] = v[p] →
      (r.foldl (fun v c => setVaultByte v g c.1 c.2) u)[p] = v[p] := by
    intro r
    induction r with
    | nil => exact fun u hu => hu
    | cons c r ih => exact fun u hu => ih _ (by rw [setVaultByte_other h, hu])
  exact hfold r _ (by simp [h'])

theorem vaultEffect_erase {s t : State} {g : Fin 4} {r : Residue} (ht : t.vault = eraseVaultPage s.vault g r)
    (hl : t.lockCells = s.lockCells) : VaultEffect (.vaultErase g) s t where
  page p hp := by
    rw [ht, eraseVaultPage_other]
    exact fun e => hp (by simp [ArrayWork.vaultPage, e])
  cell p _ := by rw [hl]
  clears p hp x := by
    rw [ht, eraseVaultPage_other fun e => hp (by rw [e])]
    simp
  locked p h := by rw [hl]; exact h

theorem vaultEffect_lock {s t : State} {g : Fin 4} {b : Bool} (hv : t.vault = s.vault)
    (ht : t.lockCells = s.lockCells.set g.val ((s.lockCells[g]'g.isLt) || b)) : VaultEffect (.vaultLock g) s t where
  page p _ := by rw [hv]
  cell p hp := by
    have h' : g.val ≠ p.val := fun e => hp (by simp [ArrayWork.lockPage, Fin.ext e])
    simp [ht, h']
  clears p _ x := by simp [hv]
  locked p h := by
    by_cases hg : g = p
    · subst hg
      have h' : s.lockCells[g.val] = true := h
      simp [ht, h']
    · have hg' : g.val ≠ p.val := fun e => hg (Fin.ext e)
      simpa [ht, Vector.getElem_set, hg'] using h

/-- A program pulse only clears bits of a vault byte (R183). -/
theorem programVaultByte_clears (target : Byte) : ∀ (n : Nat) (v : Byte) (ps : List Byte),
    programVaultByte target n v ps &&& v = programVaultByte target n v ps
  | 0, v, _ => by simp [programVaultByte]
  | n + 1, v, ps => by
    simp only [programVaultByte]
    split
    · simp
    · have h := programVaultByte_clears target n (v &&& (target ||| ps.headD 0)) ps.tail
      rw [← h, BitVec.and_assoc, BitVec.and_assoc, BitVec.and_comm (target ||| ps.headD 0) v, ← BitVec.and_assoc v v,
        BitVec.and_self]

theorem cutVaultByte_clears (target : Byte) : ∀ (v : Byte) (ps : List Byte),
    cutVaultByte target v ps &&& v = cutVaultByte target v ps
  | v, [] => by simp [cutVaultByte]
  | v, p :: ps => by
    simp only [cutVaultByte]
    split
    · simp
    · have h := cutVaultByte_clears target (v &&& (target ||| p)) ps
      rw [← h, BitVec.and_assoc, BitVec.and_assoc, BitVec.and_comm (target ||| p) v, ← BitVec.and_assoc v v, BitVec.and_self]

theorem Worked.vault {s w : State} {c : Instr} (h : Worked s c w) :
    VaultEffect s.stepWork s w ∧ (c.vaultStep = false → w.vault = s.vault ∧ w.lockCells = s.lockCells) := by
  cases h with
  | none | programmed | erased => exact ⟨.of_eq rfl rfl, fun _ => ⟨rfl, rfl⟩⟩
  | vaultByte hc p g o b hw =>
    exact ⟨hw ▸ vaultEffect_byte rfl rfl (programVaultByte_clears _ _ _ _), fun h => by simp [hc] at h⟩
  | vaultErased hc r g hw => exact ⟨hw ▸ vaultEffect_erase rfl rfl, fun h => by simp [hc] at h⟩
  | locked hc b g hw => exact ⟨hw ▸ vaultEffect_lock rfl rfl, fun h => by simp [hc] at h⟩

theorem abandonStep_vault (s : State) (k : Cut) : VaultEffect s.stepWork s (s.abandonStep k) := by
  unfold State.abandonStep
  split
  · exact .of_eq rfl rfl
  · exact .of_eq rfl rfl
  · split <;> exact .of_eq rfl rfl
  · rename_i g o v hw
    exact hw ▸ vaultEffect_byte rfl rfl (cutVaultByte_clears _ _ _)
  · rename_i g hw
    split
    · exact hw ▸ vaultEffect_erase rfl rfl
    · exact .of_eq rfl rfl
  · rename_i g hw
    exact hw ▸ vaultEffect_lock rfl rfl

theorem VaultEffect.congr {w : ArrayWork} {s t u : State} (h : VaultEffect w s t) (hv : u.vault = t.vault)
    (hl : u.lockCells = t.lockCells) : VaultEffect w s u :=
  ⟨fun p hp => by rw [hv, h.page p hp], fun p hp => by rw [hl, h.cell p hp], fun p hp o => by rw [hv]; exact h.clears p hp o,
   fun p hp => by rw [hl]; exact h.locked p hp⟩

/-- Settles O10: the vault work of the step in progress, done or cut short, changes its page or its lock cell alone; no other row
touches either. -/
theorem onlyVaultStepsChangeTheVault : Obligations.OnlyVaultStepsChangeTheVault := by
  intro c s t h
  have heff : VaultEffect s.stepWork s t ∧ (c.vaultStep = false → c.cuts = false → t.vault = s.vault ∧ t.lockCells = s.lockCells) := by
    cases (exec_row h).storage with
    | kept ha hv hl => exact ⟨.of_eq hv hl, fun _ _ => ⟨hv, hl⟩⟩
    | worked hc hw ha hv hl =>
      obtain ⟨he, hk⟩ := hw.vault
      exact ⟨he.congr hv hl, fun h _ => ⟨hv.trans (hk h).1, hl.trans (hk h).2⟩⟩
    | cut hc k ha hv hl => exact ⟨(abandonStep_vault s k).congr hv hl, fun _ h => by simp [hc] at h⟩
  exact ⟨heff.2, fun p => ⟨heff.1.page p, heff.1.cell p, heff.1.clears p, heff.1.locked p⟩⟩

end Sys2Proof.Machine
end

section
/-! The guard's two copies (R175): WRITE GUARD, FORMAT and the recovery scan set them, and the settlement of O5. -/

namespace Sys2Proof.Machine

-- One proof after the other: the stacks of proofs elaborated side by side come near the memory that a check may take.
set_option Elab.async false

open Sys2Proof

/-! ### SESSION is never anchored -/

/-- An image holds no SESSION (R132). -/
theorem parseLockMode_ne_session {n : Nat} {m : LockMode} (h : parseLockMode n = some m) : m ≠ .session := by
  unfold parseLockMode at h
  split at h <;> simp at h <;> simp [← h]

theorem parseImage_lockMode {parts : List (List Byte)} {c : ImageContent} (h : parseImage parts = some c) :
    c.lockMode ≠ .session := by
  simp only [parseImage, Option.bind_eq_bind, Option.bind_eq_some_iff] at h
  obtain ⟨_, -, _, -, _, -, _, -, _, -, _, -, _, -, _, -, m, hm, f, -, h⟩ := h
  split at h
  · rw [Option.some.injEq] at h
    exact h ▸ parseLockMode_ne_session hm
  · cases h

/-- An image that an anchor segment holds has been parsed from its units (R134). -/
theorem imageAt_parsed {units : List (Option RawUnit)} {p : Nat} {f : FoundImage} (h : imageAt units p = some f) :
    ∃ parts, parseImage parts = some f.content := by
  unfold imageAt at h
  split at h
  · split at h
    · simp only [Option.map_eq_some_iff, Option.bind_eq_some_iff] at h
      obtain ⟨c, ⟨parts, -, hc⟩, rfl⟩ := h
      exact ⟨parts, hc⟩
    · cases h
  · cases h

theorem imageInForce_parsed {units : List (Option RawUnit)} {f : FoundImage} (h : imageInForce units = some f) :
    ∃ parts, parseImage parts = some f.content := by
  have hfold : ∀ (ps : List Nat) (best : Option FoundImage),
      (∀ f, best = some f → ∃ parts, parseImage parts = some f.content) →
      ∀ f, ps.foldl (fun best p => (imageAt units p).or best) best = some f → ∃ parts, parseImage parts = some f.content := by
    intro ps
    induction ps with
    | nil => exact fun best hb f h => hb f h
    | cons p ps ih =>
      refine fun best hb => ih _ fun f hf => ?_
      rcases Option.or_eq_some_iff.1 hf with hf | ⟨-, hf⟩
      · exact imageAt_parsed hf
      · exact hb f hf
  exact hfold _ none (by simp) f h

/-- The image in force of a valid anchor segment has been parsed from its units (R134). -/
theorem readAnchor_parsed {m : Memory} {seg : AnchorSeg} {a : AnchorRead} (h : readAnchor m seg = some a) :
    ∃ parts, parseImage parts = some a.inForce.content := by
  unfold readAnchor at h
  dsimp only at h
  split at h
  · rename_i z f hz hf
    rw [Option.some.injEq] at h
    exact h ▸ imageInForce_parsed hf
  · cases h

/-- What the first phase fixes comes from one valid anchor segment, or is the default (R145, R148). -/
theorem anchorPhase_cases (m : Memory) :
    anchorPhase m = Anchored.default ∨ ∃ seg a, readAnchor m seg = some a ∧ anchorPhase m = a.anchored seg := by
  unfold anchorPhase
  split
  · exact .inl rfl
  · rename_i a h _
    exact .inr ⟨0, a, h, rfl⟩
  · rename_i b _ h
    exact .inr ⟨1, b, h, rfl⟩
  · rename_i a b ha hb
    split
    · exact .inr ⟨1, b, hb, rfl⟩
    · exact .inr ⟨0, a, ha, rfl⟩

theorem anchorPhase_lockMode (m : Memory) : (anchorPhase m).lockMode ≠ .session := by
  rcases anchorPhase_cases m with h | ⟨seg, a, ha, h⟩
  · simp [h, Anchored.default]
  · obtain ⟨parts, hp⟩ := readAnchor_parsed ha
    rw [h]
    exact parseImage_lockMode hp

/-! ### The two copies agree -/

theorem Guard.agrees_iff {g : Guard} :
    g.agrees = true ↔ g.anchored ≠ .session ∧ (g.working = .session ∨ g.working = g.anchored) := by
  simp [Guard.agrees]

/-- WRITE GUARD anchors what it writes, but for SESSION (R178). -/
theorem Guard.agrees_written {g : Guard} (h : g.agrees = true) (m : LockMode) (l : Byte) (f : Bool) :
    (g.written m l f).agrees = true := by
  rw [Guard.agrees_iff] at h ⊢
  by_cases hm : m = .session <;> simp [Guard.written, hm, h.1]

theorem Guard.agrees_formatted (g : Guard) : g.formatted.agrees = true := by
  rw [Guard.agrees_iff]
  unfold Guard.formatted
  split
  · rename_i h
    simp [h]
  · simp [Guard.default]

theorem Anchored.guard_agrees {a : Anchored} (h : a.lockMode ≠ .session) (b : Bool) : (a.guard b).agrees = true := by
  rw [Guard.agrees_iff]
  cases b <;> simp [Anchored.guard, h]

theorem ActionAct.agrees {s t : State} (h : ActionAct s t) (hs : s.guard.agrees = true) : t.guard.agrees = true := by
  obtain ⟨p, e, n, g, w, h, rfl | ⟨m, l, f, rfl⟩, -⟩ := h.kept.kept <;> rw [h.guard]
  · exact hs
  · exact Guard.agrees_written hs m l f

theorem Worked.guard {s w : State} {c : Instr} (h : Worked s c w) : w.guard = s.guard := by cases h <;> rfl

/-- The completion of FORMAT gives the guard its value of R179, whether or not the engine finds work then. -/
theorem formatted_guard (s : State) (l : Ledger) : (s.formatted l).guard = s.guard.formatted :=
  (kept_endStep _ _).guard.trans rfl

theorem FormatKept.agrees {s t : State} (h : FormatKept s t) (hs : s.guard.agrees = true) : t.guard.agrees = true := by
  cases h with
  | inside h => rwa [h.guard]
  | ended h l =>
    rw [formatted_guard]
    exact Guard.agrees_formatted _

theorem Row.agrees {s t : State} {c : Instr} (h : Row s c t) (hs : s.guard.agrees = true) : t.guard.agrees = true := by
  cases h with
  | port c h => rwa [h.only.guard]
  | action c hp hu h ht => exact ht.only.guard ▸ h.agrees (hu.only.guard ▸ hs)
  | output c hu h ht => exact ht.only.guard ▸ h.kept.guard ▸ hu.only.guard ▸ hs
  | wake | wakeEnd => exact hs
  | softReset cut =>
    rw [Guard.agrees_iff]
    by_cases h : s.guard.working = .session <;> simp [State.softReset, Guard.default, h]
  | powerLoss | powerOn => rfl
  | recovered =>
    rw [(kept_recovered s).guard]
    exact Anchored.guard_agrees (anchorPhase_lockMode _) _
  | step hp hr h =>
    obtain ⟨w, hw, hk⟩ := h.worked hr
    rwa [(hk.trans (kept_evalPool _ _)).guard, hw.guard]
  | format hp hr h =>
    obtain ⟨w, hw, hk⟩ := h.worked hr
    exact hk.agrees (hw.guard ▸ hs)

/-- Settles O5: only WRITE GUARD, the completions of FORMAT and of recovery, and the resets write the guard, each to two copies that
agree. -/
theorem stepKeepsGuardAgreement : Obligations.StepKeepsGuardAgreement := by
  intro s t hs h
  rcases step_cases h with rfl | ⟨c, rest, -, h⟩
  · exact hs
  · exact (exec_row h).agrees hs

end Sys2Proof.Machine
end

section
/-! The engine through the operations and the ends of steps (R108 to R112, R126 to R128): it stays sound, and goes IDLE only where no
work waits. The settlement of O6. -/

namespace Sys2Proof.Machine

-- One proof after the other: the stacks of proofs elaborated side by side come near the memory that a check may take.
set_option Elab.async false

open Sys2Proof

/-! ### The engine through the operations of streams, segments, ledger and sync point -/

section Engine

variable (s : State)

@[simp] theorem State.evalHeld_engine (i : StreamId) : (s.evalHeld i).engine = s.engine := (stays_evalHeld s i).1.engine
@[simp] theorem State.evalSync_engine : s.evalSync.engine = s.engine := (stays_evalSync s).1.engine
@[simp] theorem State.faultStream_engine (i : StreamId) : (s.faultStream i).engine = s.engine := (stays_faultStream s i).1.engine

@[simp] theorem State.evalUnread_engine (i : StreamId) : (s.evalUnread i).engine = s.engine := by
  unfold State.evalUnread
  dsimp only
  split <;> rfl

@[simp] theorem State.evalPool_engine (n : Int) : (s.evalPool n).engine = s.engine := by
  unfold State.evalPool
  dsimp only
  split
  · rfl
  · split <;> rfl

@[simp] theorem State.releaseAll_engine : ∀ (ks : List DataSeg) (s : State), (s.releaseAll ks).engine = s.engine
  | [], _ => rfl
  | _ :: ks, _ => (State.releaseAll_engine ks _).trans rfl

@[simp] theorem State.releaseCovered_engine (i : StreamId) : (s.releaseCovered i).engine = s.engine := by
  unfold State.releaseCovered
  dsimp only
  split
  · rfl
  · simp

@[simp] theorem State.dispose_engine (k : DataSeg) : (s.dispose k).engine = s.engine := by
  unfold State.dispose
  split <;> rfl

@[simp] theorem State.disposeAll_engine : ∀ (ks : List DataSeg) (s : State),
    (ks.foldl (fun s k => s.dispose k) s).engine = s.engine
  | [], _ => rfl
  | k :: ks, s => (State.disposeAll_engine ks _).trans (s.dispose_engine k)

@[simp] theorem State.handOn_engine (b : Bool) (r : Recorded) : (s.handOn b r).engine = s.engine := by
  simp [State.handOn]

@[simp] theorem State.completeImage_engine (c : Captured) : (s.completeImage c).engine = s.engine := by
  simp [State.completeImage]

@[simp] theorem State.captureImage_engine (c : Captured) : (s.captureImage c).engine = s.engine := rfl

@[simp] theorem State.beginImage_engine : s.beginImage.engine = s.engine := by
  unfold State.beginImage
  split <;> rfl

@[simp] theorem State.moveTo_engine (a : AnchorSeg) : (s.moveTo a).engine = s.engine := rfl
@[simp] theorem State.countAnchorErase_engine (a : AnchorSeg) : (s.countAnchorErase a).engine = s.engine := rfl
@[simp] theorem State.haltLedger_engine : s.haltLedger.engine = s.engine := rfl
@[simp] theorem State.enterCount_engine (k : DataSeg) (n : Nat) (ok : Bool) : (s.enterCount k n ok).engine = s.engine := rfl
@[simp] theorem State.endRetire_engine (k : DataSeg) (e ok : Bool) : (s.endRetire k e ok).engine = s.engine := rfl
@[simp] theorem State.joinChain_engine (e : Entry) (k : DataSeg) : (s.joinChain e k).engine = s.engine := rfl
@[simp] theorem State.placeAwaiting_engine (i : StreamId) : (s.placeAwaiting i).engine = s.engine := rfl
@[simp] theorem State.stage_engine (i : StreamId) (g : Byte) (d : List Byte) (p : Placement) :
    (s.stage i g d p).engine = s.engine := rfl
@[simp] theorem State.releaseReset_engine (i : StreamId) (ks : List DataSeg) (n : Nat) :
    (s.releaseReset i ks n).engine = s.engine := by
  unfold State.releaseReset
  rfl

@[simp] theorem State.formatTake_engine (k : DataSeg) : (s.formatTake k).engine = s.engine := rfl

@[simp] theorem State.formatNext_engine : ∀ (ks : List DataSeg) (s : State), (s.formatNext ks).1.engine = s.engine
  | [], _ => rfl
  | k :: ks, s => by
    unfold State.formatNext
    split
    · exact State.formatNext_engine ks s
    · split
      · exact (State.formatNext_engine ks _).trans rfl
      · rfl

@[simp] theorem State.sealIf_engine (i : StreamId) (q : Nat) : (s.sealIf i q).engine = s.engine := by
  unfold State.sealIf
  split <;> rfl

@[simp] theorem State.dropIf_engine (i : StreamId) (d : Option DataSeg) : (s.dropIf i d).engine = s.engine := by
  unfold State.dropIf State.dropSegment
  split
  · dsimp only
    split <;> rfl
  · rfl

end Engine

/-! ### Sound engines -/

/-- A preempted RECLAIM has 1 to 11 pulses behind it (R126). -/
def SlotOk (slot : Option (DataSeg × Nat)) : Prop := ∀ k n, slot = some (k, n) → 1 ≤ n ∧ n ≤ 11

/-- The engine is sound, and IDLE only where no work waits: what `engineSound` says of the ACTIVE power state. -/
structure EngineOk (s : State) : Prop where
  sound : s.engine.sound = true
  noWork : s.engine.state = .idle → s.noWork = true

theorem EngineOk.engineSound {s : State} (h : EngineOk s) (hp : s.power = .active) : s.engineSound = true := by
  have := h.noWork
  simp only [State.engineSound, h.sound, hp, Bool.true_and, Bool.and_eq_true, Bool.or_eq_true]
  simp only [bne_iff_ne, Bool.not_eq_true', beq_self_eq_true, true_or, true_and]
  tauto

theorem EngineOk.of_engineSound {s : State} (h : s.engineSound = true) (hp : s.power.holds = true) : EngineOk s := by
  simp only [State.engineSound, hp, Bool.and_eq_true, Bool.or_eq_true] at h
  obtain ⟨⟨h1, -⟩, h2⟩ := h
  exact ⟨h1, fun hi => by simpa [hi] using h2⟩

/-- The soundness of the engine depends on engine, staging buffer, reclaim queue and ledger alone. -/
theorem EngineOk.congr {s t : State} (h : EngineOk s) (he : t.engine = s.engine) (hs : t.staging = s.staging)
    (hr : t.reclaim = s.reclaim) (hl : t.ledger = s.ledger) : EngineOk t :=
  ⟨he ▸ h.sound, fun hi => by simpa [State.noWork, he, hs, hr, hl] using h.noWork (he ▸ hi)⟩

theorem EngineOk.of_running {s : State} (h : s.engine.sound = true) (hs : s.engine.state ≠ .idle) : EngineOk s :=
  ⟨h, fun hi => absurd hi hs⟩

/-- The three clauses of a sound engine. -/
theorem Engine.sound_iff {e : Engine} : e.sound = true ↔
    (e.state = .idle ↔ e.job = none)
      ∧ (e.state = .idle ∨ e.state = .running ∨ (∃ c, e.job = some (.commit c)) ∨ ∃ k p, e.job = some (.reclaim k p))
      ∧ SlotOk e.preempted ∧ (e.preempted ≠ none → e.job ≠ none ∧ ∀ k p, e.job ≠ some (.reclaim k p)) := by
  obtain ⟨st, job, slot, l⟩ := e
  unfold Engine.sound SlotOk
  rcases job with _ | ⟨_⟩ | ⟨_⟩ | ⟨_, _⟩ | ⟨_⟩ | ⟨_, _⟩ <;> rcases slot with _ | ⟨k, n⟩ <;> simp
  all_goals grind

theorem Engine.sound_slot {e : Engine} (h : e.sound = true) : SlotOk e.preempted := (Engine.sound_iff.1 h).2.2.1

/-- An engine with a COMMIT job is sound in every state but IDLE. -/
theorem Engine.sound_commit {e : Engine} {c : CommitStep} (hi : e.state ≠ .idle) (hj : e.job = some (.commit c))
    (hs : SlotOk e.preempted) : e.sound = true :=
  Engine.sound_iff.2 ⟨by simp [hi, hj], .inr (.inr (.inl ⟨c, hj⟩)), hs, by simp [hj]⟩

/-- A RUNNING engine is sound with any job, but that a RECLAIM leaves no slot taken. -/
theorem Engine.sound_running {e : Engine} {j : Job} (hr : e.state = .running) (hj : e.job = some j) (hs : SlotOk e.preempted)
    (hk : ∀ k p, j = .reclaim k p → e.preempted = none) : e.sound = true :=
  Engine.sound_iff.2 ⟨by simp [hr, hj], .inr (.inl hr), hs, fun h => ⟨by simp [hj], fun k p e' => h (hk k p (by simpa [hj] using e'))⟩⟩

/-- Jobs of one kind, for what a sound engine asks of them. -/
def Job.likeJob : Job → Job → Prop
  | .commit _, .commit _ => True
  | .reclaim _ _, .reclaim _ _ => True
  | .ledger _, .ledger _ => True
  | .vault _, .vault _ => True
  | .format _ _, .format _ _ => True
  | _, _ => False

/-- The next step of a job leaves a sound engine sound. -/
theorem Engine.sound_setJob {e : Engine} {j j' : Job} {l : Bool} (h : e.sound = true) (hj : e.job = some j) (hk : j.likeJob j') :
    Engine.sound { e with job := some j', resumeLock := l } = true := by
  rw [Engine.sound_iff] at h ⊢
  cases j <;> cases j' <;> simp_all [Job.likeJob, SlotOk]
  all_goals tauto

/-! ### Selection (R111) -/

/-- A selection leaves a sound engine, IDLE only where no work waits. -/
theorem State.Selected.engineOk {t : State} {slot : Option (DataSeg × Nat)} (h : t.Selected slot) (hs : SlotOk slot) :
    EngineOk t := by
  cases ht : t.ledger.trigger
  · cases hst : t.staging
    · rcases hsl : slot with _ | ⟨k, n⟩
      · cases hr : t.reclaim
        · obtain ⟨h1, h2, h3⟩ := h.idle ht hst hsl hr
          exact ⟨Engine.sound_iff.2 ⟨by simp [h1, h3], .inl h1, by simp [SlotOk, h2], by simp [h2]⟩,
            fun _ => by simp [State.noWork, hst, hr, h2, ht]⟩
        · obtain ⟨h1, h2, h3⟩ := h.reclaim ht hst hsl _ _ hr
          exact .of_running (Engine.sound_running h1 h3 (by simp [SlotOk, h2]) fun _ _ _ => h2) (by simp [h1])
      · obtain ⟨h1, h2, h3⟩ := h.preempted ht hst k n hsl
        exact .of_running (Engine.sound_running h1 h3 (by simp [SlotOk, h2]) fun _ _ _ => h2) (by simp [h1])
    · obtain ⟨h1, h2, e, rest, hes, hc, ha, hn⟩ := h.commit ht (by simp [hst])
      have hj : ∃ c, t.engine.job = some (.commit c) := by
        cases hp : e.placement
        · exact ⟨_, hc hp⟩
        · exact ⟨_, (hn hp).2⟩
        · exact ⟨_, (ha hp).2⟩
      obtain ⟨c, hj⟩ := hj
      exact .of_running (Engine.sound_commit (by simp [h1]) hj (h2 ▸ hs)) (by simp [h1])
  · obtain ⟨h1, h2, w, -, hj⟩ := h.ledger ht
    exact .of_running (Engine.sound_running h1 hj (h2 ▸ hs) (by simp)) (by simp [h1])

theorem engineOk_select {s : State} (h : SlotOk s.engine.preempted) : EngineOk s.select := (select_selected s).engineOk h

/-- A frame's selection leaves a sound engine, whatever work the frame has created. -/
theorem engineOk_selectIfIdle {s : State} (h : s.engine.sound = true) : EngineOk s.selectIfIdle := by
  unfold State.selectIfIdle
  split
  · exact engineOk_select (Engine.sound_slot h)
  · rename_i hi
    exact .of_running h hi

/-! ### The ends of steps (R111, R112, R114) -/

/-- The end of a step that has completed its job is a selection. -/
theorem endStep_selected (s : State) : (s.endStep .completed).Selected s.engine.preempted := select_selected _

theorem engineOk_completed {s : State} (h : SlotOk s.engine.preempted) : EngineOk (s.endStep .completed) :=
  (endStep_selected s).engineOk h

/-- The state once a step has cleared the resume lock (R129). -/
theorem endStep_inside (s : State) :
    s.endStep .inside = { s with engine := { s.engine with resumeLock := false } } := rfl

theorem runs_iff {e : Engine} : e.runs = true ↔ e.state = .running ∨ e.state = .suspendPending := by
  simp [Engine.runs]

theorem not_idle_of_runs {e : Engine} (h : e.runs = true) : e.state ≠ .idle := by
  rcases runs_iff.1 h with h | h <;> simp [h]

/-- A step that goes on with its job. -/
theorem engineOk_inside {s u : State} {j j' : Job} (hs : s.engine.sound = true) (hr : s.engine.runs = true)
    (hj : s.engine.job = some j) (hk : j.likeJob j') (hu : u.engine = s.engine) :
    EngineOk ((u.setJob j').endStep .inside) := by
  rw [endStep_inside]
  refine .of_running ?_ ?_
  · have := Engine.sound_setJob (l := false) hs hj hk
    simpa [State.setJob, hu] using this
  · simpa [State.setJob, hu] using not_idle_of_runs hr

/-- A step that leaves the job as it is. -/
theorem engineOk_same {s u : State} (hs : s.engine.sound = true) (hr : s.engine.runs = true) (hu : u.engine = s.engine) :
    EngineOk (u.endStep .inside) := by
  rw [endStep_inside]
  refine .of_running ?_ (hu ▸ not_idle_of_runs hr)
  rw [hu]
  exact hs

/-- Giving way at a boundary (R112). -/
theorem engineOk_yield {s : State} (hs : s.engine.sound = true) (hi : s.engine.state ≠ .idle)
    (hn : ∀ k n, s.engine.job = some (.reclaim k (.pulse n)) → 1 ≤ n ∧ n ≤ 11) : EngineOk s.yield := by
  unfold State.yield
  split
  · split
    · exact engineOk_select (s := s.idle) (show SlotOk s.engine.preempted from Engine.sound_slot hs)
    · exact .of_running hs hi
  · rename_i k n hj
    split
    · refine engineOk_select fun k' n' e => ?_
      simp only [Option.some.injEq, Prod.mk.injEq] at e
      obtain ⟨rfl, rfl⟩ := e
      exact hn k n hj
    · exact .of_running hs hi
  · exact .of_running hs hi

/-- The end of a step at a boundary of a COMMIT or a RECLAIM job. -/
theorem engineOk_boundary {s : State} (hs : s.engine.sound = true) (hr : s.engine.runs = true)
    (hn : ∀ k n, s.engine.job = some (.reclaim k (.pulse n)) → 1 ≤ n ∧ n ≤ 11) : EngineOk (s.endStep .boundary) := by
  have hl : Engine.sound { s.engine with resumeLock := false } = true := hs
  unfold State.endStep
  dsimp only
  split
  · rename_i hp
    refine .of_running ?_ (by simp)
    rw [Engine.sound_iff] at hl ⊢
    simp_all
  · exact engineOk_yield hl (not_idle_of_runs hr) hn

/-- The COMMIT job has decided a step wherever something is staged. -/
theorem State.CommitDecided.job {t : State} (h : t.CommitDecided) : ∃ c, t.engine.job = some (.commit c) := by
  obtain ⟨e, rest, -, hc, ha, hn⟩ := h
  cases hp : e.placement
  · exact ⟨_, hc hp⟩
  · exact ⟨_, (hn hp).2⟩
  · exact ⟨_, (ha hp).2⟩

/-- The end of a COMMIT step at a record boundary (R114). -/
theorem engineOk_endRecord {s : State} (hs : SlotOk s.engine.preempted) (hr : s.engine.runs = true) : EngineOk s.endRecord := by
  have h := reached_reachHead s
  unfold State.endRecord
  dsimp only
  split
  · exact engineOk_completed (h.preempted ▸ hs)
  · rename_i he
    obtain ⟨c, hj⟩ := (h.decided (by simpa using he)).job
    have hr' : s.reachHead.engine.runs = true := by rw [runs_iff, h.state]; exact runs_iff.1 hr
    exact engineOk_boundary (Engine.sound_commit (not_idle_of_runs hr') hj (h.preempted ▸ hs)) hr' (by simp [hj])

/-! ### The steps of the jobs -/

section Steps

variable {s u : State}

theorem engineOk_continueOpening {c : CommitStep} (hs : s.engine.sound = true) (hr : s.engine.runs = true)
    (hj : s.engine.job = some (.commit c)) (hu : u.engine = s.engine) (e : Entry) : EngineOk (u.continueOpening e) := by
  unfold State.continueOpening
  split
  · exact engineOk_inside hs hr hj trivial hu
  · exact engineOk_endRecord (by simpa [hu] using Engine.sound_slot hs) (by simpa [hu] using hr)

theorem engineOk_withdraw {c : CommitStep} (hs : s.engine.sound = true) (hr : s.engine.runs = true)
    (hj : s.engine.job = some (.commit c)) (hu : u.engine = s.engine) (p : DataSeg) : EngineOk (u.withdraw p) :=
  engineOk_inside hs hr hj trivial (u := State.retire p { u with pool := u.pool.tail }) hu

theorem engineOk_opened {c : CommitStep} (hs : s.engine.sound = true) (hr : s.engine.runs = true)
    (hj : s.engine.job = some (.commit c)) (hu : u.engine = s.engine) (e : Entry) (p : DataSeg) : EngineOk (u.opened e p) := by
  unfold State.opened
  dsimp only
  refine engineOk_inside hs hr hj trivial ?_
  split <;> simp [hu]

theorem engineOk_recordStep {c : CommitStep} (hs : s.engine.sound = true) (hr : s.engine.runs = true)
    (hj : s.engine.job = some (.commit c)) (p : Pulses) (e : Entry) (k : DataSeg) : EngineOk (s.recordStep p e k) := by
  unfold State.recordStep
  dsimp only
  split
  · unfold State.committed
    exact engineOk_endRecord (by simpa using Engine.sound_slot hs) (by simpa using hr)
  · unfold State.recordFailed
    exact engineOk_inside hs hr hj trivial (by simp)

theorem engineOk_reclaimPulse {k : DataSeg} {n : Nat} (hs : s.engine.sound = true) (hr : s.engine.runs = true)
    (hj : s.engine.job = some (.reclaim k (.pulse n))) (r : Residue) : EngineOk (s.reclaimPulse r k n) := by
  unfold State.reclaimPulse
  dsimp only
  generalize hph : State.afterPulse _ k n = phase
  cases phase with
  | pulse m =>
    have hm : 1 ≤ m ∧ m ≤ 11 := by
      unfold State.afterPulse Config.erasePulses at hph
      split at hph
      · cases hph
      · split at hph
        · cases hph
        · rw [ErasePhase.pulse.injEq] at hph
          omega
    refine engineOk_boundary ?_ hr fun k' n' h => ?_
    · exact Engine.sound_setJob (l := s.engine.resumeLock) hs hj trivial
    · simp only [State.setJob, Option.some.injEq, Job.reclaim.injEq, ErasePhase.pulse.injEq] at h
      omega
  | freeStage c => exact engineOk_inside hs hr hj trivial (by simp)
  | retire c b => exact engineOk_inside hs hr hj trivial (by simp)

theorem engineOk_chooseAgain {w : LedgerWork} (hs : s.engine.sound = true) (hr : s.engine.runs = true)
    (hj : s.engine.job = some (.ledger w)) (hu : u.engine = s.engine) : EngineOk u.chooseAgain := by
  unfold State.chooseAgain
  split
  · exact engineOk_inside hs hr hj trivial hu
  · exact engineOk_completed (hu ▸ Engine.sound_slot hs)

theorem engineOk_attemptFailed {w : LedgerWork} (hs : s.engine.sound = true) (hr : s.engine.runs = true)
    (hj : s.engine.job = some (.ledger w)) (hu : u.engine = s.engine) (a : AnchorSeg) (n : Nat) :
    EngineOk (u.attemptFailed a n) := by
  unfold State.attemptFailed
  split
  · exact engineOk_inside hs hr hj trivial hu
  · exact engineOk_completed (by simpa [hu] using Engine.sound_slot hs)

theorem engineOk_imageUnit {w : LedgerWork} (hs : s.engine.sound = true) (hr : s.engine.runs = true)
    (hj : s.engine.job = some (.ledger w)) (p : Pulses) : EngineOk (s.imageUnit p) := by
  unfold State.imageUnit
  dsimp only
  split
  · split
    · exact engineOk_same hs hr (by simp)
    · exact engineOk_chooseAgain hs hr hj (by simp)
  · exact engineOk_inside hs hr hj trivial (by simp)

theorem engineOk_compactUnit {w : LedgerWork} (hs : s.engine.sound = true) (hr : s.engine.runs = true)
    (hj : s.engine.job = some (.ledger w)) (hu : u.engine = s.engine) (v : ArrayWork) (p : Pulses) (a : AnchorSeg) (n : Nat) :
    EngineOk (u.compactUnit v p a n) := by
  unfold State.compactUnit
  dsimp only
  split
  · split
    · exact engineOk_inside hs hr hj trivial (by simp [hu])
    · exact engineOk_chooseAgain hs hr hj (by simp [hu])
  · exact engineOk_attemptFailed hs hr hj (by simp [hu]) a n

theorem engineOk_ledgerUnit {w : LedgerWork} (hs : s.engine.sound = true) (hr : s.engine.runs = true)
    (hj : s.engine.job = some (.ledger w)) (hw : w.isImage = true) (p : Pulses) : EngineOk (s.ledgerUnit p w) := by
  cases w with
  | image => exact engineOk_imageUnit hs hr hj p
  | compactCapture a n => exact engineOk_compactUnit hs hr hj (by simp) _ p a n
  | compactImage a n => exact engineOk_compactUnit hs hr hj (by rfl) _ p a n
  | note i => cases hw
  | compactErase a m n => cases hw

theorem engineOk_noteUnitStep {w : LedgerWork} (hs : s.engine.sound = true) (hr : s.engine.runs = true)
    (hj : s.engine.job = some (.ledger w)) (p : Pulses) (i : StreamId) : EngineOk (s.noteUnitStep p i) := by
  unfold State.noteUnitStep
  dsimp only
  split
  · exact engineOk_chooseAgain hs hr hj (by simp)
  · exact engineOk_inside hs hr hj trivial (by simp)

theorem engineOk_compactPulse {w : LedgerWork} (hs : s.engine.sound = true) (hr : s.engine.runs = true)
    (hj : s.engine.job = some (.ledger w)) (r : Residue) (a : AnchorSeg) (m n : Nat) : EngineOk (s.compactPulse r a m n) := by
  unfold State.compactPulse
  dsimp only
  split
  · exact engineOk_inside hs hr hj trivial (by simp)
  · split
    · exact engineOk_completed (by simpa using Engine.sound_slot hs)
    · exact engineOk_inside hs hr hj trivial (by rfl)

/-- Every step of a job other than FORMAT leaves a sound engine, IDLE only where no work waits. -/
theorem StepAct.engineOk {c : Instr} (hs : s.engine.sound = true) (hr : s.engine.runs = true) (h : StepAct s c u) :
    EngineOk u := by
  have hslot := Engine.sound_slot hs
  cases h with
  | sealOpen p e es k hj => exact engineOk_inside hs hr hj trivial (by simp)
  | freeStage p k ks hj =>
    unfold State.openFreeStage
    dsimp only
    split
    · exact engineOk_inside hs hr hj trivial (by simp)
    · exact engineOk_withdraw hs hr hj (by simp) k
  | openStage p e es k ks hj =>
    unfold State.openStep
    dsimp only
    split
    · exact engineOk_opened hs hr hj (by simp) e k
    · exact engineOk_withdraw hs hr hj (by simp) k
  | openRetire p e es k hj => exact engineOk_continueOpening hs hr hj (by simp) e
  | record p e es k hj => exact engineOk_recordStep hs hr hj p e k
  | close p e es k hj => exact engineOk_continueOpening hs hr hj (by simp) e
  | reclaimPulse r k n hj => exact engineOk_reclaimPulse hs hr hj r
  | reclaimFreeStage p k n hj =>
    unfold State.reclaimFreeStage
    dsimp only
    split
    · exact engineOk_completed (by simpa using hslot)
    · exact engineOk_inside hs hr hj trivial (by simp)
  | reclaimRetire p k d b hj => exact engineOk_completed (by simpa using hslot)
  | image p w hj hw => exact engineOk_ledgerUnit hs hr hj hw p
  | note p i hj => exact engineOk_noteUnitStep hs hr hj p i
  | compactPulse r a m n hj => exact engineOk_compactPulse hs hr hj r a m n
  | vaultByte p g o b bs hj =>
    unfold State.vaultByteStep
    dsimp only
    split
    · exact engineOk_completed hslot
    · exact engineOk_inside hs hr hj trivial (by rfl)
  | vaultPulse r g n hj =>
    unfold State.vaultPulse
    dsimp only
    split
    · exact engineOk_completed hslot
    · exact engineOk_inside hs hr hj trivial (by rfl)
  | vaultLock b g hj => exact engineOk_completed hslot

/-! ### FORMAT steps -/

theorem engineOk_formatOn {b : Bool} {w : FormatWork} (hs : s.engine.sound = true) (hr : s.engine.runs = true)
    (hj : s.engine.job = some (.format b w)) (hu : u.engine = s.engine) (b' : Bool) (w' : FormatWork) :
    EngineOk (u.formatOn b' w') := by
  unfold State.formatOn
  dsimp only
  refine engineOk_inside hs hr hj trivial ?_
  split <;> simp [hu]

theorem engineOk_formatAfter {b : Bool} {w : FormatWork} (hs : s.engine.sound = true) (hr : s.engine.runs = true)
    (hj : s.engine.job = some (.format b w)) (hu : u.engine = s.engine) (k : DataSeg) : EngineOk (u.formatAfter k) :=
  engineOk_inside hs hr hj trivial (by simp [hu])

theorem engineOk_formatted (hs : SlotOk u.engine.preempted) (l : Ledger) : EngineOk (u.formatted l) :=
  engineOk_completed hs

theorem engineOk_anchorPulse {b : Bool} {w : FormatWork} (hs : s.engine.sound = true) (hr : s.engine.runs = true)
    (hj : s.engine.job = some (.format b w)) (r : Residue) (b' : Bool) (a : AnchorSeg) (n : Nat) (passed again : FormatWork) :
    EngineOk (s.anchorPulse r b' a n passed again) := by
  unfold State.anchorPulse
  dsimp only
  split
  · exact engineOk_formatOn hs hr hj (by simp) _ _
  · split
    · exact engineOk_formatted (by split <;> simpa using Engine.sound_slot hs) _
    · exact engineOk_formatOn hs hr hj (by rfl) _ _

theorem engineOk_formatUnit {b : Bool} {w : FormatWork} (hs : s.engine.sound = true) (hr : s.engine.runs = true)
    (hj : s.engine.job = some (.format b w)) (hu : u.engine = s.engine) (v : ArrayWork) (p : Pulses) (n : Nat) :
    EngineOk (u.formatUnit v p n) := by
  have hretry : ∀ n, EngineOk ((u.programmed v p).formatRetry n) := fun n => engineOk_formatOn hs hr hj (by simp [hu]) _ _
  unfold State.formatUnit State.formatAttemptFailed
  dsimp only
  split
  · split
    · exact engineOk_formatOn hs hr hj (by simp [hu]) _ _
    · split
      · exact engineOk_formatted (by simpa [hu] using Engine.sound_slot hs) _
      · exact hretry n
  · split
    · exact hretry 2
    · exact engineOk_formatted (by simpa [hu] using Engine.sound_slot hs) _

/-- Every FORMAT step leaves a sound engine, IDLE only where no work waits. -/
theorem FormatAct.engineOk {c : Instr} (hs : s.engine.sound = true) (hr : s.engine.runs = true) (h : FormatAct s c u) :
    EngineOk u := by
  cases h with
  | pulse r b k n hj => exact engineOk_formatOn hs hr hj (by simp) _ _
  | freeStage p b k n hj =>
    unfold State.formatFreeStage
    dsimp only
    split
    · exact engineOk_formatAfter hs hr hj (by simp) k
    · exact engineOk_formatOn hs hr hj (by simp) _ _
  | retire p b k d e hj => exact engineOk_formatAfter hs hr hj (by simp) k
  | anchorPulse r b w hj hw =>
    cases w with
    | anchorErase n => exact engineOk_anchorPulse hs hr hj r b 1 n _ _
    | compactErase a n => exact engineOk_anchorPulse hs hr hj r b 0 n _ _
    | segment k phase => cases hw
    | compactCapture a => cases hw
    | compactImage a => cases hw
  | image p b w hj hw =>
    unfold State.formatImageUnit
    cases w with
    | compactCapture a => exact engineOk_formatUnit (u := s.captureImage s.formatCapture) hs hr hj rfl _ p a
    | compactImage a => exact engineOk_formatUnit (u := s) hs hr hj rfl _ p a
    | segment k phase => cases hw
    | anchorErase n => cases hw
    | compactErase a n => cases hw

end Steps

/-! ### The actions of the frames -/

section Actions

variable {s t : State}

theorem engineOk_evalHeld (h : EngineOk s) (i : StreamId) : EngineOk (s.evalHeld i) :=
  have he := stays_evalHeld s i
  h.congr he.1.engine he.2 he.1.reclaim he.1.ledger

theorem engineOk_evalUnread (h : EngineOk s) (i : StreamId) : EngineOk (s.evalUnread i) := by
  unfold State.evalUnread
  dsimp only
  split <;> exact h.congr rfl rfl rfl rfl

theorem engineOk_evalPool (h : EngineOk s) (n : Int) : EngineOk (s.evalPool n) := by
  unfold State.evalPool
  dsimp only
  split
  · exact h
  · split <;> exact h.congr rfl rfl rfl rfl

theorem Engine.sound_rechoose {s : State} (h : s.engine.sound = true) (i : StreamId) : (s.rechoose i).engine.sound = true := by
  unfold State.rechoose
  split
  · rename_i hj
    split
    · exact Engine.sound_setJob (l := s.engine.resumeLock) h hj trivial
    · exact h
  · exact h

theorem engineOk_moveCursor (h : EngineOk s) (i : StreamId) (q : Nat) : EngineOk (s.moveCursor i q) := by
  unfold State.moveCursor
  split
  · exact h
  · exact engineOk_evalUnread (h.congr (t := s.updStream i _) rfl rfl rfl rfl) i

/-- A job that starts on an IDLE engine. -/
theorem engineOk_run {j : Job} (h : s.engine.sound = true) (hi : s.engine.state = .idle) : EngineOk (s.run j) := by
  obtain ⟨hn, -, -, hslot⟩ := Engine.sound_iff.1 h
  have hp : s.engine.preempted = none := by
    by_contra hp
    exact (hslot hp).1 (hn.1 hi)
  exact .of_running (Engine.sound_running rfl rfl (by simp [State.run, SlotOk, hp]) fun _ _ _ => hp) (by simp [State.run])

/-- Every action of a frame leaves a sound engine, IDLE only where no work waits. -/
theorem ActionAct.engineOk (hs : EngineOk s) (h : ActionAct s t) : EngineOk t := by
  have hse := hs.sound
  cases h with
  | nothing => exact hs
  | clearEvents | setEnable | quotaFull | poolEmpty | pop | doze => exact hs.congr rfl rfl rfl rfl
  | configure | move | deviceConfig => exact engineOk_selectIfIdle hse
  | resetStream i =>
    unfold State.resetStream
    refine engineOk_evalPool (engineOk_selectIfIdle ?_) _
    rw [State.evalSync_engine]
    change (State.rechoose i _).engine.sound = true
    exact Engine.sound_rechoose (by simpa using hse) i
  | appendCurrent => exact engineOk_selectIfIdle (by simpa using hse)
  | appendNew i tag payload drop =>
    have hsel := engineOk_evalHeld (engineOk_selectIfIdle (s := State.sealIf i (s.streams[i]'i.isLt).nextSeq (State.stage i tag payload .new
      ((s.updStream i fun t => { t with reserved := t.reserved + 1 }).dropIf i drop))) (by simpa using hse)) i
    unfold State.acceptNew
    refine engineOk_evalPool ?_ _
    split
    · exact hsel
    · exact engineOk_evalUnread hsel i
  | sync => exact engineOk_selectIfIdle (by simpa using hse)
  | ack i q =>
    unfold State.acknowledge
    refine engineOk_selectIfIdle ?_
    split <;> simpa using hse
  | push i =>
    unfold State.pushMark
    dsimp only
    split <;> exact hs.congr rfl rfl rfl rfl
  | rewind i q => exact engineOk_moveCursor hs i q
  | rewindPop i q => exact (engineOk_moveCursor hs i q).congr rfl rfl rfl rfl
  | suspend h =>
    obtain ⟨hr, hj⟩ := Engine.suspendable_iff.1 h
    refine .of_running ?_ (by simp)
    rw [Engine.sound_iff] at hse ⊢
    simp_all
  | resume l h =>
    refine .of_running ?_ (by simp)
    rw [Engine.sound_iff] at hse ⊢
    rcases h with h | h <;> simp_all
  | format hi => exact engineOk_run (s := { s with sync := none }) hse hi
  | writeGuard m l f =>
    unfold State.writeGuard
    dsimp only
    split
    · exact engineOk_selectIfIdle hse
    · exact hs.congr rfl rfl rfl rfl
  | vault w hi => exact engineOk_run hse hi

theorem OutputAct.engineSound (h : OutputAct s t) : t.engineSound = s.engineSound := by
  cases h with
  | nothing | clearNotices => rfl
  | advance =>
    unfold State.evalUnread
    dsimp only
    split <;> rfl

end Actions

/-! ### Every row -/

theorem PortOnly.engineSound {s t : State} (h : PortOnly s t) : t.engineSound = s.engineSound := by
  simp only [State.engineSound, State.noWork, h.engine, h.power, h.staging, h.reclaim, h.ledger]

/-- Where no power state of the working device holds, the engine is IDLE with nothing in its slot. -/
theorem idle_of_engineSound {s : State} (h : s.engineSound = true) (hp : s.power ≠ .active) :
    s.engine.sound = true ∧ s.engine.state = .idle := by
  simp only [State.engineSound, Bool.and_eq_true, Bool.or_eq_true, beq_iff_eq, hp, false_or] at h
  exact h.1

theorem engineOk_recovered {s : State} (h : s.engine.sound = true) : EngineOk s.recovered := by
  unfold State.recovered
  refine engineOk_select ?_
  have he : ∀ u : State, ∀ a b : Bool, (u.recoveryEvents a b).engine = u.engine := by
    intro u a b
    unfold State.recoveryEvents State.raiseIf
    split <;> split <;> rfl
  simpa [State.setAllSides, State.setPoolSide, he, State.rebuild] using Engine.sound_slot h

theorem engineSound_idle {s : State} (he : s.engine = Engine.reset) (hp : s.power.holds = false) : s.engineSound = true := by
  simp [State.engineSound, he, hp, Engine.sound, Engine.reset]

theorem Row.engineSound {s t : State} {c : Instr} (h : Row s c t) (hs : s.engineSound = true) : t.engineSound = true := by
  cases h with
  | port c h => rwa [h.only.engineSound]
  | @action c u v _ hp hu h ht =>
    rw [ht.only.engineSound]
    have hu' : u.engineSound = true := by rwa [hu.only.engineSound]
    have hup : u.power = .active := hu.only.power.trans hp
    have hv := h.engineOk (.of_engineSound hu' (by simp [hup, PowerState.holds]))
    obtain ⟨p, e, n, g, w, hk, -, rfl | ⟨rfl, hi⟩⟩ := h.kept.kept
    · exact hv.engineSound (hk.power.trans hup)
    · simp only [State.engineSound, hv.sound, hi, Bool.and_eq_true, Bool.or_eq_true]
      exact ⟨⟨trivial, .inr (by simp)⟩, .inr (hv.noWork hi)⟩
  | output c hu h ht => rwa [ht.only.engineSound, h.engineSound, hu.only.engineSound]
  | wake c hp =>
    obtain ⟨h1, h2⟩ := idle_of_engineSound hs (by simp [hp])
    simp only [State.engineSound, Bool.and_eq_true, Bool.or_eq_true] at hs ⊢
    simpa [h1, h2, hp, PowerState.holds, State.endIgnored, State.noWork] using hs
  | wakeEnd c hp =>
    obtain ⟨h1, h2⟩ := idle_of_engineSound hs (by simp [hp])
    simp only [State.engineSound, Bool.and_eq_true, Bool.or_eq_true] at hs ⊢
    simpa [h1, h2, hp, PowerState.holds, State.noWork] using hs
  | softReset | powerLoss | powerOn => exact engineSound_idle rfl rfl
  | recovered c hp =>
    exact (engineOk_recovered (idle_of_engineSound hs (by simp [hp])).1).engineSound (kept_recovered s).power
  | step hp hr h =>
    obtain ⟨w, hw, hk⟩ := h.worked hr
    have hok := EngineOk.of_engineSound hs (by simp [hp, PowerState.holds])
    refine (engineOk_evalPool (h.engineOk hok.sound hr) _).engineSound ?_
    rw [(hk.trans (kept_evalPool _ _)).power, ← hp]
    cases hw <;> rfl
  | format hp hr h =>
    have hok := EngineOk.of_engineSound hs (by simp [hp, PowerState.holds])
    refine (h.engineOk hok.sound hr).engineSound ?_
    obtain ⟨w, hw, hk⟩ := h.worked hr
    have hwp : w.power = .active := by rw [← hp]; cases hw <;> rfl
    cases hk with
    | inside hk => rw [hk.power, hwp]
    | ended hk l => exact (kept_endStep _ _).power.trans (hk.power.trans hwp)

/-- Settles O6: the jobs' steps keep their kind of job or end in a selection, frames that make work select where the engine is IDLE,
and the resets leave it IDLE. -/
theorem stepKeepsEngineSound : Obligations.StepKeepsEngineSound := by
  intro s t hs h
  rcases step_cases h with rfl | ⟨c, rest, -, h⟩
  · exact hs
  · exact (exec_row h).engineSound hs

end Sys2Proof.Machine
end

section
/-! The operations that commands and job steps share, said once: the bits that an event and a notice set, the three sides (R167 to
R171), the release walk (R82, R83), what a completed entry disposes of (R101), the sync point (R66, R67), and a stream fault (R34). -/

namespace Sys2Proof.Machine

-- One proof after the other: the stacks of proofs elaborated side by side come near the memory that a check may take.
set_option Elab.async false

open Sys2Proof

/-! ### Events and notices -/

/-- An event sets its bit of the latch and no other. -/
@[simp] theorem State.raise_getLsbD (s : State) (e : Event) (n : Nat) :
    (s.raise e).eventLatch.getLsbD n = (s.eventLatch.getLsbD n || n == e.bit) := by
  have hbit : (1#16 <<< e.bit).getLsbD n = (n == e.bit) := by
    by_cases h : n < 16
    · have hn : ∀ m : Fin 16, (1#16 <<< e.bit).getLsbD m.val = (m.val == e.bit) := by cases e <;> decide
      exact hn ⟨n, h⟩
    · rw [BitVec.getLsbD_of_ge _ _ (by omega)]
      have : e.bit < 16 := by cases e <;> decide
      exact (beq_eq_false_iff_ne.2 (by omega)).symm
  simp only [State.raise, BitVec.getLsbD_or, hbit]

theorem notice_getLsbD (b : Byte) (x : Notice) (n : Nat) :
    (b ||| (1#8 <<< x.bit)).getLsbD n = (b.getLsbD n || n == x.bit) := by
  have hbit : (1#8 <<< x.bit).getLsbD n = (n == x.bit) := by
    by_cases h : n < 8
    · have hn : ∀ m : Fin 8, (1#8 <<< x.bit).getLsbD m.val = (m.val == x.bit) := by cases x <;> decide
      exact hn ⟨n, h⟩
    · rw [BitVec.getLsbD_of_ge _ _ (by omega)]
      have : x.bit < 8 := by cases x <;> decide
      exact (beq_eq_false_iff_ne.2 (by omega)).symm
  rw [BitVec.getLsbD_or, hbit]

@[simp] theorem State.notify_same (s : State) (i : StreamId) (x : Notice) :
    ((s.notify i x).streams[i]'i.isLt) = { (s.streams[i]'i.isLt) with notices := (s.streams[i]'i.isLt).notices ||| (1#8 <<< x.bit) } :=
  State.updStream_same s i _

theorem State.notify_other (s : State) (i j : StreamId) (x : Notice) (h : i ≠ j) :
    ((s.notify i x).streams[j]'j.isLt) = (s.streams[j]'j.isLt) := State.updStream_other s i j _ h

/-! ### The held side (R167, R168) -/

/-- The held side of a stream arrives at-or-above. -/
def Stream.heldArrives (t : Stream) : Bool := t.heldSide && !t.heldAtOrAbove

/-- A stream record once its held side has been evaluated. -/
def Stream.heldEvaluated (t : Stream) : Stream :=
  { t with heldAtOrAbove := t.heldSide, notices := if t.heldArrives then t.notices ||| 0x01 else t.notices }

section Held

variable (s : State) (i : StreamId)

theorem State.evalHeld_eq : s.evalHeld i = { s with
    streams := s.streams.set i.val (s.streams[i]'i.isLt).heldEvaluated
    eventLatch := if (s.streams[i]'i.isLt).heldArrives then s.eventLatch ||| 0x0002 else s.eventLatch } := by
  unfold State.evalHeld Stream.heldEvaluated
  cases h : (s.streams[i]'i.isLt).heldArrives
  · rw [if_neg (by simpa [Stream.heldArrives] using h)]
    rfl
  · rw [if_pos (by simpa [Stream.heldArrives] using h)]
    simp [State.notify, State.raise, State.updStream, Notice.bit, Event.bit]

@[simp] theorem State.evalHeld_same : ((s.evalHeld i).streams[i]'i.isLt) = (s.streams[i]'i.isLt).heldEvaluated := by
  simp [State.evalHeld_eq]

theorem State.evalHeld_other (j : StreamId) (h : j ≠ i) : ((s.evalHeld i).streams[j]'j.isLt) = (s.streams[j]'j.isLt) := by
  have h' : i.val ≠ j.val := fun e => h (Fin.ext e.symm)
  simp [State.evalHeld_eq, h']

@[simp] theorem State.evalHeld_segments : (s.evalHeld i).segments = s.segments := by rw [State.evalHeld_eq]
@[simp] theorem State.evalHeld_pool : (s.evalHeld i).pool = s.pool := by rw [State.evalHeld_eq]
@[simp] theorem State.evalHeld_reclaim : (s.evalHeld i).reclaim = s.reclaim := by rw [State.evalHeld_eq]
@[simp] theorem State.evalHeld_staging : (s.evalHeld i).staging = s.staging := by rw [State.evalHeld_eq]
@[simp] theorem State.evalHeld_ledger : (s.evalHeld i).ledger = s.ledger := by rw [State.evalHeld_eq]
@[simp] theorem State.evalHeld_sync : (s.evalHeld i).sync = s.sync := by rw [State.evalHeld_eq]
@[simp] theorem State.evalHeld_poolBelow : (s.evalHeld i).poolBelow = s.poolBelow := by rw [State.evalHeld_eq]

@[simp] theorem State.evalHeld_getLsbD (n : Nat) :
    (s.evalHeld i).eventLatch.getLsbD n = (s.eventLatch.getLsbD n || (n == 1 && (s.streams[i]'i.isLt).heldArrives)) := by
  have h := State.raise_getLsbD s .highWater n
  rw [State.evalHeld_eq]
  cases (s.streams[i]'i.isLt).heldArrives
  · simp
  · simpa [State.raise, Event.bit] using h

@[simp] theorem Stream.heldEvaluated_chain (t : Stream) : t.heldEvaluated.chain = t.chain := rfl

theorem Stream.heldEvaluated_getLsbD (t : Stream) (n : Nat) :
    t.heldEvaluated.notices.getLsbD n = (t.notices.getLsbD n || (n == 0 && t.heldArrives)) := by
  have h := notice_getLsbD t.notices .highWater n
  unfold Stream.heldEvaluated
  cases t.heldArrives
  · simp
  · simpa [Notice.bit] using h

end Held

/-! ### The unread side (R167, R169) -/

/-- The unread side of a stream arrives at-or-below. -/
def Stream.unreadArrives (t : Stream) : Bool := !t.unreadSide && t.unreadAbove

/-- A stream record once its unread side has been evaluated. -/
def Stream.unreadEvaluated (t : Stream) : Stream :=
  { t with unreadAbove := t.unreadSide, notices := if t.unreadArrives then t.notices ||| 0x02 else t.notices }

section Unread

variable (s : State) (i : StreamId)

theorem State.evalUnread_eq : s.evalUnread i = { s with
    streams := s.streams.set i.val (s.streams[i]'i.isLt).unreadEvaluated
    eventLatch := if (s.streams[i]'i.isLt).unreadArrives then s.eventLatch ||| 0x0004 else s.eventLatch } := by
  unfold State.evalUnread Stream.unreadEvaluated
  cases h : (s.streams[i]'i.isLt).unreadArrives
  · rw [if_neg (by simpa [Stream.unreadArrives] using h)]
    rfl
  · rw [if_pos (by simpa [Stream.unreadArrives] using h)]
    simp [State.notify, State.raise, State.updStream, Notice.bit, Event.bit]

@[simp] theorem State.evalUnread_same : ((s.evalUnread i).streams[i]'i.isLt) = (s.streams[i]'i.isLt).unreadEvaluated := by
  simp [State.evalUnread_eq]

theorem State.evalUnread_other (j : StreamId) (h : j ≠ i) : ((s.evalUnread i).streams[j]'j.isLt) = (s.streams[j]'j.isLt) := by
  have h' : i.val ≠ j.val := fun e => h (Fin.ext e.symm)
  simp [State.evalUnread_eq, h']

@[simp] theorem State.evalUnread_segments : (s.evalUnread i).segments = s.segments := by rw [State.evalUnread_eq]
@[simp] theorem State.evalUnread_pool : (s.evalUnread i).pool = s.pool := by rw [State.evalUnread_eq]
@[simp] theorem State.evalUnread_reclaim : (s.evalUnread i).reclaim = s.reclaim := by rw [State.evalUnread_eq]
@[simp] theorem State.evalUnread_staging : (s.evalUnread i).staging = s.staging := by rw [State.evalUnread_eq]
@[simp] theorem State.evalUnread_ledger : (s.evalUnread i).ledger = s.ledger := by rw [State.evalUnread_eq]
@[simp] theorem State.evalUnread_sync : (s.evalUnread i).sync = s.sync := by rw [State.evalUnread_eq]
@[simp] theorem State.evalUnread_poolBelow : (s.evalUnread i).poolBelow = s.poolBelow := by rw [State.evalUnread_eq]

@[simp] theorem State.evalUnread_getLsbD (n : Nat) :
    (s.evalUnread i).eventLatch.getLsbD n = (s.eventLatch.getLsbD n || (n == 2 && (s.streams[i]'i.isLt).unreadArrives)) := by
  have h := State.raise_getLsbD s .drained n
  rw [State.evalUnread_eq]
  cases (s.streams[i]'i.isLt).unreadArrives
  · simp
  · simpa [State.raise, Event.bit] using h

@[simp] theorem Stream.unreadEvaluated_chain (t : Stream) : t.unreadEvaluated.chain = t.chain := rfl

theorem Stream.unreadEvaluated_getLsbD (t : Stream) (n : Nat) :
    t.unreadEvaluated.notices.getLsbD n = (t.notices.getLsbD n || (n == 1 && t.unreadArrives)) := by
  have h := notice_getLsbD t.notices .drained n
  unfold Stream.unreadEvaluated
  cases t.unreadArrives
  · simp
  · simpa [Notice.bit] using h

end Unread

/-! ### The pool side (R167, R170) -/

section Pool

variable (s : State) (n : Int)

/-- The pool side arrives below, in an action that found so much available. -/
def State.poolArrives : Bool := decide (s.available ≠ n) && s.poolSide && !s.poolBelow

theorem State.evalPool_eq : s.evalPool n = { s with
    poolBelow := if s.available = n then s.poolBelow else s.poolSide
    eventLatch := if s.poolArrives n then s.eventLatch ||| 0x0020 else s.eventLatch } := by
  unfold State.evalPool
  by_cases h : s.available = n
  · simp [State.poolArrives, h]
  · cases hp : s.poolSide && !s.poolBelow
    · simp [State.poolArrives, h, hp]
    · simp [State.poolArrives, h, hp, State.raise, Event.bit]

@[simp] theorem State.evalPool_streams : (s.evalPool n).streams = s.streams := by rw [State.evalPool_eq]
@[simp] theorem State.evalPool_segments : (s.evalPool n).segments = s.segments := by rw [State.evalPool_eq]
@[simp] theorem State.evalPool_pool : (s.evalPool n).pool = s.pool := by rw [State.evalPool_eq]
@[simp] theorem State.evalPool_reclaim : (s.evalPool n).reclaim = s.reclaim := by rw [State.evalPool_eq]
@[simp] theorem State.evalPool_staging : (s.evalPool n).staging = s.staging := by rw [State.evalPool_eq]
@[simp] theorem State.evalPool_ledger : (s.evalPool n).ledger = s.ledger := by rw [State.evalPool_eq]
@[simp] theorem State.evalPool_sync : (s.evalPool n).sync = s.sync := by rw [State.evalPool_eq]

@[simp] theorem State.evalPool_getLsbD (m : Nat) :
    (s.evalPool n).eventLatch.getLsbD m = (s.eventLatch.getLsbD m || (m == 5 && s.poolArrives n)) := by
  have h := State.raise_getLsbD s .poolLow m
  rw [State.evalPool_eq]
  cases s.poolArrives n
  · simp
  · simpa [State.raise, Event.bit] using h

end Pool

/-! ### The release walk (R82, R83) -/

/-- An entry of the segment table once the segment waits in the release list for a frontier. -/
def Segment.listed (g : Segment) : Segment := { g with location := .release, release := some (.frontier g.last) }

/-- A release changes the table's entries of its segments, and nothing else. -/
theorem State.releaseAll_eq : ∀ (ks : List DataSeg) (s : State),
    s.releaseAll ks = { s with segments := (s.releaseAll ks).segments }
  | [], _ => rfl
  | k :: ks, s => by
    have h := State.releaseAll_eq ks (s.release k (.frontier (s.segments[k]'k.isLt).last))
    rw [show s.releaseAll (k :: ks) = (s.release k (.frontier (s.segments[k]'k.isLt).last)).releaseAll ks from rfl, h]
    rfl

theorem State.release_segments (s : State) (k j : DataSeg) :
    ((s.release k (.frontier (s.segments[k]'k.isLt).last)).segments[j]'j.isLt)
        = if j = k then (s.segments[j]'j.isLt).listed else (s.segments[j]'j.isLt) := by
  split
  · rename_i h
    rw [h]
    exact State.updSegment_same s k _
  · rename_i h
    exact State.updSegment_other s k j _ (Ne.symm h)

/-- The entries of the segment table after a release. -/
theorem State.releaseAll_segments : ∀ (ks : List DataSeg) (s : State) (j : DataSeg),
    ((s.releaseAll ks).segments[j]'j.isLt) = if j ∈ ks then (s.segments[j]'j.isLt).listed else (s.segments[j]'j.isLt)
  | [], _, _ => by simp [State.releaseAll]
  | k :: ks, s, j => by
    rw [show s.releaseAll (k :: ks) = (s.release k (.frontier (s.segments[k]'k.isLt).last)).releaseAll ks from rfl,
      State.releaseAll_segments ks, State.release_segments]
    by_cases hk : j = k <;> by_cases hm : j ∈ ks <;> simp [hk, hm, Segment.listed]

/-- The walk splits the chain (R82). -/
theorem State.walk_append (s : State) (i : StreamId) : ∀ ks : List DataSeg, (s.walk i ks).1 ++ (s.walk i ks).2 = ks
  | [] => rfl
  | k :: ks => by
    unfold State.walk
    split
    · simp [State.walk_append s i ks]
    · rfl

/-- The segments that the walk takes are closed and covered (R82). -/
theorem State.walk_taken (s : State) (i : StreamId) : ∀ (ks us vs : List DataSeg) (k : DataSeg), ks = us ++ k :: vs →
    us.length < (s.walk i ks).1.length → s.closed i k vs.isEmpty = true
        ∧ (s.segments[k]'k.isLt).last ≤ (s.streams[i]'i.isLt).volatileFrontier
  | [], us, vs, k, h, _ => by simp at h
  | x :: xs, us, vs, k, h, hl => by
    unfold State.walk at hl
    split at hl
    · rename_i hc
      rw [Bool.and_eq_true, decide_eq_true_eq] at hc
      cases us with
      | nil =>
        simp only [List.nil_append, List.cons.injEq] at h
        obtain ⟨rfl, rfl⟩ := h
        exact hc
      | cons u us =>
        simp only [List.cons_append, List.cons.injEq] at h
        exact State.walk_taken s i xs us vs k h.2 (by simpa using hl)
    · simp at hl

/-- The first segment that the walk leaves is not closed or not covered (R82). -/
theorem State.walk_left (s : State) (i : StreamId) : ∀ (ks vs : List DataSeg) (k : DataSeg), (s.walk i ks).2 = k :: vs →
    s.closed i k vs.isEmpty = false ∨ (s.streams[i]'i.isLt).volatileFrontier < (s.segments[k]'k.isLt).last
  | [], _, _, h => by simp [State.walk] at h
  | x :: xs, vs, k, h => by
    unfold State.walk at h
    split at h
    · exact State.walk_left s i xs vs k h
    · rename_i hc
      simp only [List.cons.injEq] at h
      obtain ⟨rfl, rfl⟩ := h
      rw [Bool.and_eq_true, decide_eq_true_eq, not_and_or] at hc
      rcases hc with hc | hc
      · exact .inl (by simpa using hc)
      · exact .inr (by omega)

/-- The segments that the release walk takes out of a stream's chain. -/
def State.walked (s : State) (i : StreamId) : List DataSeg := (s.walk i (s.streams[i]'i.isLt).chain).1

/-- The chain that the release walk leaves. -/
def State.unwalked (s : State) (i : StreamId) : List DataSeg := (s.walk i (s.streams[i]'i.isLt).chain).2

theorem State.walked_append (s : State) (i : StreamId) : s.walked i ++ s.unwalked i = (s.streams[i]'i.isLt).chain :=
  State.walk_append s i _

theorem State.walked_nil {s : State} {i : StreamId} (h : s.walked i = []) : s.releaseCovered i = s := by
  unfold State.releaseCovered
  dsimp only
  rw [if_pos (by simpa [State.walked] using h)]

/-- Where the walk takes a segment: the state before the evaluation of the held side. -/
def State.walkedOut (s : State) (i : StreamId) : State :=
  { s with
    streams := s.streams.set i.val { (s.streams[i]'i.isLt) with chain := s.unwalked i }
    segments := (s.releaseAll (s.walked i)).segments
    ledger := { s.ledger with pendingNotes := s.ledger.pendingNotes.set i.val true } }

/-- The release walk where it takes a segment (R82, R83, R168). -/
theorem State.releaseCovered_eq {s : State} {i : StreamId} (h : s.walked i ≠ []) :
    s.releaseCovered i = (s.walkedOut i).evalHeld i := by
  unfold State.releaseCovered
  dsimp only
  rw [if_neg (by simpa [State.walked] using h), State.releaseAll_eq]
  rfl

section Walk

variable (s : State) (i : StreamId)

/-- The table's entries after the release walk. -/
theorem State.releaseCovered_segments (j : DataSeg) :
    ((s.releaseCovered i).segments[j]'j.isLt) = if j ∈ s.walked i then (s.segments[j]'j.isLt).listed else (s.segments[j]'j.isLt) := by
  by_cases h : s.walked i = []
  · simp [State.walked_nil h, h]
  · rw [State.releaseCovered_eq h, State.evalHeld_segments]
    exact State.releaseAll_segments _ s j

@[simp] theorem State.releaseCovered_chain : ((s.releaseCovered i).streams[i]'i.isLt).chain = s.unwalked i := by
  by_cases h : s.walked i = []
  · rw [State.walked_nil h]
    have := s.walked_append i
    rw [h] at this
    exact this.symm
  · rw [State.releaseCovered_eq h, State.evalHeld_same]
    simp [State.walkedOut]

/-- What the release walk leaves of the stream's record. -/
theorem State.releaseCovered_same : { ((s.releaseCovered i).streams[i]'i.isLt) with
    chain := (s.streams[i]'i.isLt).chain, notices := (s.streams[i]'i.isLt).notices,
    heldAtOrAbove := (s.streams[i]'i.isLt).heldAtOrAbove } = (s.streams[i]'i.isLt) := by
  by_cases h : s.walked i = []
  · rw [State.walked_nil h]
  · rw [State.releaseCovered_eq h, State.evalHeld_same]
    simp [State.walkedOut, Stream.heldEvaluated]

theorem State.releaseCovered_other (j : StreamId) (hj : j ≠ i) : ((s.releaseCovered i).streams[j]'j.isLt) = (s.streams[j]'j.isLt) := by
  by_cases h : s.walked i = []
  · rw [State.walked_nil h]
  · have h' : i.val ≠ j.val := fun e => hj (Fin.ext e.symm)
    rw [State.releaseCovered_eq h, State.evalHeld_other _ _ _ hj]
    simp [State.walkedOut, h']

theorem State.releaseCovered_ledger : (s.releaseCovered i).ledger = if s.walked i = [] then s.ledger
    else { s.ledger with pendingNotes := s.ledger.pendingNotes.set i.val true } := by
  by_cases h : s.walked i = []
  · rw [State.walked_nil h, if_pos h]
  · rw [State.releaseCovered_eq h, if_neg h, State.evalHeld_ledger]
    rfl

@[simp] theorem State.releaseCovered_pool : (s.releaseCovered i).pool = s.pool := by
  by_cases h : s.walked i = []
  · rw [State.walked_nil h]
  · rw [State.releaseCovered_eq h, State.evalHeld_pool]
    rfl

@[simp] theorem State.releaseCovered_reclaim : (s.releaseCovered i).reclaim = s.reclaim := by
  by_cases h : s.walked i = []
  · rw [State.walked_nil h]
  · rw [State.releaseCovered_eq h, State.evalHeld_reclaim]
    rfl

@[simp] theorem State.releaseCovered_staging : (s.releaseCovered i).staging = s.staging := by
  by_cases h : s.walked i = []
  · rw [State.walked_nil h]
  · rw [State.releaseCovered_eq h, State.evalHeld_staging]
    rfl

@[simp] theorem State.releaseCovered_sync : (s.releaseCovered i).sync = s.sync := by
  by_cases h : s.walked i = []
  · rw [State.walked_nil h]
  · rw [State.releaseCovered_eq h, State.evalHeld_sync]
    rfl

@[simp] theorem State.releaseCovered_poolBelow : (s.releaseCovered i).poolBelow = s.poolBelow := by
  by_cases h : s.walked i = []
  · rw [State.walked_nil h]
  · rw [State.releaseCovered_eq h, State.evalHeld_poolBelow]
    rfl

end Walk

/-! ### The sync point (R66, R67) -/

section Sync

variable (s : State)

@[simp] theorem State.evalSync_streams : s.evalSync.streams = s.streams := by
  unfold State.evalSync
  split <;> rfl

@[simp] theorem State.evalSync_segments : s.evalSync.segments = s.segments := (stays_evalSync s).1.segments
@[simp] theorem State.evalSync_pool : s.evalSync.pool = s.pool := (stays_evalSync s).1.pool
@[simp] theorem State.evalSync_reclaim : s.evalSync.reclaim = s.reclaim := (stays_evalSync s).1.reclaim
@[simp] theorem State.evalSync_ledger : s.evalSync.ledger = s.ledger := (stays_evalSync s).1.ledger
@[simp] theorem State.evalSync_staging : s.evalSync.staging = s.staging := (stays_evalSync s).2

@[simp] theorem State.evalSync_poolBelow : s.evalSync.poolBelow = s.poolBelow := by
  unfold State.evalSync
  split <;> rfl

/-- Of the events, the evaluation of the sync point raises SYNC_DONE alone. -/
theorem State.evalSync_getLsbD {n : Nat} (h : n ≠ 0) : s.evalSync.eventLatch.getLsbD n = s.eventLatch.getLsbD n := by
  unfold State.evalSync
  split
  · simp [Event.bit, h]
  · rfl

/-- The sync point once some of its items are gone and it has been evaluated (R66, R67). -/
theorem syncLeft_evalSync {s u : State} {left : List SyncItem → List SyncItem} (hu : u.sync = s.sync.map left)
    (he : u.eventLatch.getLsbD 0 = s.eventLatch.getLsbD 0) : s.SyncLeft u.evalSync left := by
  constructor
  · intro h
    have hs : u.sync = none := by rw [hu, h]; rfl
    unfold State.evalSync
    rw [hs]
    exact ⟨hs, he⟩
  · intro items h hl
    have hs : u.sync = some (left items) := by rw [hu, h]; rfl
    unfold State.evalSync
    split
    · rename_i e
      rw [hs, Option.some.injEq] at e
      exact absurd e hl
    · exact ⟨hs, he⟩
  · intro items h hl
    have hs : u.sync = some [] := by rw [hu, h, ← hl]; rfl
    simp [State.evalSync, hs, Event.bit]

end Sync

/-! ### A stream fault (R34) -/

/-- A stream record once its stream has faulted, before the evaluation of the held side. -/
def Stream.faultedRecord (t : Stream) : Stream :=
  { t with state := .faulted, preFault := t.state, reserved := 0, nextSeq := t.lastCommitted + 1
           notices := t.notices ||| 0x40 }

section Fault

variable (s : State) (i : StreamId)

@[simp] theorem State.faultStream_same : ((s.faultStream i).streams[i]'i.isLt) = (s.streams[i]'i.isLt).faultedRecord.heldEvaluated := by
  unfold State.faultStream
  simp only [State.evalHeld_same, State.evalSync_streams, State.satisfy_streams, State.raise_streams, State.notify_same]
  rw [State.updStream_same]
  rfl

theorem State.faultStream_other (j : StreamId) (h : j ≠ i) : ((s.faultStream i).streams[j]'j.isLt) = (s.streams[j]'j.isLt) := by
  unfold State.faultStream
  simp only [State.evalHeld_other _ _ _ h, State.evalSync_streams, State.satisfy_streams, State.raise_streams,
    State.notify_other _ _ _ _ h.symm]
  exact State.updStream_other s i j _ h.symm

/-- A fault leaves every chain. -/
theorem State.faultStream_chain (j : StreamId) : ((s.faultStream i).streams[j]'j.isLt).chain = (s.streams[j]'j.isLt).chain := by
  by_cases h : j = i
  · subst h
    rw [State.faultStream_same]
    rfl
  · rw [State.faultStream_other _ _ _ h]

end Fault

/-! ### The segments that a completed entry frees (R101) -/

/-- An entry of the segment table once its segment's release is durable. -/
def Segment.disposed (g : Segment) : Segment :=
  { g with location := if g.header = .retirePending then .retired else .reclaim, release := none }

section Dispose

variable (s : State) (k : DataSeg)

@[simp] theorem State.dispose_streams : (s.dispose k).streams = s.streams := by
  unfold State.dispose
  split <;> rfl

@[simp] theorem State.dispose_pool : (s.dispose k).pool = s.pool := by
  unfold State.dispose
  split <;> rfl

@[simp] theorem State.dispose_ledger : (s.dispose k).ledger = s.ledger := by
  unfold State.dispose
  split <;> rfl

@[simp] theorem State.dispose_staging : (s.dispose k).staging = s.staging := by
  unfold State.dispose
  split <;> rfl

@[simp] theorem State.dispose_sync : (s.dispose k).sync = s.sync := by
  unfold State.dispose
  split <;> rfl

theorem State.dispose_eq : s.dispose k = { s with
    segments := s.segments.set k.val (s.segments[k]'k.isLt).disposed
    reclaim := s.reclaim ++ if (s.segments[k]'k.isLt).header = .retirePending then [] else [k]
    eventLatch := if (s.segments[k]'k.isLt).header = .retirePending then s.eventLatch ||| 0x0100 else s.eventLatch } := by
  unfold State.dispose Segment.disposed
  by_cases h : (s.segments[k]'k.isLt).header = .retirePending
  · rw [if_pos h, if_pos h, if_pos h, List.append_nil]
    simp only [if_pos h]
    rfl
  · rw [if_neg h, if_neg h, if_neg h]
    simp only [if_neg h]
    rfl

theorem State.dispose_segments (j : DataSeg) :
    ((s.dispose k).segments[j]'j.isLt) = if j = k then (s.segments[j]'j.isLt).disposed else (s.segments[j]'j.isLt) := by
  rw [State.dispose_eq]
  by_cases hj : j = k
  · subst hj
    simp
  · have h' : k.val ≠ j.val := fun e => hj (Fin.ext e.symm)
    simp [hj, h']

theorem State.dispose_reclaim :
    (s.dispose k).reclaim = s.reclaim ++ if (s.segments[k]'k.isLt).header = .retirePending then [] else [k] := by
  rw [State.dispose_eq]

theorem State.dispose_getLsbD (n : Nat) : (s.dispose k).eventLatch.getLsbD n
    = (s.eventLatch.getLsbD n || (n == 8 && (s.segments[k]'k.isLt).header == .retirePending)) := by
  have h := State.raise_getLsbD s .segmentRetired n
  rw [State.dispose_eq]
  by_cases hk : (s.segments[k]'k.isLt).header = .retirePending
  · simpa [-Fin.getElem_fin, hk, State.raise, Event.bit] using h
  · simp [-Fin.getElem_fin, hk]

/-- Segments leave the release list together, in their order. -/
abbrev State.disposeAll (ks : List DataSeg) (s : State) : State := ks.foldl (fun s k => s.dispose k) s

theorem State.disposeAll_streams : ∀ (ks : List DataSeg) (s : State), (s.disposeAll ks).streams = s.streams
  | [], _ => rfl
  | k :: ks, s => (State.disposeAll_streams ks _).trans (s.dispose_streams k)

theorem State.disposeAll_pool : ∀ (ks : List DataSeg) (s : State), (s.disposeAll ks).pool = s.pool
  | [], _ => rfl
  | k :: ks, s => (State.disposeAll_pool ks _).trans (s.dispose_pool k)

theorem State.disposeAll_ledger : ∀ (ks : List DataSeg) (s : State), (s.disposeAll ks).ledger = s.ledger
  | [], _ => rfl
  | k :: ks, s => (State.disposeAll_ledger ks _).trans (s.dispose_ledger k)

theorem State.disposeAll_staging : ∀ (ks : List DataSeg) (s : State), (s.disposeAll ks).staging = s.staging
  | [], _ => rfl
  | k :: ks, s => (State.disposeAll_staging ks _).trans (s.dispose_staging k)

theorem State.disposeAll_sync : ∀ (ks : List DataSeg) (s : State), (s.disposeAll ks).sync = s.sync
  | [], _ => rfl
  | k :: ks, s => (State.disposeAll_sync ks _).trans (s.dispose_sync k)

theorem State.disposeAll_segments : ∀ (ks : List DataSeg) (s : State), ks.Nodup → ∀ j : DataSeg,
    ((s.disposeAll ks).segments[j]'j.isLt) = if j ∈ ks then (s.segments[j]'j.isLt).disposed else (s.segments[j]'j.isLt)
  | [], _, _, _ => by simp [State.disposeAll]
  | k :: ks, s, h, j => by
    rw [List.nodup_cons] at h
    rw [show s.disposeAll (k :: ks) = (s.dispose k).disposeAll ks from rfl, State.disposeAll_segments ks _ h.2,
      State.dispose_segments]
    by_cases hk : j = k
    · subst hk
      simp [h.1]
    · simp [hk]

theorem State.disposeAll_reclaim : ∀ (ks : List DataSeg) (s : State), ks.Nodup →
    (s.disposeAll ks).reclaim = s.reclaim ++ ks.filter fun k => (s.segments[k]'k.isLt).header != .retirePending
  | [], _, _ => by simp [State.disposeAll]
  | k :: ks, s, h => by
    rw [List.nodup_cons] at h
    rw [show s.disposeAll (k :: ks) = (s.dispose k).disposeAll ks from rfl, State.disposeAll_reclaim ks _ h.2,
      State.dispose_reclaim]
    have hf : (ks.filter fun j => ((s.dispose k).segments[j]'j.isLt).header != .retirePending)
        = ks.filter fun j => (s.segments[j]'j.isLt).header != .retirePending := by
      refine List.filter_congr fun j hj => ?_
      rw [State.dispose_segments, if_neg fun (e : j = k) => h.1 (e ▸ hj)]
    rw [hf, List.append_assoc, List.filter_cons]
    by_cases hk : (s.segments[k]'k.isLt).header = .retirePending <;> simp [-Fin.getElem_fin, hk]

theorem State.disposeAll_getLsbD : ∀ (ks : List DataSeg) (s : State), ks.Nodup → ∀ n : Nat,
    (s.disposeAll ks).eventLatch.getLsbD n
      = (s.eventLatch.getLsbD n || (n == 8 && ks.any fun k => (s.segments[k]'k.isLt).header == .retirePending))
  | [], _, _, _ => by simp [State.disposeAll]
  | k :: ks, s, h, n => by
    rw [List.nodup_cons] at h
    rw [show s.disposeAll (k :: ks) = (s.dispose k).disposeAll ks from rfl, State.disposeAll_getLsbD ks _ h.2,
      State.dispose_getLsbD]
    have hf : (ks.any fun j => ((s.dispose k).segments[j]'j.isLt).header == .retirePending)
        = ks.any fun j => (s.segments[j]'j.isLt).header == .retirePending := by
      rw [Bool.eq_iff_iff, List.any_eq_true, List.any_eq_true]
      refine exists_congr fun j => and_congr_right fun hj => ?_
      rw [State.dispose_segments, if_neg fun (e : j = k) => h.1 (e ▸ hj)]
    rw [hf, List.any_cons, Bool.and_or_distrib_left, Bool.or_assoc]

end Dispose

theorem satisfiedBy_nodup (s : State) (b : Bool) (r : Recorded) : (s.satisfiedBy b r).Nodup :=
  ((List.nodup_finRange 510).filter _).filter _

theorem mem_satisfiedBy {s : State} {b : Bool} {r : Recorded} {k : DataSeg} :
    k ∈ s.satisfiedBy b r ↔ (s.segments[k]'k.isLt).location = .release ∧ (s.segments[k]'k.isLt).releasedBy b r = true := by
  simp [State.satisfiedBy, State.segmentsAt, and_comm]

end Sys2Proof.Machine
end

section
/-! Frames (chapter 1): what every frame's row runs, with what its body keeps where it refuses; the frames that the device ignores,
refuses or discards; the queue and the reset values. Settles O1, O2, O11, O13, O14, O15, O16, O44. -/

namespace Sys2Proof.Machine

-- One proof after the other: the stacks of proofs elaborated side by side come near the memory that a check may take.
set_option Elab.async false

open Sys2Proof

/-! ### The queue and the reset values -/

/-- Settles O1: both clauses are the two cases of `step`. -/
theorem stepRunsFrontCommand : Obligations.StepRunsFrontCommand :=
  ⟨fun c rest s h => by rw [step, h], fun s h => by rw [step, h]⟩

/-- Settles O2: every item is a field of the reset state. -/
theorem resetStateValues : Obligations.ResetStateValues :=
  ⟨rfl, rfl, rfl, rfl, rfl, rfl, rfl, rfl, rfl, rfl, rfl, rfl, rfl, rfl, rfl, rfl⟩

/-! ### Where no frame is served -/

/-- The device ignores the frame at hand: it does not serve frames, or the frame began where it was to be ignored (R24, R25). -/
def Ignores (s : State) : Prop :=
  (s.power = .off ∨ s.power = .dozing ∨ s.power = .waking)
    ∨ ((s.power = .active ∨ s.power = .recovering) ∧ s.port.frameIgnored = true)

variable {s : State}

theorem actionFrame_ignores (h : Ignores s) (k : FrameKind) (n : Nat) (body : State → State × OutcomeCode) :
    actionFrame k n body s = .next s.endIgnored := by
  rcases h with (h | h | h) | ⟨h | h, hi⟩ <;> simp [actionFrame, *]

theorem malformedFrame_ignores (h : Ignores s) (o : OutcomeCode) (n : Nat) : malformedFrame o n s = .next s.endIgnored := by
  rcases h with (h | h | h) | ⟨h | h, hi⟩ <;> simp [malformedFrame, *]

theorem outputFrame_ignores (h : Ignores s) (k : FrameKind) (c : OutputCommand) (n : Nat) (act : Snapshot → State → State) :
    outputFrame k c n act s = .next s.endIgnored := by
  rcases h with (h | h | h) | ⟨h | h, hi⟩ <;> simp [outputFrame, *]

/-! ### What every frame's row runs -/

/-- What a refusal may change outside the port (R12): the notices and the event latch. -/
structure RefusalKeeps (s t : State) : Prop where
  others : { t with port := s.port, eventLatch := s.eventLatch, streams := s.streams } = s
  streams : ∀ i : StreamId, { (t.streams[i]'i.isLt) with notices := (s.streams[i]'i.isLt).notices } = (s.streams[i]'i.isLt)

theorem refusalKeeps_refl (s : State) : RefusalKeeps s s := ⟨rfl, fun _ => rfl⟩

/-- The body of an action frame accepts, or leaves all but the port, the notices and the event latch; its receipt stays. -/
def Refusable (body : State → State × OutcomeCode) : Prop :=
  ∀ s, (body s).2 = .done ∨ (body s).2 = .ledgerHalted ∨ (RefusalKeeps s (body s).1 ∧ (body s).1.port = s.port)

/-- What the row of a frame runs. -/
inductive FrameRow (s : State) : Instr → Result → Prop
  | action (c : Instr) (k : FrameKind) (n : Nat) (body : State → State × OutcomeCode) (hk : k ≠ .transparent)
      (hb : Refusable body) : FrameRow s c (actionFrame k n body s)
  | malformed (c : Instr) (o : OutcomeCode) (n : Nat) (hc : encodeFrame c = none ∨ c.wellFormed = false) :
      FrameRow s c (malformedFrame o n s)
  | output (d : OutputCommand) (n : Nat) (k : FrameKind) (act : Snapshot → State → State)
      (hk : k = .transparent → d = .queryStatus) (hw : (d.row n).wellFormed = outputShape d n) :
      FrameRow s (d.row n) (outputFrame k d n act s)
  | softReset (cut : Cut) (hs : Serving s) : FrameRow s (.reset cut)
      (.next { s.softReset cut with port := { Port.reset with byteCounter := 1, sout := s.beginFrame.port.frameOutput 1 } })
  | wake (hp : s.power = .dozing) : FrameRow s .wake (.next { s.endIgnored with power := .waking })

/-! ### The bodies of the action frames, where they refuse -/

theorem Ledger.outcome_accepts (l : Ledger) : l.outcome = .done ∨ l.outcome = .ledgerHalted := by
  unfold Ledger.outcome
  split <;> simp

/-- A check that fails refuses, and leaves the state. -/
theorem refused_self (s : State) (o : OutcomeCode) :
    (s, o).2 = .done ∨ (s, o).2 = .ledgerHalted ∨ (RefusalKeeps s (s, o).1 ∧ (s, o).1.port = s.port) :=
  .inr (.inr ⟨refusalKeeps_refl s, rfl⟩)

/-- A change of an anchored value is accepted. -/
theorem accepted_ledger (s t : State) (l : Ledger) :
    (t, l.outcome).2 = .done ∨ (t, l.outcome).2 = .ledgerHalted
      ∨ (RefusalKeeps s (t, l.outcome).1 ∧ (t, l.outcome).1.port = s.port) :=
  l.outcome_accepts.elim .inl (fun h => .inr (.inl h))

theorem accepted_done (s t : State) :
    (t, OutcomeCode.done).2 = .done ∨ (t, OutcomeCode.done).2 = .ledgerHalted
      ∨ (RefusalKeeps s (t, OutcomeCode.done).1 ∧ (t, OutcomeCode.done).1.port = s.port) := .inl rfl

theorem refusable_configure (b p : Byte) (q h l : Word16) (g : Bool) : Refusable (State.configureBody b p q h l g) := by
  intro s
  unfold State.configureBody
  split
  · exact refused_self s _
  · split
    · exact refused_self s _
    · split
      · exact refused_self s _
      · split
        · exact refused_self s _
        · split
          · exact refused_self s _
          · exact accepted_ledger s _ _

theorem refusable_open (b : Byte) (g : Bool) : Refusable (State.openBody b g) := by
  intro s
  unfold State.openBody
  split
  · exact refused_self s _
  · split
    · exact refused_self s _
    · split
      · exact refused_self s _
      · split
        · exact refused_self s _
        · exact accepted_ledger s _ _

theorem refusable_close (b : Byte) (g : Bool) : Refusable (State.closeBody b g) := by
  intro s
  unfold State.closeBody
  split
  · exact refused_self s _
  · split
    · exact refused_self s _
    · split
      · exact refused_self s _
      · split
        · exact refused_self s _
        · exact accepted_ledger s _ _

theorem refusable_reset (b : Byte) (g : Bool) : Refusable (State.resetBody b g) := by
  intro s
  unfold State.resetBody
  split
  · exact refused_self s _
  · split
    · exact refused_self s _
    · split
      · exact refused_self s _
      · split
        · exact refused_self s _
        · split
          · exact refused_self s _
          · exact accepted_ledger s _ _

/-- A notice and an event are all that a refusal for the quota leaves. -/
theorem refusalKeeps_quotaHit (s : State) (i : StreamId) : RefusalKeeps s ((s.notify i .quotaHit).raise .quotaHit) := by
  refine ⟨rfl, fun j => ?_⟩
  rw [State.raise_streams]
  by_cases h : j = i
  · subst h
    rw [State.notify_same]
  · rw [State.notify_other s i j _ (Ne.symm h)]

theorem refusable_append (b tag : Byte) (l : Word16) (payload : List Byte) : Refusable (State.appendBody b tag l payload) := by
  intro s
  unfold State.appendBody
  split
  · exact refused_self s _
  · split
    · exact refused_self s _
    · split
      · exact refused_self s _
      · split
        · exact refused_self s _
        · split
          · exact refused_self s _
          · split
            · exact refused_self s _
            · split
              · exact accepted_done s _
              · exact accepted_done s _
              · exact .inr (.inr ⟨refusalKeeps_quotaHit s _, rfl⟩)
              · exact .inr (.inr ⟨⟨rfl, fun _ => rfl⟩, rfl⟩)

theorem refusable_ack (b : Byte) (q : Word32) : Refusable (State.ackBody b q) := by
  intro s
  unfold State.ackBody
  split
  · exact refused_self s _
  · split
    · exact refused_self s _
    · split
      · exact refused_self s _
      · split <;> exact accepted_done s _

theorem refusable_push (b : Byte) : Refusable (State.pushBody b) := by
  intro s
  unfold State.pushBody
  split
  · exact refused_self s _
  · split
    · exact refused_self s _
    · exact accepted_done s _

theorem refusable_pop (b : Byte) : Refusable (State.popBody b) := by
  intro s
  unfold State.popBody
  split
  · exact refused_self s _
  · split
    · exact refused_self s _
    · split
      · exact refused_self s _
      · exact accepted_done s _

theorem refusable_rewind (b m : Byte) : Refusable (State.rewindBody b m) := by
  intro s
  unfold State.rewindBody
  split
  · exact refused_self s _
  · split
    · exact refused_self s _
    · split
      · exact refused_self s _
      · unfold State.rewind
        split
        · exact accepted_done s _
        · exact refused_self s _
        · exact accepted_done s _
        · exact accepted_done s _

theorem refusable_suspend : Refusable State.suspendBody := by
  intro s
  unfold State.suspendBody
  split
  · exact accepted_done s _
  · split
    · exact refused_self s _
    · split
      · exact accepted_done s _
      · exact refused_self s _

theorem refusable_resume : Refusable State.resumeBody := by
  intro s
  unfold State.resumeBody
  split
  · exact accepted_done s _
  · exact accepted_done s _
  · exact refused_self s _
  · exact refused_self s _

theorem refusable_deviceConfig (w : Byte) (g : Bool) : Refusable (State.deviceConfigBody w g) := by
  intro s
  unfold State.deviceConfigBody
  split
  · exact refused_self s _
  · split
    · exact refused_self s _
    · split
      · exact refused_self s _
      · split
        · exact refused_self s _
        · exact accepted_ledger s _ _

theorem refusable_format (g : Bool) : Refusable (State.formatBody g) := by
  intro s
  unfold State.formatBody
  split
  · exact refused_self s _
  · split
    · exact refused_self s _
    · split
      · exact refused_self s _
      · exact accepted_done s _

theorem refusable_writeGuard (m l f : Byte) (g : Bool) : Refusable (State.writeGuardBody m l f g) := by
  intro s
  unfold State.writeGuardBody
  split
  · exact refused_self s _
  · split
    · split
      · exact refused_self s _
      · unfold State.writeGuard
        dsimp only
        split
        · exact accepted_ledger s _ _
        · exact accepted_done s _
    · exact refused_self s _

theorem refusable_startVault (p : Fin 4) (w : VaultWork) : Refusable (State.startVault p w) := by
  intro s
  unfold State.startVault
  split
  · exact refused_self s _
  · split
    · exact refused_self s _
    · exact accepted_done s _

theorem refusable_vaultWrite (p o l : Byte) (d : List Byte) : Refusable (State.vaultWriteBody p o l d) := by
  intro s
  unfold State.vaultWriteBody
  split
  · exact refused_self s _
  · split
    · exact refused_self s _
    · split
      · exact refused_self s _
      · exact refusable_startVault _ _ s

theorem refusable_vaultErase (p : Byte) : Refusable (State.vaultEraseBody p) := by
  intro s
  unfold State.vaultEraseBody
  split
  · exact refused_self s _
  · split
    · exact refused_self s _
    · exact refusable_startVault _ _ s

theorem refusable_vaultLock (p : Byte) : Refusable (State.vaultLockBody p) := by
  intro s
  unfold State.vaultLockBody
  split
  · exact refused_self s _
  · split
    · exact refused_self s _
    · exact refusable_startVault _ _ s

theorem refusable_doze : Refusable fun s =>
    if s.engine.state ≠ .idle ∨ s.ledger.workPending = true then (s, .busy) else ({ s with power := .dozing }, .done) := by
  intro s
  dsimp only
  split
  · exact refused_self s _
  · exact accepted_done s _

theorem frameRow_append (s : State) (b tag : Byte) (l : Word16) (payload : List Byte) :
    FrameRow s (.append b tag l payload) (execAppend b tag l payload s) := by
  unfold execAppend
  split
  · exact .action _ _ _ _ (by simp) (refusable_append b tag l payload)
  · rename_i h
    exact .malformed _ _ _ (.inr (by simpa [Instr.wellFormed] using h))

theorem frameRow_vaultWrite (s : State) (p o l : Byte) (d : List Byte) :
    FrameRow s (.vaultWrite p o l d) (execVaultWrite p o l d s) := by
  unfold execVaultWrite
  split
  · exact .action _ _ _ _ (by simp) (refusable_vaultWrite p o l d)
  · rename_i h
    exact .malformed _ _ _ (.inr (by simpa [Instr.wellFormed] using h))

theorem frameRow_reset (s : State) (cut : Cut) : FrameRow s (.reset cut) (execReset cut s) := by
  unfold execReset
  split
  · rename_i h
    exact .softReset cut ⟨h.1, h.2.1, h.2.2.1⟩
  · exact .action _ _ _ _ (by simp) fun s => refused_self s _

theorem frameRow_wake (s : State) : FrameRow s .wake (execWake s) := by
  unfold execWake
  split
  · rename_i h
    exact .wake h
  · exact .action _ _ _ _ (by simp) fun s => accepted_done s _

/-- Every frame's row runs the frame of its kind. -/
theorem exec_frameRow {c : Instr} (hc : c.isFrame = true) (s : State) : FrameRow s c (exec c s) := by
  cases c with
  | discardedFrame | unknownCommand => exact .malformed _ _ _ (.inl rfl)
  | queryStatus n => exact .output .queryStatus n .transparent noAction (by simp) rfl
  | readEvents n => exact .output .readEvents n .plain noAction (by simp) rfl
  | deviceInfo n => exact .output .deviceInfo n .plain noAction (by simp) rfl
  | streamInfo b m n => exact .output (.streamInfo b m) n .plain _ (by simp) rfl
  | segmentInfo k n => exact .output (.segmentInfo k) n .plain noAction (by simp) rfl
  | fetch b f w k n => exact .output (.fetch b f w k) n .plain _ (by simp) rfl
  | readGuard n => exact .output .readGuard n .plain noAction (by simp) rfl
  | vaultRead p o n => exact .output (.vaultRead p o) n .plain noAction (by simp) rfl
  | identify n => exact .output .identify n .plain noAction (by simp) rfl
  | descriptor n => exact .output .descriptor n .plain noAction (by simp) rfl
  | append => exact frameRow_append s _ _ _ _
  | vaultWrite => exact frameRow_vaultWrite s _ _ _ _
  | reset cut => exact frameRow_reset s cut
  | wake => exact frameRow_wake s
  | arm => exact .action .arm .arms 1 _ (by simp) fun s => accepted_done s _
  | disarm => exact .action .disarm .plain 1 _ (by simp) fun s => accepted_done s _
  | resetEnable => exact .action .resetEnable .enables 1 _ (by simp) fun s => accepted_done s _
  | clearEvents w => exact .action (.clearEvents w) .plain 3 _ (by simp) fun s => accepted_done s _
  | setEventEnable w => exact .action (.setEventEnable w) .plain 3 _ (by simp) fun s => accepted_done s _
  | sync => exact .action .sync .plain 1 _ (by simp) fun s => accepted_done s _
  | doze => exact .action .doze .plain 1 _ (by simp) refusable_doze
  | configureStream => exact .action _ _ _ _ (by simp) (refusable_configure _ _ _ _ _ _)
  | openStream => exact .action _ _ _ _ (by simp) (refusable_open _ _)
  | closeStream => exact .action _ _ _ _ (by simp) (refusable_close _ _)
  | resetStream => exact .action _ _ _ _ (by simp) (refusable_reset _ _)
  | ack => exact .action _ _ _ _ (by simp) (refusable_ack _ _)
  | pushMark => exact .action _ _ _ _ (by simp) (refusable_push _)
  | popMark => exact .action _ _ _ _ (by simp) (refusable_pop _)
  | rewind => exact .action _ _ _ _ (by simp) (refusable_rewind _ _)
  | suspend => exact .action _ _ _ _ (by simp) refusable_suspend
  | resume => exact .action _ _ _ _ (by simp) refusable_resume
  | deviceConfig => exact .action _ _ _ _ (by simp) (refusable_deviceConfig _ _)
  | format => exact .action _ _ _ _ (by simp) (refusable_format _)
  | writeGuard => exact .action _ _ _ _ (by simp) (refusable_writeGuard _ _ _ _)
  | vaultErase => exact .action _ _ _ _ (by simp) (refusable_vaultErase _)
  | vaultLock => exact .action _ _ _ _ (by simp) (refusable_vaultLock _)
  | _ => cases hc

/-! ### Ignored frames (R25, R161) -/

/-- Where the device ignores a frame, its row does nothing but let SEL be high again, save a WAKE in DOZING (R25, R161). -/
theorem FrameRow.ignores {c : Instr} {r : Result} (h : FrameRow s c r) (hi : Ignores s) (hw : s.power = .dozing → c ≠ .wake) :
    r = .next s.endIgnored := by
  cases h with
  | action c k n body hk hb => exact actionFrame_ignores hi k n body
  | malformed c o n hc => exact malformedFrame_ignores hi o n
  | output d n k act hk hn => exact outputFrame_ignores hi k d n act
  | softReset cut hs =>
    rcases hi with (h | h | h) | ⟨-, h⟩
    · simp [hs.active] at h
    · simp [hs.active] at h
    · simp [hs.active] at h
    · simp [hs.notIgnored] at h
  | wake hp => exact absurd rfl (hw hp)

theorem exec_ignores {c : Instr} (hc : c.isFrame = true) (hi : Ignores s) (hw : s.power = .dozing → c ≠ .wake) :
    exec c s = .next s.endIgnored := (exec_frameRow hc s).ignores hi hw

/-- Where SEL falls outside ACTIVE and RECOVERING, the frame that begins is remembered as one to be ignored (R1, R25; log 11). -/
theorem exec_statusCapture_ignored (h : s.power = .off ∨ s.power = .dozing ∨ s.power = .waking) :
    exec .statusCapture s = .next { s with port := { s.port with frameIgnored := true } } := by
  rcases h with h | h | h <;> simp [exec, execStatusCapture, h]

/-- A WAKE in DOZING begins the wake phase (R161). -/
theorem exec_wake_dozing (h : s.power = .dozing) :
    exec .wake s = .next { s with port := { s.port with frameIgnored := false }, power := .waking } := by
  simp [exec, execWake, h, State.endIgnored]

/-- Settles O13: null frames, ignored frames, and the frames that no power state serves. -/
theorem framesWithoutEffect : Obligations.FramesWithoutEffect := by
  refine ⟨fun s => ⟨exec_nullFrame, rfl, exec_statusCapture_ignored⟩, fun c s hc => ⟨?asleep, exec_wake_dozing, ?remembered⟩⟩
  case asleep =>
    rintro (h | h | ⟨h, hw⟩)
    · exact exec_ignores hc (.inl (.inl h)) (by simp [h])
    · exact exec_ignores hc (.inl (.inr (.inr h))) (by simp [h])
    · exact exec_ignores hc (.inl (.inr (.inl h))) fun _ => hw
  case remembered =>
    intro h hi
    exact exec_ignores hc (.inr ⟨h, hi⟩) (by rcases h with h | h <;> simp [h])

/-! ### Malformed frames (R8, R10, R11) -/

/-- The end of a frame that is discarded or unknown. -/
theorem malformedFrame_framePort (h : Processing s) {o : OutcomeCode} (ho : o.isFrameError = true) (n : Nat) :
    malformedFrame o n s
      = .next { s with port := s.framePort n o false false, eventLatch := s.eventLatch ||| 0x4000 } := by
  rw [malformedFrame_processing h]
  simp only [State.closeFrame, State.raiseIf, ho, if_true, State.raise, FrameKind.recorded, FrameKind.latch, FrameKind.enable,
    State.framePort]
  rw [beginFrame_eq s]
  rfl

/-- Settles O16: both rows end a malformed frame. -/
theorem malformedFramesAreDiscarded : Obligations.MalformedFramesAreDiscarded := fun n _ hp hi hv =>
  ⟨malformedFrame_framePort ⟨hp, hi, hv⟩ rfl n, malformedFrame_framePort ⟨hp, hi, hv⟩ rfl n⟩

/-! ### Frames during recovery (R14) -/

theorem isFrame_of_encodeFrame {c : Instr} {bytes : List Byte} (h : encodeFrame c = some bytes) (hn : c ≠ .nullFrame) :
    c.isFrame = true := by
  unfold Instr.isFrame
  split
  · rfl
  · rfl
  · exact absurd rfl hn
  · rw [h]
    rfl

/-- A frame that no FRAME_ERROR ends changes nothing outside the port but what its body has changed. -/
theorem closeFrame_port_only {u : State} {p : Port} {o : OutcomeCode} (hu : { u with port := p } = { s with port := p })
    (ho : o.isFrameError = false) (k : FrameKind) (n : Nat) : { u.closeFrame k n o with port := s.port } = s := by
  simp only [State.closeFrame, State.raiseIf, ho]
  have h := congrArg (fun u : State => { u with port := s.port }) hu
  exact h

theorem closeFrame_refused_recovering {k : FrameKind} (hk : k ≠ .transparent) (u : State) (n : Nat) :
    (u.closeFrame k n .recovering).port.outcome = .recovering ∧ (u.closeFrame k n .recovering).port.armLatch = false
      ∧ (u.closeFrame k n .recovering).port.resetEnable = false
      ∧ (u.closeFrame k n .recovering).port.receipt = u.port.receipt
      ∧ (u.closeFrame k n .recovering).port.frameState = .idle := by
  cases k with
  | transparent => exact absurd rfl hk
  | _ => exact ⟨rfl, rfl, rfl, rfl, rfl⟩

/-- During recovery the verdict of every output command but QUERY STATUS is RECOVERING (R14). -/
theorem snapshotOf_recovering {d : OutputCommand} (hp : s.power = .recovering) (hd : d ≠ .queryStatus) :
    s.snapshotOf d = Snapshot.refusal d .recovering := if_pos ⟨hp, hd⟩

theorem outputFrame_recovering {d : OutputCommand} {n : Nat} {k : FrameKind} {act : Snapshot → State → State}
    (hp : s.power = .recovering) (hi : s.port.frameIgnored = false) (hv : s.port.snapshot = none) (hd : d ≠ .queryStatus)
    (hn : d.argBytes + 1 ≤ n) :
    outputFrame k d n act s = .next ((s.beginFrame.formVerdict d).closeFrame k n .recovering) := by
  have hpb : s.beginFrame.power = .recovering := (portOnly_beginFrame s).power.trans hp
  simp only [outputFrame, hp, hi, hv, Nat.not_lt.2 hn, or_true, if_true, if_false, Bool.false_eq_true]
  rw [snapshotOf_recovering hpb hd]
  rfl

/-- Settles O14: the frame's row, whichever it is, ends with the refusal. -/
theorem recoveringRefusesCommands : Obligations.RecoveringRefusesCommands := by
  intro c bytes s he hw hn hq hp hi hv
  have hc : c.isFrame = true := isFrame_of_encodeFrame he hn
  have hb : { s.beginFrame with port := s.port } = { s with port := s.port } := by rw [beginFrame_eq s]
  have hrow := exec_frameRow hc s
  generalize exec c s = r at hrow
  cases hrow with
  | action c k n body hk _ =>
    refine ⟨s.beginFrame.closeFrame k n .recovering, by simp [actionFrame, hp, hi, hv], closeFrame_port_only hb rfl k n, ?_⟩
    obtain ⟨h1, h2, h3, h4, h5⟩ := closeFrame_refused_recovering hk s.beginFrame n
    exact ⟨h1, h2, h3, h4.trans (beginFrame_receipt s), h5⟩
  | malformed c o n hc =>
    rcases hc with hc | hc
    · simp [hc] at he
    · simp [hc] at hw
  | output d n k act hk hd =>
    have hdq : d ≠ .queryStatus := fun h => hq n (h ▸ rfl)
    have hnn : d.argBytes + 1 ≤ n := by
      rw [hd] at hw
      simpa [outputShape] using hw
    refine ⟨_, outputFrame_recovering hp hi hv hdq hnn, ?_⟩
    obtain ⟨h1, h2, h3, h4, h5⟩ := closeFrame_refused_recovering (fun h => hdq (hk h)) (s.beginFrame.formVerdict d) n
    exact ⟨closeFrame_port_only (u := s.beginFrame.formVerdict d) hb rfl k n, h1, h2, h3, h4.trans (beginFrame_receipt s), h5⟩
  | softReset cut hs => simp [hs.active] at hp
  | wake h => simp [hp] at h

/-! ### Refused frames (R12) -/

theorem RefusalKeeps.close {u : State} (h : RefusalKeeps s u) (hr : u.port.receipt = s.port.receipt) (k : FrameKind) (n : Nat)
    (o : OutcomeCode) : RefusalKeeps s (u.closeFrame k n o) ∧ (u.closeFrame k n o).port.receipt = s.port.receipt := by
  unfold State.closeFrame State.raiseIf
  split <;> exact ⟨⟨h.others, h.streams⟩, hr⟩

theorem refusalKeeps_begin (s : State) : RefusalKeeps s s.beginFrame := by
  rw [beginFrame_eq s]
  exact ⟨rfl, fun _ => rfl⟩

theorem RefusalKeeps.trans {u v : State} (h : RefusalKeeps s u) (h' : RefusalKeeps u v) : RefusalKeeps s v := by
  refine ⟨?_, fun i => ?_⟩
  · have := congrArg (fun x : State => { x with port := s.port, eventLatch := s.eventLatch, streams := s.streams }) h'.others
    exact this.trans h.others
  · have := congrArg (fun x : Stream => { x with notices := (s.streams[i]'i.isLt).notices }) (h'.streams i)
    exact this.trans (h.streams i)

/-- The recorded outcome of an action frame. -/
theorem closeFrame_recorded {k : FrameKind} (hk : k ≠ .transparent) (u : State) (n : Nat) (o : OutcomeCode) :
    (u.closeFrame k n o).port.outcome = o := by
  unfold State.closeFrame
  rw [State.raiseIf_port]
  cases k with
  | transparent => exact absurd rfl hk
  | _ => rfl

/-- Settles O15: a body that does not accept has changed nothing but notices and latch, and neither has a frame's begin or end. -/
theorem refusedFramesChangeNothing : Obligations.RefusedFramesChangeNothing := by
  intro c bytes s t he hq hs h hd hl
  suffices hk : RefusalKeeps s t ∧ t.port.receipt = s.port.receipt from ⟨hk.1.others, hk.2, hk.1.streams⟩
  by_cases hn : c = .nullFrame
  · subst hn
    rw [exec_nullFrame hs.noVerdict] at h
    rw [eq_of_next h]
    exact ⟨⟨rfl, fun _ => rfl⟩, rfl⟩
  have hc : c.isFrame = true := isFrame_of_encodeFrame he hn
  have hrow := exec_frameRow hc s
  rw [h] at hrow
  generalize hrt : (.next t : Result) = r at hrow
  cases hrow with
  | action c k n body hk hb =>
    rw [actionFrame_serving hs] at hrt
    have ht := eq_of_next hrt.symm
    have ho : t.port.outcome = (body s.beginFrame).2 := by rw [ht, closeFrame_recorded hk]
    rcases hb s.beginFrame with hb | hb | ⟨hb, hp⟩
    · exact absurd (ho.trans hb) hd
    · exact absurd (ho.trans hb) hl
    · rw [ht]
      exact ((refusalKeeps_begin s).trans hb).close (by rw [hp, beginFrame_receipt]) k n _
  | malformed c o n _ =>
    rcases malformedFrame_cases hrt.symm with rfl | rfl | rfl
    · exact ⟨⟨rfl, fun _ => rfl⟩, rfl⟩
    · exact ⟨refusalKeeps_refl _, rfl⟩
    · exact (refusalKeeps_begin s).close (beginFrame_receipt s) _ n o
  | output d n k act hk _ =>
    have hkp : k ≠ .transparent := fun hh => hq n (by rw [hk hh]; rfl)
    rcases outputFrame_cases hrt.symm with rfl | rfl | rfl | ⟨v, hv, -, rfl⟩ | ⟨-, rfl⟩
    · exact ⟨⟨rfl, fun _ => rfl⟩, rfl⟩
    · exact ⟨refusalKeeps_refl _, rfl⟩
    · exact (refusalKeeps_begin s).close (beginFrame_receipt s) _ n _
    · rw [hs.noVerdict] at hv
      cases hv
    · rw [State.outputEnd, closeFrame_recorded hkp] at hd
      rw [State.outputEnd, if_neg hd]
      exact ((refusalKeeps_begin s).trans (v := s.beginFrame.formVerdict d) ⟨rfl, fun _ => rfl⟩).close (beginFrame_receipt s) k n _
  | softReset cut _ => exact absurd (by rw [eq_of_next hrt.symm]; rfl) hd
  | wake hp => simp [hs.active] at hp

/-! ### The bytes of a frame -/

/-- Settles O11: each word decodes by computation. -/
theorem frameBytesDecode : Obligations.FrameBytesDecode :=
  fun _ _ => ⟨rfl, rfl, rfl, rfl, rfl, rfl, rfl, rfl, rfl, rfl⟩

/-! ### DOZE and WAKE (R160, R161) -/

/-- Ledger work is pending where an image or a note is (R136). -/
theorem Ledger.workPending_of {l : Ledger} (h : l.imageNeeded = true ∨ ∃ i : StreamId, (l.pendingNotes[i]'i.isLt) = true) :
    l.workPending = true := by
  unfold Ledger.workPending Ledger.lowestNote
  rw [Bool.or_eq_true, List.find?_isSome]
  exact h.imp_right fun ⟨i, hi⟩ => ⟨i, List.mem_finRange i, hi⟩

/-- What a DOZE decides. -/
def State.dozeBody (s : State) : State × OutcomeCode :=
  if s.engine.state ≠ .idle ∨ s.ledger.workPending = true then (s, .busy) else ({ s with power := .dozing }, .done)

theorem exec_doze (s : State) : exec .doze s = actionFrame .plain 1 State.dozeBody s := rfl

/-- Settles O44: what DOZE decides, and the two rows that only change the power state. -/
theorem dozeAndWake : Obligations.DozeAndWake := by
  refine fun s => ⟨?doze, ?busy, fun h => ?active, exec_wake_dozing, fun h => by simp [exec, execWakePhaseEnd, h]⟩
  case doze =>
    intro h hi hw
    have hb : s.beginFrame.dozeBody = ({ s.beginFrame with power := .dozing }, .done) := by
      rw [beginFrame_eq s]
      exact if_neg (by simp [hi, hw])
    rw [exec_doze, actionFrame_plain h hb rfl rfl, beginFrame_eq s]
  case busy =>
    intro h hb
    have hw : s.engine.state ≠ .idle ∨ s.ledger.workPending = true := hb.imp_right Ledger.workPending_of
    exact actionFrame_refused (body := State.dozeBody) h (if_pos (by rw [beginFrame_eq s]; exact hw)) rfl
  case active =>
    have hr : exec .wake s = actionFrame .plain 1 (fun s => (s, .done)) s := by simp [exec, execWake, h.active]
    exact hr.trans (actionFrame_done (f := id) h (fun _ => rfl) 1)

end Sys2Proof.Machine
end

section
/-! Output frames (R4, R5, R9, R10): the status byte bit by bit, the verdict and its data, the bytes that a frame shifts out, and what
the frame's end records. Settles O18, O19, O20, O21, O28. -/

namespace Sys2Proof.Machine

-- One proof after the other: the stacks of proofs elaborated side by side come near the memory that a check may take.
set_option Elab.async false

open Sys2Proof

variable {s : State}

/-! ### The status byte (R5) -/

theorem State.anyFaulted_iff : s.anyFaulted = true ↔ ∃ i : StreamId, (s.streams[i]'i.isLt).state = .faulted := by
  simp only [State.anyFaulted, List.any_eq_true, Vector.mem_toList_iff, beq_iff_eq]
  constructor
  · rintro ⟨t, ht, hf⟩
    obtain ⟨n, hn, rfl⟩ := Vector.mem_iff_getElem.1 ht
    exact ⟨⟨n, hn⟩, hf⟩
  · rintro ⟨i, hi⟩
    exact ⟨(s.streams[i]'i.isLt), Vector.getElem_mem i.isLt, hi⟩

/-- A status bit that a flag sets. -/
theorem flagBit (b : Bool) (v : Byte) (n : Nat) : (if b = true then v else 0).getLsbD n = (b && v.getLsbD n) := by
  cases b <;> simp

/-- The bits of the status byte outside recovery, one flag each. -/
theorem statusByte_getLsbD (h : s.power ≠ .recovering) (n : Nat) : s.statusByte.getLsbD n =
    (((s.anyFaulted || s.ledger.halted) && (0x80 : Byte).getLsbD n) || (s.port.resetEnable && (0x20 : Byte).getLsbD n)
      || (s.alertLow && (0x10 : Byte).getLsbD n) || (s.port.armLatch && (0x08 : Byte).getLsbD n)
      || (!s.staging.isEmpty && (0x04 : Byte).getLsbD n) || (decide (s.engine.state = .suspended) && (0x02 : Byte).getLsbD n)
      || (s.engine.runs && (0x01 : Byte).getLsbD n)) := by
  have hstg : (if s.staging.isEmpty = true then (0 : Byte) else 0x04) = if (!s.staging.isEmpty) = true then 0x04 else 0 := by
    cases s.staging.isEmpty <;> rfl
  have hsus : (if s.engine.state = .suspended then (0x02 : Byte) else 0)
      = if decide (s.engine.state = .suspended) = true then 0x02 else 0 := by simp
  unfold State.statusByte
  rw [if_neg h, hstg, hsus]
  simp only [BitVec.getLsbD_or, flagBit]

theorem exec_statusCapture_idle (hp : s.power = .active ∨ s.power = .recovering) (hi : s.port.frameState = .idle) :
    exec .statusCapture s = .next s.capture := by
  rcases hp with hp | hp <;> simp [exec, execStatusCapture, hp, hi]

/-- Settles O19: the capture takes the status byte as `statusByte` has it, whose bits are read off flag by flag. -/
theorem statusCaptureAtSelFalling : Obligations.StatusCaptureAtSelFalling := by
  refine ⟨fun s hp hi => ?active, fun s hp hi => ?recovering⟩
  case active =>
    have hr : s.power ≠ .recovering := by simp [hp]
    have hbit := statusByte_getLsbD hr
    have halert : s.alertLow = true ↔ s.eventLatch &&& s.eventEnable ≠ 0 := bne_iff_ne
    have hruns : s.engine.runs = true ↔ s.engine.state = .running ∨ s.engine.state = .suspendPending := by
      simp [Engine.runs]
    refine ⟨_, exec_statusCapture_idle (.inl hp) hi, rfl, rfl, rfl, rfl, ?_⟩
    show (s.statusByte.getLsbD 7 = true ↔ _) ∧ s.statusByte.getLsbD 6 = false ∧ s.statusByte.getLsbD 5 = _
      ∧ (s.statusByte.getLsbD 4 = true ↔ _) ∧ s.statusByte.getLsbD 3 = _ ∧ (s.statusByte.getLsbD 2 = true ↔ _)
      ∧ (s.statusByte.getLsbD 1 = true ↔ _) ∧ (s.statusByte.getLsbD 0 = true ↔ _)
    rw [hbit 7, hbit 6, hbit 5, hbit 4, hbit 3, hbit 2, hbit 1, hbit 0, ← halert, ← hruns, ← State.anyFaulted_iff]
    simp
  case recovering =>
    exact ⟨_, exec_statusCapture_idle (.inr hp) hi, rfl, rfl, rfl, rfl, if_pos hp⟩

/-! ### Verdicts (R9, R13, R14) -/

/-- What every verdict holds: its command, and no data where it refuses. -/
structure Snapshot.For (n : Snapshot) (c : OutputCommand) : Prop where
  command : n.command = c
  refused : n.verdict ≠ .done → n.data = []
  noFrameError : n.verdict.isFrameError = false

theorem refusal_for (c : OutputCommand) {o : OutcomeCode} (ho : o.isFrameError = false) : (Snapshot.refusal c o).For c :=
  ⟨rfl, fun _ => rfl, ho⟩

theorem answer_for (c : OutputCommand) (d : List Byte) : (Snapshot.answer c d).For c := ⟨rfl, fun h => absurd rfl h, rfl⟩

theorem resolve_isFrameError (l : Locator) (t : Stream) (q : Int) : (l.resolve t q).isFrameError = false := by
  unfold Locator.resolve
  split
  · rfl
  · split
    · split <;> rfl
    · rfl

theorem fetchSnapshot_for (s : State) (c : OutputCommand) (b f : Byte) (w : Word32) (k : Byte) : (s.fetchSnapshot c b f w k).For c := by
  unfold State.fetchSnapshot
  split
  · exact refusal_for c rfl
  · split
    · exact refusal_for c rfl
    · split
      · exact refusal_for c rfl
      · split
        · exact refusal_for c rfl
        · split
          · exact refusal_for c rfl
          · split
            · exact ⟨rfl, fun h => absurd rfl h, rfl⟩
            · exact refusal_for c (resolve_isFrameError _ _ _)

theorem streamInfoSnapshot_for (s : State) (c : OutputCommand) (b : Byte) : (s.streamInfoSnapshot c b).For c := by
  unfold State.streamInfoSnapshot
  split
  · exact refusal_for c rfl
  · exact ⟨rfl, fun h => absurd rfl h, rfl⟩

theorem vaultSnapshot_for (s : State) (c : OutputCommand) (p o : Byte) : (s.vaultSnapshot c p o).For c := by
  unfold State.vaultSnapshot
  split
  · exact refusal_for c rfl
  · split
    · exact refusal_for c rfl
    · split
      · exact refusal_for c rfl
      · exact ⟨rfl, fun h => absurd rfl h, rfl⟩

theorem activeSnapshot_for (s : State) (c : OutputCommand) : (s.activeSnapshot c).For c := by
  unfold State.activeSnapshot
  split
  case h_4 => exact streamInfoSnapshot_for s _ _
  case h_6 => exact fetchSnapshot_for s _ _ _ _ _
  case h_8 => exact vaultSnapshot_for s _ _ _
  case h_5 =>
    split
    · exact refusal_for _ rfl
    · exact answer_for _ _
  all_goals exact answer_for _ _

theorem snapshotOf_for (s : State) (c : OutputCommand) : (s.snapshotOf c).For c := by
  unfold State.snapshotOf
  split
  · exact refusal_for c rfl
  · exact activeSnapshot_for s c

/-- DEVICE INFO does not look at the port. -/
theorem State.deviceInfo_setPort (s : State) (p : Port) : State.deviceInfo { s with port := p } = s.deviceInfo := by
  have hseg (l : Location) : State.segmentsAt { s with port := p } l = s.segmentsAt l := rfl
  have havail : State.available { s with port := p } = s.available := rfl
  have hflags : State.deviceFlags { s with port := p } = s.deviceFlags := rfl
  have hstaged : State.stagedBytes { s with port := p } = s.stagedBytes := rfl
  have hreserved : State.totalReserved { s with port := p } = s.totalReserved := rfl
  simp only [State.deviceInfo, hseg, havail, hflags, hstaged, hreserved]

/-- A verdict does not look at the port, but for the receipt that QUERY STATUS shows. -/
theorem snapshotOf_setPort (s : State) (c : OutputCommand) {p : Port} (hp : p.receipt = s.port.receipt) :
    State.snapshotOf { s with port := p } c = s.snapshotOf c := by
  cases c with
  | queryStatus =>
    show (if s.power = .recovering ∧ _ then _ else Snapshot.answer _ (receiptBytes p.receipt)) = _
    rw [hp]
    rfl
  | deviceInfo => simp only [State.snapshotOf, State.activeSnapshot, State.deviceInfo_setPort]
  | _ => rfl

theorem snapshotOf_beginFrame (s : State) (c : OutputCommand) : s.beginFrame.snapshotOf c = s.snapshotOf c := by
  rw [beginFrame_eq s]
  exact snapshotOf_setPort s c (beginFrame_receipt s)

theorem snapshotOf_active (h : s.power = .active) (c : OutputCommand) : s.snapshotOf c = s.activeSnapshot c :=
  if_neg (by simp [h])

theorem snapshotOf_queryStatus (s : State) :
    s.snapshotOf .queryStatus = Snapshot.answer .queryStatus (receiptBytes s.port.receipt) := if_neg (by simp)

/-! ### The bytes that an output frame shifts out (R4) -/

/-- The bytes of an output frame of `n` bytes: the two captures, 00h up to the verdict's position, the verdict, the data, 00h. -/
def shownBytes (a b : Byte) (n position : Nat) (verdict : Byte) (data : List Byte) : List Byte :=
  ([a, b] ++ List.replicate (position - 2) 0 ++ verdict :: data ++ List.replicate n 0).take n

theorem getD_zeros (n j : Nat) : (List.replicate n (0 : Byte)).getD j 0 = 0 := by
  rw [List.getD_eq_getElem?_getD, List.getElem?_replicate]
  split <;> rfl

theorem getD_append_replicate (d : List Byte) (n j : Nat) : (d ++ List.replicate n 0).getD j 0 = d.getD j 0 := by
  rcases Nat.lt_or_ge j d.length with h | h
  · rw [List.getD_append _ _ _ _ h]
  · rw [List.getD_append_right _ _ _ _ h, List.getD_eq_default d 0 h, getD_zeros]

theorem shownBytes_length (a b : Byte) (n position : Nat) (verdict : Byte) (data : List Byte) :
    (shownBytes a b n position verdict data).length = n := by
  simp only [shownBytes, List.length_take, List.length_append, List.length_cons, List.length_replicate]
  omega

/-- Where a byte of the frame comes from. -/
theorem shownBytes_getD (a b : Byte) {n position : Nat} (verdict : Byte) (data : List Byte) {j : Nat} (hj : j < n)
    (hp : 2 ≤ position) : (shownBytes a b n position verdict data).getD j 0
      = if j = 0 then a else if j = 1 then b else if j < position then 0 else if j = position then verdict
        else data.getD (j - position - 1) 0 := by
  unfold shownBytes
  rw [List.getD_eq_getElem?_getD, List.getElem?_take_of_lt hj, ← List.getD_eq_getElem?_getD, getD_append_replicate,
    List.append_assoc]
  match j with
  | 0 => rfl
  | 1 => rfl
  | j + 2 =>
    rw [if_neg (by omega), if_neg (by omega)]
    show (List.replicate (position - 2) 0 ++ verdict :: data).getD j 0 = _
    rcases Nat.lt_or_ge j (position - 2) with h | h
    · rw [List.getD_append _ _ _ _ (by simpa using h), getD_zeros, if_pos (by omega)]
    · rw [List.getD_append_right _ _ _ _ (by simpa using h), List.length_replicate, if_neg (by omega)]
      rcases Nat.eq_or_lt_of_le h with h | h
      · rw [if_pos (by omega), ← h, Nat.sub_self]
        rfl
      · obtain ⟨m, hm⟩ : ∃ m, j - (position - 2) = m + 1 := ⟨j - (position - 2) - 1, by omega⟩
        rw [if_neg (by omega), hm, show j + 2 - position - 1 = m by omega]
        rfl

theorem two_le_positionOfVerdict (c : OutputCommand) : 2 ≤ positionOfVerdict c := Nat.le_max_left _ _

/-- The bytes that the frame shifts out once a verdict that does not cycle has been formed. -/
theorem frameOutput_eq {p : Port} {v : Snapshot} (hs : p.snapshot = some v) (hc : v.cyclic = false)
    (hd : v.verdict ≠ .done → v.data = []) (n : Nat) : p.frameOutput n
      = shownBytes p.statusByte p.outcomeByte n (positionOfVerdict v.command) v.verdict.byte v.data := by
  refine List.ext_getElem (by simp [Port.frameOutput, shownBytes_length]) fun j hj hj' => ?_
  have hjn : j < n := by simpa [Port.frameOutput] using hj
  rw [← List.getD_eq_getElem (d := 0) (hn := hj'), shownBytes_getD _ _ _ _ hjn (two_le_positionOfVerdict _)]
  have hdata : v.dataByte (j - positionOfVerdict v.command - 1) = v.data.getD (j - positionOfVerdict v.command - 1) 0 := by
    unfold Snapshot.dataByte
    rw [hc]
    split
    · rfl
    · rename_i hv
      rw [hd hv]
      rfl
  simp only [Port.frameOutput, List.getElem_map, List.getElem_range, Port.outByte, hs, hdata]

theorem answerBytes_eq (s : State) (n position : Nat) (o : OutcomeCode) (d : List Byte) :
    answerBytes s n position o d = shownBytes s.statusByte s.port.outcome.byte n position o.byte d := rfl

/-- A frame that is just long enough shows its data whole. -/
theorem shownBytes_whole (a b : Byte) {n position : Nat} (verdict : Byte) {data : List Byte} (hp : 2 ≤ position)
    (hn : n = position + 1 + data.length) : shownBytes a b n position verdict data
      = [a, b] ++ List.replicate (position - 2) 0 ++ verdict :: data := by
  unfold shownBytes
  rw [List.take_append_of_le_length (by simp; omega), List.take_of_length_le (by simp; omega)]

/-! ### The frame of an output command (R9, R10, R12) -/

/-- An output frame of a serving device whose SEL-high action does nothing. -/
theorem outputFrame_close (h : Serving s) {c : OutputCommand} {n : Nat} (hn : c.argBytes + 1 ≤ n) (k : FrameKind)
    {act : Snapshot → State → State} (ha : (s.snapshotOf c).verdict = .done → ∀ u, act (s.snapshotOf c) u = u) :
    outputFrame k c n act s = .next ((s.beginFrame.formVerdict c).closeFrame k n (s.snapshotOf c).verdict) := by
  rw [outputFrame_serving h hn, snapshotOf_beginFrame, State.outputEnd]
  split
  · rename_i hd
    rw [ha hd]
  · rfl

/-- What the end of an output frame leaves outside the port: all that was there. -/
theorem outputClose_only (s : State) {o : OutcomeCode} (ho : o.isFrameError = false) (c : OutputCommand) (k : FrameKind) (n : Nat) :
    { (s.beginFrame.formVerdict c).closeFrame k n o with port := s.port } = s := by
  have hb : { s.beginFrame.formVerdict c with port := s.port } = { s with port := s.port } := by
    rw [beginFrame_eq s]
    rfl
  exact closeFrame_port_only hb ho k n

/-- The bytes of an output frame that begins with its row. -/
theorem formVerdict_frameOutput (hi : s.port.frameState = .idle) {c : OutputCommand} (hc : (s.snapshotOf c).cyclic = false) (n : Nat) :
    (s.beginFrame.formVerdict c).port.frameOutput n
      = answerBytes s n (positionOfVerdict c) (s.snapshotOf c).verdict (s.snapshotOf c).data := by
  have hf := snapshotOf_for s c
  have hs : (s.beginFrame.formVerdict c).port.snapshot = some (s.snapshotOf c) := by
    rw [← snapshotOf_beginFrame]
    rfl
  rw [frameOutput_eq hs hc hf.refused, hf.command, answerBytes_eq]
  have hb : s.beginFrame = s.capture := if_pos hi
  rw [hb]
  rfl

theorem closeFrame_sout (u : State) (k : FrameKind) (n : Nat) (o : OutcomeCode) :
    (u.closeFrame k n o).port.sout = u.port.frameOutput n := by
  unfold State.closeFrame
  rw [State.raiseIf_port]

@[simp] theorem closeFrame_receipt (u : State) (k : FrameKind) (n : Nat) (o : OutcomeCode) :
    (u.closeFrame k n o).port.receipt = u.port.receipt := by
  unfold State.closeFrame
  rw [State.raiseIf_port]

@[simp] theorem closeFrame_frameState (u : State) (k : FrameKind) (n : Nat) (o : OutcomeCode) :
    (u.closeFrame k n o).port.frameState = .idle := by
  unfold State.closeFrame
  rw [State.raiseIf_port]

@[simp] theorem closeFrame_byteCounter (u : State) (k : FrameKind) (n : Nat) (o : OutcomeCode) :
    (u.closeFrame k n o).port.byteCounter = n := by
  unfold State.closeFrame
  rw [State.raiseIf_port]

/-- What a plain output frame answers, whatever its SEL-high action makes of the state outside the port. -/
theorem answers_closeFrame {c : OutputCommand} (hc : (s.snapshotOf c).cyclic = false) {u : State}
    (hu : u.port = (s.beginFrame.formVerdict c).port) (n : Nat) :
    Answers s (u.closeFrame .plain n (s.snapshotOf c).verdict) n (positionOfVerdict c) (s.snapshotOf c).verdict
      (s.snapshotOf c).data where
  outcome := closeFrame_outcome _ _ _
  armLatch := by rw [closeFrame_armLatch]; rfl
  resetEnable := by rw [closeFrame_resetEnable]; rfl
  receipt := by rw [closeFrame_receipt, hu]; exact beginFrame_receipt s
  idle := closeFrame_frameState _ _ _ _
  sout hi := by rw [closeFrame_sout, hu, formVerdict_frameOutput hi hc]

/-- An output frame whose verdict refuses. -/
theorem outputRefuses_of (h : Serving s) {c : OutputCommand} {n : Nat} (hn : c.argBytes + 1 ≤ n) {i : Instr}
    {act : Snapshot → State → State} (hi : exec i s = outputFrame .plain c n act s) {o : OutcomeCode}
    (ho : s.snapshotOf c = Snapshot.refusal c o) (hd : o ≠ .done) (hf : o.isFrameError = false) :
    OutputRefuses i s n (positionOfVerdict c) o := by
  have hv : (s.snapshotOf c).verdict = o := by rw [ho]; rfl
  have ha := answers_closeFrame (s := s) (c := c) (by rw [ho]; rfl) (u := s.beginFrame.formVerdict c) rfl n
  refine ⟨_, hi.trans (outputFrame_close h hn .plain fun h' => absurd (hv ▸ h') hd), ?_, ?_⟩
  · exact outputClose_only s (hv ▸ hf) c .plain n
  · rw [hv] at ha ⊢
    rw [ho] at ha
    exact ha

/-! ### QUERY STATUS (R17) -/

theorem receiptBytes_length (r : Option (StreamId × Nat)) : (receiptBytes r).length = 5 := by
  cases r <;> rfl

/-- Bytes beyond the data are 00h. -/
theorem shownBytes_padded (a b : Byte) (n : Nat) (verdict : Byte) (data : List Byte) (hn : 3 + data.length ≤ n) :
    shownBytes a b n 2 verdict data = [a, b, verdict] ++ data ++ List.replicate (n - (3 + data.length)) 0 := by
  have hl : ([a, b] ++ List.replicate (2 - 2) 0 ++ verdict :: data).length = 3 + data.length := by simp; omega
  unfold shownBytes
  rw [List.take_append, hl, List.take_of_length_le (by omega), List.take_replicate,
    Nat.min_eq_left (Nat.sub_le n (3 + data.length))]
  rfl

/-- Settles O18: the frame of QUERY STATUS with its data shifted out. -/
theorem queryStatusIsTransparent : Obligations.QueryStatusIsTransparent := by
  intro n s hp hi hv hn hf
  have hrow : exec (.queryStatus n) s
      = .next ((s.beginFrame.formVerdict .queryStatus).closeFrame .transparent n (s.snapshotOf .queryStatus).verdict) := by
    have hnn : ¬ n < OutputCommand.queryStatus.argBytes + 1 := by
      show ¬ n < 0 + 1
      omega
    simp only [exec, execQueryStatus, outputFrame, if_pos hp, hi, hv, if_neg hnn, Bool.false_eq_true, if_false,
      snapshotOf_beginFrame]
    unfold State.outputEnd noAction
    rw [ite_self]
  refine ⟨_, hrow, outputClose_only s (snapshotOf_for s _).noFrameError _ _ _, ?_, ?_, ?_, ?_, ?_⟩
  · unfold State.closeFrame
    rw [State.raiseIf_port]
    exact beginFrame_outcome s
  · rw [closeFrame_armLatch]
    exact beginFrame_armLatch s
  · rw [closeFrame_receipt]
    exact beginFrame_receipt s
  · rw [closeFrame_resetEnable]
    rfl
  · rw [closeFrame_sout, formVerdict_frameOutput hf (by rw [snapshotOf_queryStatus]; rfl), snapshotOf_queryStatus, answerBytes_eq]
    have h := shownBytes_padded s.statusByte s.port.outcome.byte n OutcomeCode.done.byte (receiptBytes s.port.receipt)
      (by rw [receiptBytes_length]; omega)
    rw [receiptBytes_length] at h
    exact h

end Sys2Proof.Machine
end

section
/-! The rows that end an output command's frame (R9, R10, R12): what a formed verdict does, the information commands, STREAM INFO.
Settles O20, O21, O28. -/

namespace Sys2Proof.Machine

-- One proof after the other: the stacks of proofs elaborated side by side come near the memory that a check may take.
set_option Elab.async false

open Sys2Proof

variable {s : State}

/-! ### The row of an output command -/

/-- How the frame of an output command treats the outcome register and the arm latch (R17). -/
def frameKindOfOutput : OutputCommand → FrameKind
  | .queryStatus => .transparent
  | _ => .plain

/-- The SEL-high action of an output command's frame (R48, R78). -/
def outputAct (bytes : Nat) : OutputCommand → Snapshot → State → State
  | .streamInfo b m => State.clearNotices b m bytes
  | .fetch b f _ _ => State.advanceCursor b f bytes
  | _ => noAction

theorem exec_outputRow (c : OutputCommand) (n : Nat) (s : State) :
    exec (c.row n) s = outputFrame (frameKindOfOutput c) c n (outputAct n c) s := by
  cases c <;> rfl

theorem frameKindOfOutput_plain {c : OutputCommand} (h : c ≠ .queryStatus) : frameKindOfOutput c = .plain := by
  unfold frameKindOfOutput
  split
  · exact absurd rfl h
  · rfl

/-- Only STREAM INFO and FETCH act at SEL high. -/
theorem outputAct_eq {n : Nat} {c : OutputCommand} (hf : ∀ b f w k, c ≠ .fetch b f w k) (hi : ∀ b m, c ≠ .streamInfo b m) :
    outputAct n c = noAction := by
  unfold outputAct
  split
  · exact absurd rfl (hi _ _)
  · exact absurd rfl (hf _ _ _ _)
  · rfl

theorem outputAct_port (n : Nat) (c : OutputCommand) (v : Snapshot) (u : State) : (outputAct n c v u).port = u.port := by
  unfold outputAct State.clearNotices State.advanceCursor noAction
  split
  · split
    · rfl
    · split <;> rfl
  · split
    · rfl
    · split
      · rw [State.evalUnread_eq]
        rfl
      · rfl
  · rfl

/-- The end of a frame changes the port alone where no FRAME_ERROR is raised. -/
theorem closeFrame_setPort (u : State) {o : OutcomeCode} (ho : o.isFrameError = false) (k : FrameKind) (n : Nat) (p : Port) :
    { u.closeFrame k n o with port := p } = { u with port := p } := by
  simp [State.closeFrame, State.raiseIf, ho]

/-! ### A verdict that has been formed (R9) -/

theorem exec_verdict_formed {v : Snapshot} (h : s.port.snapshot = some v) (c : OutputCommand) : exec (.verdict c) s = .next s :=
  if_neg (by simp [h])

/-- The end of the frame whose verdict has been formed. -/
theorem exec_formedRow (hp : s.power = .active ∨ s.power = .recovering) (hi : s.port.frameIgnored = false) {v : Snapshot}
    (hv : s.port.snapshot = some v) (n : Nat) : exec (v.command.row n) s
      = .next ((if v.verdict = .done then outputAct n v.command v s else s).closeFrame (frameKindOfOutput v.command) n v.verdict) := by
  rw [exec_outputRow]
  simp only [outputFrame, if_pos hp, hi, hv, if_true, Bool.false_eq_true, if_false]
  rfl

/-- Steps leave the verdict of the frame at hand. -/
theorem exec_step_snapshot {j : Instr} {t : State} (hj : j.jobStep = true ∨ j.formatStep = true) (h : exec j s = .next t) :
    t.port.snapshot = s.port.snapshot := by
  rcases hj with hj | hj
  · rw [jobStep_port hj h]
  · rcases formatStep_portKept hj h with h | h <;> rw [h]

/-- Settles O20: the verdict is the snapshot of the state as the frame finds it; its row ends the frame with `closeFrame`. -/
theorem verdictIsFixed : Obligations.VerdictIsFixed := by
  refine ⟨fun c s h => if_neg ?notServed, fun c s hp hi => ⟨fun hv => ?formed, ?snapshot, fun v hv => ⟨?later, ?steps, ?ends⟩⟩⟩
  case notServed =>
    rintro ⟨hp, hi, -⟩
    rcases h with ⟨h1, h2⟩ | h
    · exact hp.elim h1 h2
    · simp [h] at hi
  case formed =>
    have hb : { s.beginFrame.formVerdict c with port := s.port } = s := by
      rw [beginFrame_eq s]
      rfl
    refine ⟨_, if_pos ⟨hp, hi, hv⟩, hb, rfl, ?_, rfl, beginFrame_outcome s, beginFrame_armLatch s, beginFrame_resetEnable s,
      beginFrame_receipt s, fun hf => ?_, fun hf => ?_⟩
    · exact congrArg some (snapshotOf_beginFrame s c)
    · rw [show s.beginFrame = s.capture from if_pos hf]
      exact ⟨rfl, rfl⟩
    · rw [show s.beginFrame = s from if_neg hf]
      exact ⟨rfl, rfl⟩
  case snapshot =>
    have hf := snapshotOf_for s c
    refine ⟨hf.command, hf.refused, fun hr hc => ?_, fun _ hc => ?_⟩
    · rw [snapshotOf_recovering hr hc]
      rfl
    · rw [hc, snapshotOf_queryStatus]
      rfl
  case later => exact exec_verdict_formed hv
  case steps =>
    intro j t hj h
    rw [exec_step_snapshot hj h, hv]
  case ends =>
    rintro rfl n
    refine ⟨_, exec_formedRow hp hi hv n, ?_, closeFrame_snapshot _ _ _ _, closeFrame_frameState _ _ _ _,
      closeFrame_byteCounter _ _ _ _, ?_, ?_, fun hc => ?_, fun hc => ?_, fun he h => ?_⟩
    all_goals generalize hu : (if v.verdict = .done then outputAct n v.command v s else s) = u
    all_goals
      have hup : u.port = s.port := by
        rw [← hu]
        split
        · exact outputAct_port n _ v s
        · rfl
    · rw [closeFrame_sout, hup]
    · rw [closeFrame_resetEnable]
      unfold frameKindOfOutput
      split <;> rfl
    · rw [closeFrame_receipt, hup]
    · rw [frameKindOfOutput_plain hc, closeFrame_outcome, closeFrame_armLatch]
      exact ⟨rfl, rfl⟩
    · rw [hc]
      unfold State.closeFrame
      rw [State.raiseIf_port, hup]
      exact ⟨rfl, rfl⟩
    · have hus : u = s := by
        rw [← hu]
        split
        · rename_i hd
          rcases h with h | ⟨hf, hi⟩
          · exact absurd hd h
          · rw [outputAct_eq hf hi]
            rfl
        · rfl
      rw [closeFrame_setPort _ he, hus]

/-! ### Information commands (R105, R106, R172, R180, R181, R184, R185) -/

/-- An information command that answers DONE changes nothing outside the port. -/
theorem exec_information_done (h : Serving s) {c : OutputCommand} {n : Nat} (hn : c.argBytes + 1 ≤ n) (hq : c ≠ .queryStatus)
    (ha : outputAct n c = noAction) (hv : (s.snapshotOf c).verdict = .done) :
    ∃ t, exec (c.row n) s = .next t ∧ { t with port := s.port } = s ∧ t.port.outcome = .done ∧ t.port.armLatch = false
      ∧ t.port.resetEnable = false ∧ t.port.receipt = s.port.receipt := by
  have hrow : exec (c.row n) s = .next ((s.beginFrame.formVerdict c).closeFrame .plain n (s.snapshotOf c).verdict) := by
    rw [exec_outputRow, ha, frameKindOfOutput_plain hq, outputFrame_close h hn]
    exact fun _ _ => rfl
  refine ⟨_, hrow, outputClose_only s (snapshotOf_for s c).noFrameError c .plain n, ?_, ?_, ?_, ?_⟩
  · rw [closeFrame_outcome, hv]
  · rw [closeFrame_armLatch]
    rfl
  · rw [closeFrame_resetEnable]
    rfl
  · rw [closeFrame_receipt]
    exact beginFrame_receipt s

/-- A page argument below 4 names its page. -/
theorem pageOf_of_toNat {b : Byte} {p : Fin 4} (h : b.toNat = p.val) : pageOf b = some p := by
  unfold pageOf
  have := p.isLt
  simp [h]

theorem pageOf_eq_none {b : Byte} (h : 4 ≤ b.toNat) : pageOf b = none := dif_neg (Nat.not_lt.2 h)

theorem snapshotOf_vaultRead (hp : s.power = .active) {p o : Byte} {g : Fin 4} (hg : p.toNat = g.val) (ho : o.toNat < 128)
    (hv : s.engine.vaultRuns = false) : s.snapshotOf (.vaultRead p o)
      = { Snapshot.answer (.vaultRead p o) (s.pageFrom g o.toNat) with cyclic := true } := by
  rw [snapshotOf_active hp]
  show s.vaultSnapshot _ p o = _
  unfold State.vaultSnapshot
  rw [pageOf_of_toNat hg]
  simp only [if_neg (Nat.not_le.2 ho), hv, Bool.false_eq_true, if_false]

theorem snapshotOf_vaultRead_badArgument (hp : s.power = .active) {p o : Byte} (h : 4 ≤ p.toNat ∨ 128 ≤ o.toNat) :
    s.snapshotOf (.vaultRead p o) = Snapshot.refusal (.vaultRead p o) .badArgument := by
  rw [snapshotOf_active hp]
  show s.vaultSnapshot _ p o = _
  unfold State.vaultSnapshot
  split
  · rfl
  · rename_i g hg
    rcases h with h | h
    · rw [pageOf_eq_none h] at hg
      cases hg
    · rw [if_pos h]

theorem snapshotOf_vaultRead_busy (hp : s.power = .active) {p o : Byte} (hg : p.toNat < 4) (ho : o.toNat < 128)
    (hv : s.engine.vaultRuns = true) : s.snapshotOf (.vaultRead p o) = Snapshot.refusal (.vaultRead p o) .busy := by
  rw [snapshotOf_active hp]
  show s.vaultSnapshot _ p o = _
  unfold State.vaultSnapshot
  rw [pageOf_of_toNat (p := ⟨p.toNat, hg⟩) rfl]
  simp only [if_neg (Nat.not_le.2 ho), hv, if_true]

theorem snapshotOf_segmentInfo (hp : s.power = .active) {k : Word16} (hk : k.toNat < 512) :
    s.snapshotOf (.segmentInfo k) = Snapshot.answer (.segmentInfo k) (s.segmentDescriptor k.toNat) := by
  rw [snapshotOf_active hp]
  exact if_neg (Nat.not_le.2 hk)

theorem snapshotOf_segmentInfo_badArgument (hp : s.power = .active) {k : Word16} (hk : 512 ≤ k.toNat) :
    s.snapshotOf (.segmentInfo k) = Snapshot.refusal (.segmentInfo k) .badArgument := by
  rw [snapshotOf_active hp]
  exact if_pos hk

/-- Settles O21: each verdict is DONE or the refusal that its arguments call for, and no information command acts at SEL high. -/
theorem informationCommandsChangeNothing : Obligations.InformationCommandsChangeNothing := by
  refine ⟨fun c s h hw hc => ?done, fun s n h hn => ⟨fun k hk => ?segment, fun p o => ⟨fun hb => ?page, fun hp ho hv => ?busy⟩⟩⟩
  case done =>
    obtain ⟨n, hc⟩ := hc
    rcases hc with rfl | rfl | rfl | rfl | rfl | ⟨k, hk, rfl⟩ | ⟨p, o, hp, ho, hv, rfl⟩
    · exact exec_information_done h (c := .readEvents) (of_decide_eq_true hw) (by simp) rfl
        (by rw [snapshotOf_active h.active]; rfl)
    · exact exec_information_done h (c := .deviceInfo) (of_decide_eq_true hw) (by simp) rfl
        (by rw [snapshotOf_active h.active]; rfl)
    · exact exec_information_done h (c := .readGuard) (of_decide_eq_true hw) (by simp) rfl
        (by rw [snapshotOf_active h.active]; rfl)
    · exact exec_information_done h (c := .identify) (of_decide_eq_true hw) (by simp) rfl
        (by rw [snapshotOf_active h.active]; rfl)
    · exact exec_information_done h (c := .descriptor) (of_decide_eq_true hw) (by simp) rfl
        (by rw [snapshotOf_active h.active]; rfl)
    · exact exec_information_done h (c := .segmentInfo k) (of_decide_eq_true hw) (by simp) rfl
        (by rw [snapshotOf_segmentInfo h.active hk]; rfl)
    · exact exec_information_done h (c := .vaultRead p o) (of_decide_eq_true hw) (by simp) rfl
        (by rw [snapshotOf_vaultRead (g := ⟨p.toNat, hp⟩) h.active rfl ho hv]; rfl)
  case segment =>
    exact outputRefuses_of h (c := .segmentInfo k) hn rfl (snapshotOf_segmentInfo_badArgument h.active hk) (by simp) rfl
  case page =>
    exact outputRefuses_of h (c := .vaultRead p o) hn rfl (snapshotOf_vaultRead_badArgument h.active hb) (by simp) rfl
  case busy =>
    exact outputRefuses_of h (c := .vaultRead p o) hn rfl (snapshotOf_vaultRead_busy h.active hp ho hv) (by simp) rfl

/-! ### STREAM INFO (R46 to R48) -/

theorem snapshotOf_streamInfo (hp : s.power = .active) {b : Byte} (m : Byte) {i : StreamId} (hb : b.toNat = i.val) :
    s.snapshotOf (.streamInfo b m)
      = { Snapshot.answer (.streamInfo b m) (s.streamDescriptor i) with notices := (s.streams[i]'i.isLt).notices } := by
  rw [snapshotOf_active hp]
  show s.streamInfoSnapshot _ b = _
  unfold State.streamInfoSnapshot
  rw [streamOf_of_toNat hb]

theorem snapshotOf_streamInfo_noStream (hp : s.power = .active) {b : Byte} (m : Byte) (hb : 8 ≤ b.toNat) :
    s.snapshotOf (.streamInfo b m) = Snapshot.refusal (.streamInfo b m) .noStream := by
  rw [snapshotOf_active hp]
  show s.streamInfoSnapshot _ b = _
  unfold State.streamInfoSnapshot
  rw [streamOf_eq_none hb]

/-- What the frame of STREAM INFO clears where its notices byte is out, and that it clears nothing before. -/
theorem clearNotices_cases {b m : Byte} {i : StreamId} (hb : b.toNat = i.val) (n : Nat) (v : Snapshot) (u : State) :
    (66 ≤ n → State.clearNotices b m n v u = { u with
        streams := u.streams.set i.val { (u.streams[i]'i.isLt) with notices := (u.streams[i]'i.isLt).notices &&& ~~~(m &&& v.notices) } })
      ∧ (n < 66 → State.clearNotices b m n v u = u) := by
  unfold State.clearNotices
  rw [streamOf_of_toNat hb]
  exact ⟨fun h => if_pos h, fun h => if_neg (Nat.not_le.2 h)⟩

/-- Clearing what was shown and is named clears what is named, where all that stands was shown. -/
theorem and_not_and_self (x m : Byte) : x &&& ~~~(m &&& x) = x &&& ~~~m := by
  refine BitVec.eq_of_getLsbD_eq fun j hj => ?_
  simp only [BitVec.getLsbD_and, BitVec.getLsbD_not, hj, decide_true, Bool.true_and]
  cases x.getLsbD j <;> simp

/-- Settles O28: both ends of the frame run `clearNotices` on the verdict, the earlier one on the notices that it showed. -/
theorem streamInfoClearsShownNotices : Obligations.StreamInfoClearsShownNotices := by
  refine ⟨fun s b m n i h hb hn => ?fresh, fun s b m i hp hb => ?verdict, fun s b m n i v hp hi hv hc hd hb => ?formed,
    fun s b m n h hb hn => ?noStream⟩
  case fresh =>
    have hv := snapshotOf_streamInfo h.active m hb
    have hrow : exec (.streamInfo b m n) s = .next (State.closeFrame .plain n .done
        (State.clearNotices b m n (s.snapshotOf (.streamInfo b m)) (s.beginFrame.formVerdict (.streamInfo b m)))) := by
      have hr := outputFrame_serving (k := .plain) (act := State.clearNotices b m n) (c := .streamInfo b m) h hn
      rw [snapshotOf_beginFrame, State.outputEnd, if_pos (by rw [hv]; rfl)] at hr
      rw [hv] at hr ⊢
      exact hr
    obtain ⟨hlong, hshort⟩ := clearNotices_cases (m := m) hb n (s.snapshotOf (.streamInfo b m))
      (s.beginFrame.formVerdict (.streamInfo b m))
    have hport : (State.clearNotices b m n (s.snapshotOf (.streamInfo b m))
        (s.beginFrame.formVerdict (.streamInfo b m))).port.receipt = s.port.receipt := by
      rw [show State.clearNotices b m n = outputAct n (.streamInfo b m) from rfl, outputAct_port]
      exact beginFrame_receipt s
    refine ⟨_, hrow, closeFrame_outcome _ _ _, ?_, ?_, ?_, fun hl => ?_, fun hl => ?_⟩
    · rw [closeFrame_armLatch]
      rfl
    · rw [closeFrame_resetEnable]
      rfl
    · rw [closeFrame_receipt, hport]
    · rw [closeFrame_setPort _ rfl, hlong hl, hv, beginFrame_eq s]
      show ({ s with streams := s.streams.set i.val { (s.streams[i]'i.isLt) with
        notices := (s.streams[i]'i.isLt).notices &&& ~~~(m &&& (s.streams[i]'i.isLt).notices) } } : State) = _
      rw [and_not_and_self]
    · rw [closeFrame_setPort _ rfl, hshort hl, beginFrame_eq s]
      rfl
  case verdict =>
    rw [snapshotOf_streamInfo hp m hb]
    exact ⟨rfl, rfl, rfl⟩
  case formed =>
    have hrow := exec_formedRow (.inl hp) hi hv n
    rw [hc, hd, if_pos rfl] at hrow
    obtain ⟨hlong, hshort⟩ := clearNotices_cases (m := m) hb n v s
    have hport := outputAct_port n (.streamInfo b m) v s
    refine ⟨_, hrow, closeFrame_outcome _ _ _, ?_, ?_, ?_, fun hl => ?_, fun hl => ?_⟩
    · rw [closeFrame_armLatch]
      rfl
    · rw [closeFrame_resetEnable]
      rfl
    · rw [closeFrame_receipt, hport]
    · rw [closeFrame_setPort _ rfl]
      exact congrArg (fun u : State => { u with port := s.port }) (hlong hl)
    · rw [closeFrame_setPort _ rfl]
      exact congrArg (fun u : State => { u with port := s.port }) (hshort hl)
  case noStream =>
    refine outputRefuses_of (c := .streamInfo b m) h hn (show exec (.streamInfo b m n) s = _ from rfl)
      (snapshotOf_streamInfo_noStream h.active m hb) (by simp) rfl

end Sys2Proof.Machine
end

section
/-! Action frames that act on a few items (R31 to R33, R39, R40, R107, R129, R174, R178, R182): what the checks decide, what the
accepted command leaves, and the LEDGER job that its selection starts. Settles O23, O25, O26, O29, O30, O31, O42. -/

namespace Sys2Proof.Machine

-- One proof after the other: the stacks of proofs elaborated side by side come near the memory that a check may take.
set_option Elab.async false

open Sys2Proof

variable {s u : State}

/-! ### The frame of an action command (R12) -/

/-- A body decides something of the state before the frame, whatever the frame's captures in the port. -/
def Decides (body : State → State × OutcomeCode) (s : State) (f : State → State) (o : OutcomeCode) : Prop :=
  ∀ p : Port, p.armLatch = s.port.armLatch → body { s with port := p } = (f { s with port := p }, o)

/-- The frame of a body that refuses (R12). -/
theorem actionFrame_refuses {n : Nat} {o : OutcomeCode} {body : State → State × OutcomeCode} (h : Serving s)
    (hb : Decides body s id o) (ho : o.isFrameError = false) :
    actionFrame .plain n body s = .next { s with port := s.framePort n o false false } := by
  refine actionFrame_refused h ?_ ho
  rw [beginFrame_eq s]
  exact hb _ (beginFrame_armLatch s)

/-- The frame of a body that acts, and leaves the port (R12). -/
theorem actionFrame_acts {n : Nat} {o : OutcomeCode} {body : State → State × OutcomeCode} {f : State → State} (h : Serving s)
    (hb : Decides body s f o) (hf : ∀ u, (f u).port = u.port) (ho : o.isFrameError = false) :
    ∃ p : Port, actionFrame .plain n body s = .next { f { s with port := p } with port := s.framePort n o false false } := by
  refine ⟨s.beginFrame.port, actionFrame_plain h ?_ ho (hf _)⟩
  rw [beginFrame_eq s]
  exact hb _ (beginFrame_armLatch s)

/-! ### The guard (R176) -/

theorem Guard.permits_iff {g : Guard} {b : Bool} : g.permits b ↔ g.allows b = true := by
  unfold Guard.permits Guard.allows
  cases g.working <;> simp

theorem Guard.not_permits_iff {g : Guard} {b : Bool} : ¬ g.permits b ↔ g.allows b = false := by
  rw [Guard.permits_iff, Bool.not_eq_true]

theorem State.changeOutcome_eq (s : State) : s.changeOutcome = s.ledger.outcome := rfl

theorem Ledger.outcome_isFrameError (l : Ledger) : l.outcome.isFrameError = false := by
  rcases l.outcome_accepts with h | h <;> rw [h] <;> rfl

/-! ### The LEDGER job that a frame starts (R109, R111) -/

/-- A LEDGER job finds something to choose where ledger work is pending (R136, R137). -/
theorem Ledger.choose_of_workPending {l : Ledger} (h : l.workPending = true) : ∃ w, l.choose = some w := by
  unfold Ledger.workPending at h
  unfold Ledger.choose
  split
  · exact ⟨_, rfl⟩
  · rename_i hn
    obtain ⟨i, hi⟩ := Option.isSome_iff_exists.1 (by simpa [hn] using h)
    exact ⟨_, by rw [hi]; rfl⟩

/-- Where a frame has made ledger work pending, its selection starts the LEDGER job on an IDLE engine unless the ledger is halted,
and changes the engine alone (R111). -/
theorem selectIfIdle_woken (hs : s.engineSound = true) (hp : s.power = .active) (he : u.engine = s.engine)
    (hst : s.staging = [] → u.staging = []) (hr : u.reclaim = s.reclaim) (hh : u.ledger.halted = s.ledger.halted)
    (hw : u.ledger.workPending = true) :
    s.LedgerWoken u.selectIfIdle ∧ u.selectIfIdle = { u with engine := u.selectIfIdle.engine } := by
  have hidle : u.engine.state = .idle → u.staging = [] ∧ u.reclaim = [] ∧ u.engine.preempted = none := by
    intro hi
    rw [he] at hi ⊢
    obtain ⟨h1, h2, h3, -⟩ := noWork_of_idle hs hp hi
    exact ⟨hst h1, hr.trans h2, h3⟩
  refine ⟨⟨fun hi hl => ?starts, fun hi hl => ?halted, fun hi => ?busy⟩, selectIfIdle_engine hidle⟩
  case starts =>
    obtain ⟨w, hc⟩ := Ledger.choose_of_workPending hw
    have ht : u.ledger.trigger = true := by simp [Ledger.trigger, hw, hh, hl]
    have hsel : u.selectIfIdle = u.run (.ledger w) := by
      rw [State.selectIfIdle, if_pos (he ▸ hi), State.select, if_pos ht]
      simp only [hc]
    exact ⟨w, by rw [hsel]; exact hc, by rw [hsel, ← he]; rfl⟩
  case halted =>
    obtain ⟨h1, h2, h3⟩ := hidle (he ▸ hi)
    have ht : u.ledger.trigger = false := by simp [Ledger.trigger, hh, hl]
    have hj : s.engine.job = none := by
      simp only [State.engineSound, Engine.sound, Bool.and_eq_true, beq_iff_eq] at hs
      simpa [hi] using hs.1.1.1.1
    rw [State.selectIfIdle, if_pos (he ▸ hi)]
    rcases select_of_noWork h1 h2 h3 with ⟨h, -⟩ | ⟨-, h⟩
    · simp [ht] at h
    · rw [h]
      show ({ u.engine with state := .idle, job := none } : Engine) = s.engine
      rw [he, ← hi, ← hj]
  case busy => rw [State.selectIfIdle, if_neg (he ▸ hi), he]

/-- Image-needed is pending work (R136). -/
@[simp] theorem State.needImage_workPending (s : State) : s.needImage.ledger.workPending = true := rfl

theorem State.LedgerWoken.congr {s t v : State} (h : s.LedgerWoken t) (he : v.engine = t.engine) (hl : v.ledger = t.ledger) :
    s.LedgerWoken v :=
  ⟨fun hi hh => by
      obtain ⟨w, hc, hw⟩ := h.starts hi hh
      exact ⟨w, hl ▸ hc, he ▸ hw⟩,
    fun hi hh => he ▸ h.halted hi hh, fun hi => he ▸ h.busy hi⟩

/-- A frame command that makes an image needed and selects: what it leaves, and the engine (R31, R111). -/
theorem actionFrame_anchored {n : Nat} {body : State → State × OutcomeCode} {g : State → State} (h : Serving s)
    (hs : s.engineSound = true) (hb : Decides body s (fun u => (g u).needImage.selectIfIdle) s.ledger.outcome)
    (hg : ∀ p : Port, g { s with port := p } = { g s with port := p }) (he : (g s).engine = s.engine)
    (hst : (g s).staging = s.staging) (hr : (g s).reclaim = s.reclaim) (hl : (g s).ledger = s.ledger) :
    ∃ t, actionFrame .plain n body s = .next t ∧ { t with engine := s.engine } = { g s with
        engine := s.engine, port := s.framePort n s.changeOutcome false false
        ledger := { s.ledger with imageNeeded := true } }
      ∧ s.LedgerWoken t := by
  have hbody : body s.beginFrame = (State.selectIfIdle (State.needImage { g s with port := s.beginFrame.port }), s.ledger.outcome) := by
    rw [beginFrame_eq s, hb _ (beginFrame_armLatch s), ← hg]
  obtain ⟨hw, hsel⟩ := selectIfIdle_woken (s := s) (u := State.needImage { g s with port := s.beginFrame.port }) hs h.active he
    (fun h' => hst.trans h') hr (show (g s).ledger.halted = _ by rw [hl]) rfl
  refine ⟨_, actionFrame_plain h hbody s.ledger.outcome_isFrameError (by rw [hsel]; rfl), ?_, hw.congr rfl rfl⟩
  have hled : ({ (g s).ledger with imageNeeded := true } : Ledger) = { s.ledger with imageNeeded := true } := by rw [hl]
  rw [hsel, ← hled]
  rfl

/-! ### CLEAR EVENTS (R174) -/

/-- Settles O23: the frame clears the masked bits of the latch. -/
theorem clearEventsResult : Obligations.ClearEventsResult := by
  intro w s h
  refine ⟨_, actionFrame_done (f := fun u => { u with eventLatch := u.eventLatch &&& ~~~w }) h (fun _ => rfl) 3, rfl, fun b => ?_⟩
  show (s.eventLatch &&& ~~~w).getLsbD b = _
  rw [BitVec.getLsbD_and, BitVec.getLsbD_not]
  by_cases hb : b < 16
  · simp [hb]
  · simp [BitVec.getLsbD_of_ge s.eventLatch b (by omega)]

/-! ### CONFIGURE STREAM (R39, R40) -/

theorem policyOf_eq_some {p : Byte} {pol : Policy} : policyOf p = some pol ↔ (p = 0 ∧ pol = .block) ∨ (p = 1 ∧ pol = .wrap) := by
  unfold policyOf
  by_cases h0 : p = 0
  · subst h0
    simp [eq_comm]
  · by_cases h1 : p = 1
    · subst h1
      simp [eq_comm]
    · rw [if_neg h0, if_neg h1]
      exact ⟨(fun h => nomatch h), fun h => absurd h (not_or.2 ⟨fun h' => h0 h'.1, fun h' => h1 h'.1⟩)⟩

theorem configPolicy_legal {p : Byte} {q h : Word16} {pol : Policy}
    (hp : p = 0 ∧ pol = .block ∧ 1 ≤ q.toNat ∨ p = 1 ∧ pol = .wrap ∧ 2 ≤ q.toNat) (hq : q.toNat ≤ 510) (h1 : 1 ≤ h.toNat)
    (h2 : h.toNat ≤ q.toNat) : configPolicy p q h = some pol := by
  unfold configPolicy policyOf
  rcases hp with ⟨rfl, rfl, hm⟩ | ⟨rfl, rfl, hm⟩
  · exact if_pos ⟨hm, hq, h1, h2⟩
  · exact if_pos ⟨hm, hq, h1, h2⟩

/-- The policy, quota and high-water of a CONFIGURE STREAM are legal together just where `configPolicy` finds a policy (R39). -/
theorem configPolicy_isSome {p : Byte} {q h : Word16} : (∃ pol, configPolicy p q h = some pol) ↔ ConfigLegal p q h := by
  constructor
  · rintro ⟨pol, hc⟩
    unfold configPolicy at hc
    split at hc
    · cases hc
    · rename_i pol' hpol
      split at hc
      · rename_i hl
        rcases policyOf_eq_some.1 hpol with ⟨h0, rfl⟩ | ⟨h1, rfl⟩
        · exact ⟨.inl ⟨h0, hl.1⟩, hl.2.1, hl.2.2.1, hl.2.2.2⟩
        · exact ⟨.inr ⟨h1, hl.1⟩, hl.2.1, hl.2.2.1, hl.2.2.2⟩
      · cases hc
  · rintro ⟨hp | hp, hq, h1, h2⟩
    · exact ⟨.block, configPolicy_legal (.inl ⟨hp.1, rfl, hp.2⟩) hq h1 h2⟩
    · exact ⟨.wrap, configPolicy_legal (.inr ⟨hp.1, rfl, hp.2⟩) hq h1 h2⟩

theorem configPolicy_eq_none {p : Byte} {q h : Word16} (hc : ¬ ConfigLegal p q h) : configPolicy p q h = none := by
  cases hp : configPolicy p q h with
  | none => rfl
  | some pol => exact absurd (configPolicy_isSome.1 ⟨pol, hp⟩) hc

/-- A stream is empty just where nothing of it is staged and nothing is unacknowledged (R39). -/
theorem State.streamEmpty_iff {i : StreamId} : s.streamEmpty i = true ↔
    (∀ e ∈ s.staging, e.stream ≠ i) ∧ (s.streams[i]'i.isLt).lastCommitted = (s.streams[i]'i.isLt).volatileFrontier := by
  simp [State.streamEmpty, State.stagedCount, State.stagedOf, List.filter_eq_nil_iff]

section Configure

variable {b p : Byte} {q h l : Word16} {g : Bool} {i : StreamId}

theorem decides_configure_notArmed (ha : s.port.armLatch = false) :
    Decides (State.configureBody b p q h l g) s id .notArmed := fun _ hp => if_pos (hp.trans ha)

theorem decides_configure_noStream (ha : s.port.armLatch = true) (hb : 8 ≤ b.toNat) :
    Decides (State.configureBody b p q h l g) s id .noStream := by
  intro r hp
  simp [State.configureBody, hp, ha, streamOf_eq_none hb]

theorem decides_configure_badArgument (ha : s.port.armLatch = true) (hb : b.toNat < 8) (hc : ¬ ConfigLegal p q h) :
    Decides (State.configureBody b p q h l g) s id .badArgument := by
  intro r hp
  simp [State.configureBody, hp, ha, streamOf_of_toNat (i := ⟨b.toNat, hb⟩) rfl, configPolicy_eq_none hc]

theorem decides_configure_guarded (ha : s.port.armLatch = true) (hb : b.toNat < 8) (hc : ConfigLegal p q h)
    (hg : s.guard.allows g = false) : Decides (State.configureBody b p q h l g) s id .guarded := by
  intro r hp
  obtain ⟨pol, hpol⟩ := configPolicy_isSome.2 hc
  simp [State.configureBody, hp, ha, streamOf_of_toNat (i := ⟨b.toNat, hb⟩) rfl, hpol, hg]

theorem decides_configure_wrongState (ha : s.port.armLatch = true) (hb : b.toNat = i.val) (hc : ConfigLegal p q h)
    (hg : s.guard.allows g = true) (hs : (s.streams[i]'i.isLt).state ≠ .idle ∨ s.streamEmpty i = false) :
    Decides (State.configureBody b p q h l g) s id .wrongState := by
  intro r hp
  obtain ⟨pol, hpol⟩ := configPolicy_isSome.2 hc
  have hs' : (({ s with port := r } : State).streams[i]'i.isLt).state ≠ .idle ∨ State.streamEmpty { s with port := r } i = false := hs
  simp only [State.configureBody, hp, ha, streamOf_of_toNat hb, hpol, hg, Bool.true_eq_false, if_false, if_pos hs']
  rfl

theorem decides_configure {pol : Policy} (ha : s.port.armLatch = true) (hb : b.toNat = i.val)
    (hc : configPolicy p q h = some pol) (hg : s.guard.allows g = true) (hi : (s.streams[i]'i.isLt).state = .idle)
    (he : s.streamEmpty i = true) :
    Decides (State.configureBody b p q h l g) s (State.configure i pol q.toNat h.toNat l.toNat) s.ledger.outcome := by
  intro r hp
  have hs : ¬ ((({ s with port := r } : State).streams[i]'i.isLt).state ≠ .idle ∨ State.streamEmpty { s with port := r } i = false) := by
    rintro (hs | hs)
    · exact hs hi
    · exact Bool.false_ne_true (hs.symm.trans he)
  simp only [State.configureBody, hp, ha, streamOf_of_toNat hb, hc, hg, Bool.true_eq_false, if_false, if_neg hs]

end Configure

/-- What an accepted CONFIGURE STREAM writes before it selects. -/
def State.configured (i : StreamId) (p : Policy) (q h l : Nat) (s : State) : State :=
  (s.updStream i fun t => { t with policy := p, quota := q, highWater := h, backlog := l }).setStreamSides i

theorem State.configured_eq (s : State) (i : StreamId) (p : Policy) (q h l : Nat) : s.configured i p q h l = { s with
    streams := s.streams.set i.val { (s.streams[i]'i.isLt) with
      policy := p, quota := q, highWater := h, backlog := l
      heldAtOrAbove := decide (h ≤ (s.streams[i]'i.isLt).held), unreadAbove := decide (l < (s.streams[i]'i.isLt).unread) } } := by
  simp only [State.configured, State.setStreamSides, State.updStream_updStream]
  rfl

/-- Settles O25: the checks in their order, and the accepted command as one that makes an image needed. -/
theorem configureStreamResult : Obligations.ConfigureStreamResult := by
  refine ⟨?accepted, fun s b p q h l g hs => ⟨fun ha => ?notArmed, fun ha hb => ?noStream, fun ha hb hc => ?badArgument,
    fun ha hb hc hg => ?guarded, fun i ha hb hc hg hw => ?wrongState⟩⟩
  case accepted =>
    intro s b p q h l g i pol hs he ha hb hp hq h1 h2 hg hi hstg hlc
    have hempty : s.streamEmpty i = true := State.streamEmpty_iff.2 ⟨hstg, hlc⟩
    have hd := decides_configure (l := l) ha hb (configPolicy_legal hp hq h1 h2) (Guard.permits_iff.1 hg) hi hempty
    obtain ⟨t, ht, hte, hw⟩ := actionFrame_anchored (n := 9) (g := State.configured i pol q.toNat h.toNat l.toNat) hs he hd
      (fun _ => rfl) rfl rfl rfl rfl
    refine ⟨t, ht, ?_, hw⟩
    rw [hte, State.configured_eq]
  case notArmed => exact actionFrame_refuses hs (decides_configure_notArmed ha) rfl
  case noStream => exact actionFrame_refuses hs (decides_configure_noStream ha hb) rfl
  case badArgument => exact actionFrame_refuses hs (decides_configure_badArgument ha hb hc) rfl
  case guarded => exact actionFrame_refuses hs (decides_configure_guarded ha hb hc (Guard.not_permits_iff.1 hg)) rfl
  case wrongState =>
    refine actionFrame_refuses hs (decides_configure_wrongState ha hb hc (Guard.permits_iff.1 hg) (hw.imp_right fun hw => ?_)) rfl
    rw [Bool.eq_false_iff, ne_eq, State.streamEmpty_iff]
    rintro ⟨hstg, hlc⟩
    rcases hw with ⟨e, he, hei⟩ | hw
    · exact hstg e he hei
    · exact hw hlc

/-! ### OPEN STREAM and CLOSE STREAM (R31 to R33) -/

section OpenClose

variable {b : Byte} {g : Bool} {i : StreamId}

theorem decides_open_notArmed (ha : s.port.armLatch = false) : Decides (State.openBody b g) s id .notArmed :=
  fun _ hp => if_pos (hp.trans ha)

theorem decides_close_notArmed (ha : s.port.armLatch = false) : Decides (State.closeBody b g) s id .notArmed :=
  fun _ hp => if_pos (hp.trans ha)

theorem decides_open_noStream (ha : s.port.armLatch = true) (hb : 8 ≤ b.toNat) : Decides (State.openBody b g) s id .noStream := by
  intro r hp
  simp [State.openBody, hp, ha, streamOf_eq_none hb]

theorem decides_close_noStream (ha : s.port.armLatch = true) (hb : 8 ≤ b.toNat) : Decides (State.closeBody b g) s id .noStream := by
  intro r hp
  simp [State.closeBody, hp, ha, streamOf_eq_none hb]

theorem decides_open_guarded (ha : s.port.armLatch = true) (hb : b.toNat < 8) (hg : s.guard.allows g = false) :
    Decides (State.openBody b g) s id .guarded := by
  intro r hp
  simp [State.openBody, hp, ha, streamOf_of_toNat (i := ⟨b.toNat, hb⟩) rfl, hg]

theorem decides_close_guarded (ha : s.port.armLatch = true) (hb : b.toNat < 8) (hg : s.guard.allows g = false) :
    Decides (State.closeBody b g) s id .guarded := by
  intro r hp
  simp [State.closeBody, hp, ha, streamOf_of_toNat (i := ⟨b.toNat, hb⟩) rfl, hg]

theorem decides_open_wrongState (ha : s.port.armLatch = true) (hb : b.toNat = i.val) (hg : s.guard.allows g = true)
    (hi : (s.streams[i]'i.isLt).state ≠ .idle) : Decides (State.openBody b g) s id .wrongState := by
  intro r hp
  simp only [State.openBody, hp, ha, streamOf_of_toNat hb, hg, Bool.true_eq_false, if_false, if_pos hi]
  rfl

theorem decides_close_wrongState (ha : s.port.armLatch = true) (hb : b.toNat = i.val) (hg : s.guard.allows g = true)
    (ho : (s.streams[i]'i.isLt).state ≠ .opened) (hf : (s.streams[i]'i.isLt).state ≠ .faulted) :
    Decides (State.closeBody b g) s id .wrongState := by
  intro r hp
  have hs : (({ s with port := r } : State).streams[i]'i.isLt).state ≠ .opened
      ∧ (({ s with port := r } : State).streams[i]'i.isLt).state ≠ .faulted :=
    ⟨ho, hf⟩
  simp only [State.closeBody, hp, ha, streamOf_of_toNat hb, hg, Bool.true_eq_false, if_false, if_pos hs]
  rfl

theorem decides_open (ha : s.port.armLatch = true) (hb : b.toNat = i.val) (hg : s.guard.allows g = true)
    (hi : (s.streams[i]'i.isLt).state = .idle) : Decides (State.openBody b g) s (State.moveStream i .opened) s.ledger.outcome := by
  intro r hp
  simp only [State.openBody, hp, ha, streamOf_of_toNat hb, hg, Bool.true_eq_false, if_false, hi, ne_eq, not_true]

theorem decides_close (ha : s.port.armLatch = true) (hb : b.toNat = i.val) (hg : s.guard.allows g = true)
    (hi : (s.streams[i]'i.isLt).state = .opened ∨ (s.streams[i]'i.isLt).state = .faulted) :
    Decides (State.closeBody b g) s (State.moveStream i .idle) s.ledger.outcome := by
  intro r hp
  have hs : ¬ ((({ s with port := r } : State).streams[i]'i.isLt).state ≠ .opened
      ∧ (({ s with port := r } : State).streams[i]'i.isLt).state ≠ .faulted) := fun h => hi.elim h.1 h.2
  simp only [State.closeBody, hp, ha, streamOf_of_toNat hb, hg, Bool.true_eq_false, if_false, if_neg hs]

end OpenClose

/-- An accepted change of a stream's state: its record, image-needed, and the engine (R31, R111). -/
theorem actionFrame_moveStream {n : Nat} {body : State → State × OutcomeCode} {i : StreamId} {target : StreamState}
    (h : Serving s) (hs : s.engineSound = true) (hd : Decides body s (State.moveStream i target) s.ledger.outcome) :
    ∃ t, actionFrame .plain n body s = .next t ∧ { t with engine := s.engine } = { s with
        port := s.framePort n s.changeOutcome false false
        ledger := { s.ledger with imageNeeded := true }
        streams := s.streams.set i.val { (s.streams[i]'i.isLt) with state := target } }
      ∧ s.LedgerWoken t := by
  obtain ⟨t, ht, hte, hw⟩ := actionFrame_anchored (n := n) (g := fun u => u.updStream i fun t => { t with state := target }) h hs hd
    (fun _ => rfl) rfl rfl rfl rfl
  exact ⟨t, ht, hte, hw⟩

/-- Settles O26: the two commands by the state of the stream, and their checks in order. -/
theorem openAndCloseStream : Obligations.OpenAndCloseStream := by
  refine ⟨fun s b g i h hs ha hb hg => ?_, fun s b g c h hc => ⟨fun ha => ?notArmed, fun ha hb => ?noStream, fun ha hb hg => ?guarded⟩⟩
  · have hg' := Guard.permits_iff.1 hg
    exact ⟨fun hi => actionFrame_moveStream h hs (decides_open ha hb hg' hi),
      fun hi => actionFrame_moveStream h hs (decides_close ha hb hg' hi),
      fun hi => actionFrame_refuses h (decides_open_wrongState ha hb hg' hi) rfl,
      fun ho hf => actionFrame_refuses h (decides_close_wrongState ha hb hg' ho hf) rfl⟩
  case notArmed =>
    rcases hc with rfl | rfl
    · exact actionFrame_refuses h (decides_open_notArmed ha) rfl
    · exact actionFrame_refuses h (decides_close_notArmed ha) rfl
  case noStream =>
    rcases hc with rfl | rfl
    · exact actionFrame_refuses h (decides_open_noStream ha hb) rfl
    · exact actionFrame_refuses h (decides_close_noStream ha hb) rfl
  case guarded =>
    have hg' := Guard.not_permits_iff.1 hg
    rcases hc with rfl | rfl
    · exact actionFrame_refuses h (decides_open_guarded ha hb hg') rfl
    · exact actionFrame_refuses h (decides_close_guarded ha hb hg') rfl

/-! ### DEVICE CONFIG (R107) -/

/-- What an accepted DEVICE CONFIG writes before it selects. -/
def State.lowWaterSet (n : Nat) (s : State) : State := State.setPoolSide { s with lowWater := n }

section DeviceConfig

variable {w : Byte} {g : Bool}

theorem decides_deviceConfig_notArmed (ha : s.port.armLatch = false) : Decides (State.deviceConfigBody w g) s id .notArmed :=
  fun _ hp => if_pos (hp.trans ha)

theorem decides_deviceConfig_badArgument (ha : s.port.armLatch = true) (hw : w.toNat = 0 ∨ 64 < w.toNat) :
    Decides (State.deviceConfigBody w g) s id .badArgument := by
  intro r hp
  simp [State.deviceConfigBody, hp, ha, hw]

theorem decides_deviceConfig_guarded (ha : s.port.armLatch = true) (hw : ¬ (w.toNat = 0 ∨ 64 < w.toNat))
    (hg : s.guard.allows g = false) : Decides (State.deviceConfigBody w g) s id .guarded := by
  intro r hp
  simp only [State.deviceConfigBody, hp, ha, if_neg hw, hg, Bool.true_eq_false, if_false, if_true]
  rfl

theorem decides_deviceConfig_busy (ha : s.port.armLatch = true) (hw : ¬ (w.toNat = 0 ∨ 64 < w.toNat))
    (hg : s.guard.allows g = true) (hf : s.engine.formatRuns = true) : Decides (State.deviceConfigBody w g) s id .busy := by
  intro r hp
  simp only [State.deviceConfigBody, hp, ha, if_neg hw, hg, hf, Bool.true_eq_false, if_false, if_true]
  rfl

theorem decides_deviceConfig (ha : s.port.armLatch = true) (hw : ¬ (w.toNat = 0 ∨ 64 < w.toNat))
    (hg : s.guard.allows g = true) (hf : s.engine.formatRuns = false) :
    Decides (State.deviceConfigBody w g) s (fun u => (u.lowWaterSet w.toNat).needImage.selectIfIdle) s.ledger.outcome := by
  intro r hp
  simp only [State.deviceConfigBody, hp, ha, if_neg hw, hg, hf, Bool.true_eq_false, Bool.false_eq_true, if_false]
  rfl

end DeviceConfig

/-- Settles O29: the checks in their order, and the accepted command as one that makes an image needed. -/
theorem deviceConfigResult : Obligations.DeviceConfigResult := by
  refine ⟨fun s w g h hs ha h1 h2 hg hf => ?accepted, fun s w g h => ⟨fun ha => ?notArmed, fun ha hw => ?badArgument,
    fun ha h1 h2 hg => ?guarded, fun ha h1 h2 hg hf => ?busy⟩⟩
  case accepted =>
    exact actionFrame_anchored (n := 2) (g := State.lowWaterSet w.toNat) h hs
      (decides_deviceConfig ha (by omega) (Guard.permits_iff.1 hg) hf) (fun _ => rfl) rfl rfl rfl rfl
  case notArmed => exact actionFrame_refuses h (decides_deviceConfig_notArmed ha) rfl
  case badArgument => exact actionFrame_refuses h (decides_deviceConfig_badArgument ha hw) rfl
  case guarded => exact actionFrame_refuses h (decides_deviceConfig_guarded ha (by omega) (Guard.not_permits_iff.1 hg)) rfl
  case busy => exact actionFrame_refuses h (decides_deviceConfig_busy ha (by omega) (Guard.permits_iff.1 hg) hf) rfl

/-! ### WRITE GUARD (R178) -/

theorem lockModeOf_code (m : LockMode) : lockModeOf (lockModeCode m) = some m := by cases m <;> rfl

theorem lockModeOf_eq_none {b : Byte} (h : 4 ≤ b.toNat) : lockModeOf b = none := by
  unfold lockModeOf
  rw [if_neg, if_neg, if_neg, if_neg] <;> rintro rfl <;> revert h <;> decide

theorem flagOf_eq_none {b : Byte} (h : 2 ≤ b.toNat) : flagOf b = none := by
  unfold flagOf
  rw [if_neg, if_neg] <;> rintro rfl <;> revert h <;> decide

theorem lockModeOf_of_lt {b : Byte} (h : b.toNat < 4) : ∃ m, lockModeOf b = some m := by
  have hb : b = BitVec.ofNat 8 b.toNat := by simp
  revert h hb
  generalize b.toNat = n
  rintro h rfl
  interval_cases n <;> exact ⟨_, rfl⟩

theorem flagOf_of_lt {b : Byte} (h : b.toNat < 2) : ∃ f, flagOf b = some f := by
  have hb : b = BitVec.ofNat 8 b.toNat := by simp
  revert h hb
  generalize b.toNat = n
  rintro h rfl
  interval_cases n <;> exact ⟨_, rfl⟩

theorem flagOf_flag {f : Byte} (h : f = 0 ∨ f = 1) : flagOf f = some (f == 1) := by
  rcases h with rfl | rfl <;> rfl

section WriteGuard

variable {m l f : Byte} {g : Bool}

theorem decides_writeGuard_notArmed (ha : s.port.armLatch = false) : Decides (State.writeGuardBody m l f g) s id .notArmed :=
  fun _ hp => if_pos (hp.trans ha)

theorem decides_writeGuard_badArgument (ha : s.port.armLatch = true) (h : 4 ≤ m.toNat ∨ 2 ≤ f.toNat) :
    Decides (State.writeGuardBody m l f g) s id .badArgument := by
  intro r hp
  unfold State.writeGuardBody
  rw [if_neg (by simp [hp, ha])]
  split
  · rename_i hm hf
    rcases h with h | h
    · rw [lockModeOf_eq_none h] at hm
      cases hm
    · rw [flagOf_eq_none h] at hf
      cases hf
  · rfl

theorem decides_writeGuard_guarded (ha : s.port.armLatch = true) (hm : m.toNat < 4) (hf : f.toNat < 2)
    (hg : s.guard.allows g = false) : Decides (State.writeGuardBody m l f g) s id .guarded := by
  intro r hp
  obtain ⟨mode, hm⟩ := lockModeOf_of_lt hm
  obtain ⟨b, hf⟩ := flagOf_of_lt hf
  simp [State.writeGuardBody, hp, ha, hm, hf, hg]

/-- The written guard where it differs in no anchored field takes effect at once (R178). -/
theorem decides_writeGuard_same {mode : LockMode} (ha : s.port.armLatch = true) (hm : lockModeOf m = some mode) {b : Bool}
    (hf : flagOf f = some b) (hg : s.guard.allows g = true) (hd : s.guard.anchoredDiffers (s.guard.written mode l b) = false) :
    Decides (State.writeGuardBody m l f g) s (fun u => { u with guard := s.guard.written mode l b }) .done := by
  intro r hp
  simp [State.writeGuardBody, State.writeGuard, hp, ha, hm, hf, hg, hd]

/-- The written guard where it differs makes an image needed (R178). -/
theorem decides_writeGuard_differs {mode : LockMode} (ha : s.port.armLatch = true) (hm : lockModeOf m = some mode) {b : Bool}
    (hf : flagOf f = some b) (hg : s.guard.allows g = true) (hd : s.guard.anchoredDiffers (s.guard.written mode l b) = true) :
    Decides (State.writeGuardBody m l f g) s
      (fun u => (State.needImage { u with guard := s.guard.written mode l b }).selectIfIdle) s.ledger.outcome := by
  intro r hp
  simp [State.writeGuardBody, State.writeGuard, hp, ha, hm, hf, hg, hd]

end WriteGuard

theorem Guard.anchoredDiffers_iff {g h : Guard} : g.anchoredDiffers h = true ↔
    h.anchored ≠ g.anchored ∨ h.appendLocks ≠ g.appendLocks ∨ h.formatInhibit ≠ g.formatInhibit := by
  simp [Guard.anchoredDiffers, or_assoc, ne_comm]

/-- Settles O30: the written guard, with an image needed just where an anchored field differs. -/
theorem writeGuardResult : Obligations.WriteGuardResult := by
  refine ⟨fun s m l f g mode h hs ha hm hf hg => ?accepted, fun s m l f g h => ⟨fun ha => ?notArmed, fun ha hb => ?badArgument,
    fun ha hm hf hg => ?guarded⟩⟩
  case accepted =>
    have hm' : lockModeOf m = some mode := hm ▸ lockModeOf_code mode
    have hg' := Guard.permits_iff.1 hg
    cases hd : s.guard.anchoredDiffers (s.guard.written mode l (f == 1)) with
    | false =>
      obtain ⟨p, hrow⟩ := actionFrame_acts (n := 4) h (decides_writeGuard_same ha hm' (flagOf_flag hf) hg' hd) (fun _ => rfl) rfl
      refine ⟨_, hrow, rfl, fun _ => rfl, fun hne => ?_⟩
      have hd' := (Guard.anchoredDiffers_iff (g := s.guard) (h := s.guard.written mode l (f == 1))).2 hne
      exact absurd (hd.symm.trans hd') Bool.false_ne_true
    | true =>
      obtain ⟨t, hrow, hte, hw⟩ := actionFrame_anchored (n := 4) (g := fun u => { u with guard := s.guard.written mode l (f == 1) })
        h hs (decides_writeGuard_differs ha hm' (flagOf_flag hf) hg' hd) (fun _ => rfl) rfl rfl rfl rfl
      have htg : t.guard = s.guard.written mode l (f == 1) := congrArg (fun u : State => u.guard) hte
      rw [← htg] at hte
      refine ⟨t, hrow, htg, fun heq => ?_, fun _ => ⟨hte, hw⟩⟩
      rw [htg] at heq
      rcases Guard.anchoredDiffers_iff.1 hd with hne | hne | hne
      · exact absurd heq.1 hne
      · exact absurd heq.2.1 hne
      · exact absurd heq.2.2 hne
  case notArmed => exact actionFrame_refuses h (decides_writeGuard_notArmed ha) rfl
  case badArgument => exact actionFrame_refuses h (decides_writeGuard_badArgument ha hb) rfl
  case guarded => exact actionFrame_refuses h (decides_writeGuard_guarded ha hm hf (Guard.not_permits_iff.1 hg)) rfl

/-! ### The vault commands (R182) -/

section Vault

variable {b o n : Byte} {data : List Byte} {p : Fin 4} {w : VaultWork}

theorem startVault_busy (hi : s.engine.state ≠ .idle) : s.startVault p w = (s, .busy) := if_pos hi

theorem startVault_locked (hi : s.engine.state = .idle) (hl : (s.vaultLocks[p]'p.isLt) = true) : s.startVault p w = (s, .vaultLocked) := by
  rw [State.startVault, if_neg (by simp [hi]), if_pos hl]

theorem startVault_starts (hi : s.engine.state = .idle) (hl : (s.vaultLocks[p]'p.isLt) = false) :
    s.startVault p w = (s.run (.vault w), .done) := by
  rw [State.startVault, if_neg (by simp [hi]), if_neg (by simp [hl])]

/-- The arguments of a VAULT WRITE name bytes of one page (R182). -/
def WriteLegal (o n : Byte) : Prop := ¬ (128 ≤ o.toNat ∨ n.toNat = 0 ∨ 128 < n.toNat ∨ 128 < o.toNat + n.toNat)

theorem vaultWriteBody_start (ha : s.port.armLatch = true) (hb : b.toNat = p.val) (hw : WriteLegal o n) :
    State.vaultWriteBody b o n data s = s.startVault p (.write p o.toNat data) := by
  unfold State.vaultWriteBody
  rw [if_neg (by simp [ha]), pageOf_of_toNat hb]
  exact if_neg hw

theorem vaultEraseBody_start (ha : s.port.armLatch = true) (hb : b.toNat = p.val) :
    State.vaultEraseBody b s = s.startVault p (.erase p 0) := by
  unfold State.vaultEraseBody
  rw [if_neg (by simp [ha]), pageOf_of_toNat hb]

theorem vaultLockBody_start (ha : s.port.armLatch = true) (hb : b.toNat = p.val) :
    State.vaultLockBody b s = s.startVault p (.lock p) := by
  unfold State.vaultLockBody
  rw [if_neg (by simp [ha]), pageOf_of_toNat hb]

theorem vaultWriteBody_badArgument (ha : s.port.armLatch = true) (h : 4 ≤ b.toNat ∨ ¬ WriteLegal o n) :
    State.vaultWriteBody b o n data s = (s, .badArgument) := by
  unfold State.vaultWriteBody
  rw [if_neg (by simp [ha])]
  split
  · rfl
  · rename_i p hp
    rcases h with h | h
    · rw [pageOf_eq_none h] at hp
      cases hp
    · exact if_pos (not_not.1 h)

/-- A vault command whose checks of its own have passed: what its start decides. -/
theorem actionFrame_startVault {m : Nat} {body : State → State × OutcomeCode} (h : Serving s)
    (hb : ∀ r : Port, r.armLatch = s.port.armLatch → body { s with port := r } = State.startVault p w { s with port := r }) :
    (s.engine.state ≠ .idle → actionFrame .plain m body s = .next { s with port := s.framePort m .busy false false })
      ∧ (s.engine.state = .idle → (s.vaultLocks[p]'p.isLt) = true →
        actionFrame .plain m body s = .next { s with port := s.framePort m .vaultLocked false false })
      ∧ (s.engine.state = .idle → (s.vaultLocks[p]'p.isLt) = false → actionFrame .plain m body s = .next { s with
          port := s.framePort m .done false false, engine := { s.engine with state := .running, job := some (.vault w) } }) := by
  refine ⟨fun hi => ?_, fun hi hl => ?_, fun hi hl => ?_⟩
  · exact actionFrame_refuses h (fun r hr => (hb r hr).trans (startVault_busy hi)) rfl
  · exact actionFrame_refuses h (fun r hr => (hb r hr).trans (startVault_locked hi hl)) rfl
  · obtain ⟨r, hrow⟩ := actionFrame_acts (n := m) (f := State.run (.vault w)) h
      (fun r hr => (hb r hr).trans (startVault_starts hi hl)) (fun _ => rfl) rfl
    exact hrow

end Vault

/-- Settles O31: the three commands share their start; VAULT WRITE has the checks of its length and range before it. -/
theorem vaultCommandsStartTheirJob : Obligations.VaultCommandsStartTheirJob := by
  refine ⟨fun s b o n data p h ha hb hi hl => ⟨fun h1 h2 hd => ?write, ?erase, ?lock⟩,
    fun s b o n data h => ⟨fun hd => ?length, fun hd ha => ?notArmed, fun hd ha hbad => ?badArgument,
      fun hd ha hb h1 h2 hi => ?busy, fun p hd ha hb h1 h2 hi hl => ?locked⟩, fun s b c h hc => ?eraseLock⟩
  case write =>
    have hrow := (actionFrame_startVault (m := 4 + data.length) (w := .write p o.toNat data) h fun r hr =>
      vaultWriteBody_start (s := { s with port := r }) (data := data) (hr.trans ha) hb (o := o) (n := n)
        (by unfold WriteLegal; omega)).2.2 hi hl
    exact (if_pos hd).trans hrow
  case erase =>
    exact (actionFrame_startVault h fun r hr => vaultEraseBody_start (s := { s with port := r }) (hr.trans ha) hb).2.2 hi hl
  case lock =>
    exact (actionFrame_startVault h fun r hr => vaultLockBody_start (s := { s with port := r }) (hr.trans ha) hb).2.2 hi hl
  case length =>
    exact (if_neg hd).trans (malformedFrame_framePort ⟨.inl h.active, h.notIgnored, h.noVerdict⟩ rfl _)
  case notArmed => exact (if_pos hd).trans (actionFrame_refuses h (fun r hr => if_pos (hr.trans ha)) rfl)
  case badArgument =>
    refine (if_pos hd).trans (actionFrame_refuses h (fun r hr => ?_) rfl)
    exact vaultWriteBody_badArgument (s := { s with port := r }) (hr.trans ha) (hbad.imp_right fun hb => not_not.2 hb)
  case busy =>
    exact (if_pos hd).trans ((actionFrame_startVault (p := ⟨b.toNat, hb⟩) h fun r hr =>
      vaultWriteBody_start (s := { s with port := r }) (hr.trans ha) rfl (by unfold WriteLegal; omega)).1 hi)
  case locked =>
    exact (if_pos hd).trans ((actionFrame_startVault (p := p) h fun r hr =>
      vaultWriteBody_start (s := { s with port := r }) (hr.trans ha) hb (by unfold WriteLegal; omega)).2.1 hi hl)
  case eraseLock =>
    rcases hc with rfl | rfl
    · refine ⟨fun ha => ?_, fun ha hb => ?_, fun ha hb hi => ?_, fun p ha hb hi hl => ?_⟩
      · exact actionFrame_refuses h (fun r hr => if_pos (hr.trans ha)) rfl
      · exact actionFrame_refuses h (fun r hr => by simp [State.vaultEraseBody, hr, ha, pageOf_eq_none hb]) rfl
      · exact (actionFrame_startVault (p := ⟨b.toNat, hb⟩) h fun r hr =>
          vaultEraseBody_start (s := { s with port := r }) (hr.trans ha) rfl).1 hi
      · exact (actionFrame_startVault h fun r hr =>
          vaultEraseBody_start (s := { s with port := r }) (hr.trans ha) hb).2.1 hi hl
    · refine ⟨fun ha => ?_, fun ha hb => ?_, fun ha hb hi => ?_, fun p ha hb hi hl => ?_⟩
      · exact actionFrame_refuses h (fun r hr => if_pos (hr.trans ha)) rfl
      · exact actionFrame_refuses h (fun r hr => by simp [State.vaultLockBody, hr, ha, pageOf_eq_none hb]) rfl
      · exact (actionFrame_startVault (p := ⟨b.toNat, hb⟩) h fun r hr =>
          vaultLockBody_start (s := { s with port := r }) (hr.trans ha) rfl).1 hi
      · exact (actionFrame_startVault h fun r hr =>
          vaultLockBody_start (s := { s with port := r }) (hr.trans ha) hb).2.1 hi hl

/-! ### RESUME (R129) -/

theorem decides_resume_suspended (h : s.engine.state = .suspended) : Decides State.resumeBody s
    (fun u => { u with engine := { s.engine with state := .running, resumeLock := true } }) .done := by
  intro p _
  simp [State.resumeBody, h]

theorem decides_resume_pending (h : s.engine.state = .suspendPending) : Decides State.resumeBody s
    (fun u => { u with engine := { s.engine with state := .running } }) .done := by
  intro p _
  simp [State.resumeBody, h]

theorem decides_resume_refused (h : s.engine.state = .idle ∨ s.engine.state = .running) :
    Decides State.resumeBody s id .notSuspended := by
  intro p _
  rcases h with h | h <;> simp [State.resumeBody, h]

/-- Settles O42: what RESUME decides by the engine state. -/
theorem resumeByEngineState : Obligations.ResumeByEngineState := by
  refine fun s h => ⟨fun hs => ?_, fun hs => ?_, fun hs => actionFrame_refuses h (decides_resume_refused hs) rfl⟩
  · obtain ⟨p, hrow⟩ := actionFrame_acts (n := 1) h (decides_resume_suspended hs) (fun _ => rfl) rfl
    exact hrow
  · obtain ⟨p, hrow⟩ := actionFrame_acts (n := 1) h (decides_resume_pending hs) (fun _ => rfl) rfl
    exact hrow

end Sys2Proof.Machine
end

section
/-! REWIND (R88, R89), the acceptance of FORMAT (R156), power-on, power loss and soft reset (R147, R155, R159), what two recoveries of
one array share (R147), and the bytes of a frame. Settles O12, O40, O43, O45, O46, O48. -/

namespace Sys2Proof.Machine

-- One proof after the other: the stacks of proofs elaborated side by side come near the memory that a check may take.
set_option Elab.async false

open Sys2Proof

variable {s : State}

/-! ### The unread side (R167, R169) -/

/-- The unread side was evaluated where the record shows what `unreadEvaluated` gives it. -/
theorem unreadEvaluated_of {s t : State} {i : StreamId} {r : Stream} (hr : r.unreadAbove = (s.streams[i]'i.isLt).unreadAbove)
    (hn : r.notices.getLsbD 1 = (s.streams[i]'i.isLt).notices.getLsbD 1)
    (hside : (t.streams[i]'i.isLt).unreadAbove = r.unreadSide) (hsame : (t.streams[i]'i.isLt).unreadSide = r.unreadSide)
    (hnotice : (t.streams[i]'i.isLt).notices.getLsbD 1 = r.unreadEvaluated.notices.getLsbD 1)
    (hevent : t.eventLatch.getLsbD 2 = (s.eventLatch.getLsbD 2 || r.unreadArrives)) : s.UnreadEvaluated t i where
  side := hside.trans hsame.symm
  event := by
    rw [hevent, Stream.unreadArrives, hside, hr]
    simp [Bool.and_comm]
  notice := by
    rw [hnotice, Stream.unreadEvaluated_getLsbD, hn, Stream.unreadArrives, hside, hr]
    simp [Bool.and_comm]

/-! ### REWIND (R88, R89) -/

/-- The stream's record after a move of the cursor. -/
def Stream.movedTo (t : Stream) (q : Nat) : Stream := if q = t.cursor then t else { t with cursor := q }.unreadEvaluated

@[simp] theorem State.moveCursor_same (s : State) (i : StreamId) (q : Nat) :
    ((s.moveCursor i q).streams[i]'i.isLt) = (s.streams[i]'i.isLt).movedTo q := by
  unfold State.moveCursor Stream.movedTo
  split
  · rfl
  · rw [State.evalUnread_same, State.updStream_same]

theorem State.moveCursor_other (s : State) {i j : StreamId} (h : j ≠ i) (q : Nat) :
    ((s.moveCursor i q).streams[j]'j.isLt) = (s.streams[j]'j.isLt) := by
  unfold State.moveCursor
  split
  · rfl
  · rw [State.evalUnread_other _ _ _ h, State.updStream_other s i j _ h.symm]

theorem State.moveCursor_getLsbD (s : State) (i : StreamId) (q n : Nat) : (s.moveCursor i q).eventLatch.getLsbD n
    = (s.eventLatch.getLsbD n || (n == 2 && (decide (q ≠ (s.streams[i]'i.isLt).cursor) &&
        ({ (s.streams[i]'i.isLt) with cursor := q } : Stream).unreadArrives))) := by
  unfold State.moveCursor
  split
  · rename_i h
    simp [-Fin.getElem_fin, h]
  · rename_i h
    rw [State.evalUnread_getLsbD, State.updStream_same, decide_eq_true h]
    simp [-Fin.getElem_fin]

/-- A move of the cursor touches the streams and the event latch alone. -/
theorem State.moveCursor_only (s : State) (i : StreamId) (q : Nat) :
    { s.moveCursor i q with streams := s.streams, eventLatch := s.eventLatch } = s := by
  unfold State.moveCursor
  split
  · rfl
  · rw [State.evalUnread_eq]
    rfl

@[simp] theorem Stream.movedTo_cursor (t : Stream) (q : Nat) : (t.movedTo q).cursor = q := by
  unfold Stream.movedTo
  split
  · rename_i h
    exact h.symm
  · rfl

/-- What a move of the cursor leaves of the record. -/
theorem Stream.movedTo_only (t : Stream) (q : Nat) : { t.movedTo q with
    cursor := t.cursor, notices := t.notices, unreadAbove := t.unreadAbove } = t := by
  unfold Stream.movedTo
  split <;> rfl

theorem Stream.movedTo_marks (t : Stream) (q : Nat) : (t.movedTo q).marks = t.marks := by
  unfold Stream.movedTo
  split <;> rfl

/-- What a REWIND leaves: the record with the cursor moved and the marks given. -/
structure State.Rewound (s t : State) (i : StreamId) (q : Nat) (ms : List Nat) : Prop where
  record : (t.streams[i]'i.isLt) = { (s.streams[i]'i.isLt).movedTo q with marks := ms }
  others : ∀ j : StreamId, j ≠ i → (t.streams[j]'j.isLt) = (s.streams[j]'j.isLt)
  latch : ∀ n : Nat, t.eventLatch.getLsbD n = (s.eventLatch.getLsbD n
    || (n == 2 && (decide (q ≠ (s.streams[i]'i.isLt).cursor) && ({ (s.streams[i]'i.isLt) with cursor := q } : Stream).unreadArrives)))
  only : { t with port := s.port, streams := s.streams, eventLatch := s.eventLatch } = s

theorem rewound_moveCursor (s : State) (i : StreamId) (q : Nat) : s.Rewound (s.moveCursor i q) i q (s.streams[i]'i.isLt).marks where
  record := by
    rw [State.moveCursor_same, ← Stream.movedTo_marks _ q]
  others j hj := State.moveCursor_other s hj q
  latch n := State.moveCursor_getLsbD s i q n
  only := congrArg (fun u : State => { u with port := s.port }) (s.moveCursor_only i q)

theorem rewound_movePop (s : State) (i : StreamId) (q : Nat) (ms : List Nat) :
    s.Rewound ((s.moveCursor i q).updStream i fun t => { t with marks := ms }) i q ms where
  record := by rw [State.updStream_same, State.moveCursor_same]
  others j hj := (State.updStream_other _ i j _ hj.symm).trans (State.moveCursor_other s hj q)
  latch n := State.moveCursor_getLsbD s i q n
  only := congrArg (fun u : State => { u with port := s.port }) (s.moveCursor_only i q)

section Rewound

variable {t : State} {i : StreamId} {q : Nat} {ms : List Nat}

theorem State.Rewound.cursor (h : s.Rewound t i q ms) : (t.streams[i]'i.isLt).cursor = q := by
  rw [h.record]
  exact Stream.movedTo_cursor _ _

theorem State.Rewound.frame (h : s.Rewound t i q ms) : { (t.streams[i]'i.isLt) with
    cursor := (s.streams[i]'i.isLt).cursor, marks := (s.streams[i]'i.isLt).marks, notices := (s.streams[i]'i.isLt).notices
    unreadAbove := (s.streams[i]'i.isLt).unreadAbove } = (s.streams[i]'i.isLt) := by
  rw [h.record]
  exact congrArg (fun r : Stream => { r with marks := (s.streams[i]'i.isLt).marks }) (Stream.movedTo_only (s.streams[i]'i.isLt) q)

/-- The unread side is evaluated where the cursor has changed (R169). -/
theorem State.Rewound.unread (h : s.Rewound t i q ms) (hc : (t.streams[i]'i.isLt).cursor ≠ (s.streams[i]'i.isLt).cursor) :
    s.UnreadEvaluated t i := by
  rw [h.cursor] at hc
  have hrec : (t.streams[i]'i.isLt) = { ({ (s.streams[i]'i.isLt) with cursor := q } : Stream).unreadEvaluated with marks := ms } := by
    rw [h.record, Stream.movedTo, if_neg hc]
  have hl := h.latch 2
  simp only [BEq.rfl, Bool.true_and, hc, ne_eq, not_false_eq_true, decide_true] at hl
  exact unreadEvaluated_of (r := { (s.streams[i]'i.isLt) with cursor := q }) rfl rfl (by rw [hrec]; rfl) (by rw [hrec]; rfl)
    (by rw [hrec]) hl

theorem State.Rewound.unreadKept (h : s.Rewound t i q ms) (hc : (t.streams[i]'i.isLt).cursor = (s.streams[i]'i.isLt).cursor) :
    s.UnreadKept t i := by
  rw [h.cursor] at hc
  have hrec : (t.streams[i]'i.isLt) = { (s.streams[i]'i.isLt) with marks := ms } := by
    rw [h.record, Stream.movedTo, if_pos hc]
  refine ⟨by rw [hrec], ?_, by rw [hrec]⟩
  rw [h.latch 2]
  simp [hc]

theorem State.Rewound.notices (h : s.Rewound t i q ms) {n : Nat} (hn : n ≠ 1) :
    (t.streams[i]'i.isLt).notices.getLsbD n = (s.streams[i]'i.isLt).notices.getLsbD n := by
  rw [h.record]
  show ((s.streams[i]'i.isLt).movedTo q).notices.getLsbD n = _
  unfold Stream.movedTo
  split
  · rfl
  · rw [Stream.unreadEvaluated_getLsbD]
    simp [hn]

theorem State.Rewound.latchKept (h : s.Rewound t i q ms) {n : Nat} (hn : n ≠ 2) :
    t.eventLatch.getLsbD n = s.eventLatch.getLsbD n := by
  rw [h.latch]
  simp [hn]

end Rewound

/-- A mark brought into the cursor's range (R89). -/
theorem Stream.clamp_eq {t : Stream} (h : t.volatileFrontier ≤ t.lastCommitted) (m : Nat) :
    t.clamp m = max (t.volatileFrontier + 1) (min m (t.lastCommitted + 1)) := by
  unfold Stream.clamp
  split
  · omega
  · split <;> omega

section RewindDecides

variable {b mode : Byte} {i : StreamId}

theorem rewindModeOf_eq_none (h : 3 ≤ mode.toNat) : rewindModeOf mode = none := by
  unfold rewindModeOf
  rw [if_neg, if_neg, if_neg] <;> rintro rfl <;> revert h <;> decide

theorem rewindModeOf_of_lt (h : mode.toNat < 3) :
    (mode = 0 ∧ rewindModeOf mode = some .top) ∨ (mode = 1 ∧ rewindModeOf mode = some .topPop)
      ∨ (mode = 2 ∧ rewindModeOf mode = some .oldest) := by
  have hb : mode = BitVec.ofNat 8 mode.toNat := by simp
  revert h hb
  generalize mode.toNat = n
  rintro h rfl
  interval_cases n
  · exact .inl ⟨rfl, rfl⟩
  · exact .inr (.inl ⟨rfl, rfl⟩)
  · exact .inr (.inr ⟨rfl, rfl⟩)

theorem decides_rewind_noStream (hb : 8 ≤ b.toNat) : Decides (State.rewindBody b mode) s id .noStream := by
  intro p _
  simp [State.rewindBody, streamOf_eq_none hb]

theorem decides_rewind_badArgument (hb : b.toNat < 8) (hm : 3 ≤ mode.toNat) :
    Decides (State.rewindBody b mode) s id .badArgument := by
  intro p _
  simp [State.rewindBody, streamOf_of_toNat (i := ⟨b.toNat, hb⟩) rfl, rewindModeOf_eq_none hm]

theorem decides_rewind_busy (hb : b.toNat < 8) (hm : mode.toNat < 3) (hf : s.engine.formatRuns = true) :
    Decides (State.rewindBody b mode) s id .busy := by
  intro p _
  rcases rewindModeOf_of_lt hm with ⟨-, h⟩ | ⟨-, h⟩ | ⟨-, h⟩ <;>
    simp [State.rewindBody, streamOf_of_toNat (i := ⟨b.toNat, hb⟩) rfl, h, hf]

theorem rewindBody_rewind {m : RewindMode} (hb : b.toNat = i.val) (hm : rewindModeOf mode = some m)
    (hf : s.engine.formatRuns = false) : State.rewindBody b mode s = s.rewind i m := by
  simp [State.rewindBody, streamOf_of_toNat hb, hm, hf]

theorem decides_rewind_markEmpty (hb : b.toNat = i.val) (hm : mode.toNat < 2) (hf : s.engine.formatRuns = false)
    (he : (s.streams[i]'i.isLt).marks = []) : Decides (State.rewindBody b mode) s id .markEmpty := by
  intro p _
  rcases rewindModeOf_of_lt (by omega : mode.toNat < 3) with ⟨-, h⟩ | ⟨-, h⟩ | ⟨rfl, -⟩
  · rw [rewindBody_rewind (s := { s with port := p }) hb h hf]
    simp only [State.rewind, he]
    rfl
  · rw [rewindBody_rewind (s := { s with port := p }) hb h hf]
    simp only [State.rewind, he]
    rfl
  · exact absurd hm (by decide)

end RewindDecides

/-- A frame whose body rewinds. -/
theorem actionFrame_rewinds {body : State → State × OutcomeCode} {f : State → State} {i : StreamId} {q : Nat} {ms : List Nat}
    (h : Serving s) (hd : Decides body s f .done) (hf : ∀ u, (f u).port = u.port)
    (hr : ∀ p : Port, State.Rewound { s with port := p } (f { s with port := p }) i q ms) :
    ∃ t, actionFrame .plain 3 body s = .next t ∧ t.port = s.framePort 3 .done false false ∧ s.Rewound t i q ms := by
  obtain ⟨p, hrow⟩ := actionFrame_acts (n := 3) h hd hf rfl
  have hr := hr p
  exact ⟨_, hrow, rfl, hr.record, hr.others, hr.latch, congrArg (fun u : State => { u with port := s.port }) hr.only⟩

theorem State.moveCursor_port (s : State) (i : StreamId) (q : Nat) : (s.moveCursor i q).port = s.port := by
  have h := congrArg (fun u : State => u.port) (s.moveCursor_only i q)
  exact h

/-- Every accepted REWIND, by its mode: where the cursor goes, and the marks that stay. -/
theorem exec_rewind {b mode : Byte} {i : StreamId} (h : Serving s) (hb : b.toNat = i.val) (hf : s.engine.formatRuns = false)
    (hm : mode.toNat < 3) (hmarks : mode ≠ 2 → (s.streams[i]'i.isLt).marks ≠ []) :
    ∃ t q, exec (.rewind b mode) s = .next t ∧ t.port = s.framePort 3 .done false false
      ∧ s.Rewound t i q (if mode = 1 then (s.streams[i]'i.isLt).marks.tail else (s.streams[i]'i.isLt).marks)
      ∧ (mode = 2 → q = (s.streams[i]'i.isLt).volatileFrontier + 1)
      ∧ (mode ≠ 2 → ∀ m ms, (s.streams[i]'i.isLt).marks = m :: ms → q = (s.streams[i]'i.isLt).clamp m) := by
  rcases rewindModeOf_of_lt hm with ⟨rfl, hmode⟩ | ⟨rfl, hmode⟩ | ⟨rfl, hmode⟩
  · obtain ⟨m, ms, hms⟩ := List.exists_cons_of_ne_nil (hmarks (by decide))
    have hd : Decides (State.rewindBody b 0) s (State.moveCursor i ((s.streams[i]'i.isLt).clamp m)) .done := by
      intro p _
      rw [rewindBody_rewind (s := { s with port := p }) hb hmode hf]
      simp only [State.rewind, hms]
    obtain ⟨t, hrow, hp, hr⟩ := actionFrame_rewinds h hd (fun u => u.moveCursor_port i _)
      (ms := (s.streams[i]'i.isLt).marks) (fun p => rewound_moveCursor { s with port := p } i _)
    exact ⟨t, _, hrow, hp, hr, fun h => absurd h (by decide), fun _ m' ms' h' => by
      rw [hms, List.cons.injEq] at h'
      rw [h'.1]⟩
  · obtain ⟨m, ms, hms⟩ := List.exists_cons_of_ne_nil (hmarks (by decide))
    have hd : Decides (State.rewindBody b 1) s
        (fun u => (u.moveCursor i ((s.streams[i]'i.isLt).clamp m)).updStream i fun t => { t with marks := ms }) .done := by
      intro p _
      rw [rewindBody_rewind (s := { s with port := p }) hb hmode hf]
      simp only [State.rewind, hms]
    obtain ⟨t, hrow, hp, hr⟩ := actionFrame_rewinds h hd (fun u => u.moveCursor_port i _)
      (fun p => rewound_movePop { s with port := p } i _ ms)
    refine ⟨t, (s.streams[i]'i.isLt).clamp m, hrow, hp, ?_, fun h => absurd h (by decide), fun _ m' ms' h' => ?_⟩
    · rw [if_pos rfl, hms]
      exact hr
    · rw [hms, List.cons.injEq] at h'
      rw [h'.1]
  · have hd : Decides (State.rewindBody b 2) s (State.moveCursor i ((s.streams[i]'i.isLt).volatileFrontier + 1)) .done := by
      intro p _
      rw [rewindBody_rewind (s := { s with port := p }) hb hmode hf]
      rfl
    obtain ⟨t, hrow, hp, hr⟩ := actionFrame_rewinds h hd (fun u => u.moveCursor_port i _)
      (ms := (s.streams[i]'i.isLt).marks) (fun p => rewound_moveCursor { s with port := p } i _)
    exact ⟨t, _, hrow, hp, hr, fun _ => rfl, fun h => absurd rfl h⟩

/-- Settles O40: every mode moves the cursor with `moveCursor`, and the checks stand in their order. -/
theorem rewindMovesTheCursor : Obligations.RewindMovesTheCursor := by
  refine ⟨fun s b i h hb hf hv mode hm hmarks => ?accepted, fun s b mode h => ⟨fun hb => ?noStream, fun hb hm => ?badArgument,
    fun hb hm hf => ?busy, fun i hb hm hf he => ?markEmpty⟩⟩
  case accepted =>
    obtain ⟨t, q, hrow, hp, hr, hold, htop⟩ := exec_rewind h hb hf hm hmarks
    refine ⟨t, hrow, hp, fun h2 => hr.cursor.trans (hold h2), fun h2 m ms hms => ?_, ?_, hr.frame, hr.unread, hr.unreadKept,
      fun n hn => hr.notices hn, fun n hn => hr.latchKept hn, hr.others, hr.only⟩
    · rw [hr.cursor, htop h2 m ms hms, Stream.clamp_eq hv]
    · rw [hr.record]
  case noStream => exact actionFrame_refuses h (decides_rewind_noStream hb) rfl
  case badArgument => exact actionFrame_refuses h (decides_rewind_badArgument hb hm) rfl
  case busy => exact actionFrame_refuses h (decides_rewind_busy hb hm hf) rfl
  case markEmpty => exact actionFrame_refuses h (decides_rewind_markEmpty hb hm hf he) rfl

/-! ### FORMAT's way through the data segments (R157) -/

theorem Segment.notErased_iff {g : Segment} : g.notErased = true ↔ g.location = .retired ∨ g.header = .retirePending := by
  simp [Segment.notErased]

/-- A segment that joins the retired list without a pulse is one that FORMAT passes over, before and after. -/
theorem State.retire_notErased {k : DataSeg} (h : (s.segments[k]'k.isLt).header = .retirePending) (j : DataSeg) :
    (((s.unlist k).retire k).segments[j]'j.isLt).notErased = (s.segments[j]'j.isLt).notErased := by
  unfold State.retire
  rw [State.raise_segments]
  by_cases hj : j = k
  · subst hj
    rw [State.updSegment_same, Bool.eq_iff_iff, Segment.notErased_iff, Segment.notErased_iff]
    exact ⟨fun _ => .inr h, fun _ => .inl rfl⟩
  · rw [State.updSegment_other _ k j _ (Ne.symm hj)]
    rfl

/-- The work that FORMAT finds next: the first segment that it erases, or the anchor segments. -/
theorem State.formatNext_work : ∀ (ks : List DataSeg) (s : State), (s.formatNext ks).2
    = match ks.find? fun k => !(s.segments[k]'k.isLt).notErased with
      | some k => .segment k (.pulse 0)
      | none => .anchorErase 0
  | [], _ => rfl
  | k :: ks, s => by
    unfold State.formatNext
    rw [List.find?_cons]
    split
    · rename_i h
      rw [State.formatNext_work ks s, Segment.notErased_iff.2 (.inl h)]
      rfl
    · split
      · rename_i h
        rw [State.formatNext_work ks, Segment.notErased_iff.2 (.inr h)]
        simp only [State.retire_notErased h]
        rfl
      · rename_i h1 h2
        have hn : (s.segments[k]'k.isLt).notErased = false := by
          rw [Bool.eq_false_iff, ne_eq, Segment.notErased_iff]
          exact not_or.2 ⟨h1, h2⟩
        rw [hn]
        rfl

/-- The first of the data segments with a property comes before all others with it. -/
theorem find?_finRange {n : Nat} {p : Fin n → Bool} {k : Fin n} (h : (List.finRange n).find? p = some k) :
    p k = true ∧ ∀ j < k, p j = false := by
  obtain ⟨hk, as, bs, hl, has⟩ := List.find?_eq_some_iff_append.1 h
  refine ⟨hk, fun j hj => ?_⟩
  have hsorted : (as ++ k :: bs).Pairwise (· < ·) := hl ▸ List.pairwise_lt_finRange n
  have hmem : j ∈ as ++ k :: bs := hl ▸ List.mem_finRange j
  rw [List.pairwise_append, List.pairwise_cons] at hsorted
  rcases List.mem_append.1 hmem with hm | hm
  · simpa using has j hm
  · rcases List.mem_cons.1 hm with rfl | hm
    · exact absurd hj (lt_irrefl _)
    · exact absurd (hsorted.2.1.1 j hm) (not_lt_of_gt hj)

/-- The work with which a FORMAT job starts. -/
theorem formatNext_allSegments (s : State) :
    (∃ k : DataSeg, (s.formatNext allSegments).2 = .segment k (.pulse 0) ∧ (s.segments[k]'k.isLt).notErased = false
        ∧ ∀ j < k, (s.segments[j]'j.isLt).notErased = true)
      ∨ ((s.formatNext allSegments).2 = .anchorErase 0 ∧ ∀ j : DataSeg, (s.segments[j]'j.isLt).notErased = true) := by
  rw [State.formatNext_work]
  cases h : allSegments.find? fun k => !(s.segments[k]'k.isLt).notErased with
  | some k =>
    obtain ⟨hk, hj⟩ := find?_finRange h
    exact .inl ⟨k, rfl, by simpa using hk, fun j hjk => by simpa using hj j hjk⟩
  | none =>
    rw [List.find?_eq_none] at h
    exact .inr ⟨rfl, fun j => by simpa using h j (List.mem_finRange j)⟩

section FormatDecides

variable {g : Bool}

theorem Guard.allowsFormat_iff {r : Guard} {b : Bool} : r.allowsFormat b = true ↔ r.permits b ∧ r.formatInhibit = false := by
  simp [Guard.allowsFormat, Guard.permits_iff]

theorem decides_format_notArmed (ha : s.port.armLatch = false) : Decides (State.formatBody g) s id .notArmed :=
  fun _ hp => if_pos (hp.trans ha)

theorem decides_format_guarded (ha : s.port.armLatch = true) (hg : s.guard.allowsFormat g = false) :
    Decides (State.formatBody g) s id .guarded := by
  intro p hp
  simp [State.formatBody, hp, ha, hg]

theorem decides_format_busy (ha : s.port.armLatch = true) (hg : s.guard.allowsFormat g = true) (hi : s.engine.state ≠ .idle) :
    Decides (State.formatBody g) s id .busy := by
  intro p hp
  simp [State.formatBody, hp, ha, hg, hi]

theorem decides_format (ha : s.port.armLatch = true) (hg : s.guard.allowsFormat g = true) (hi : s.engine.state = .idle) :
    Decides (State.formatBody g) s
      (fun u => State.run (.format false (u.formatNext allSegments).2) { u with sync := none }) .done := by
  intro p hp
  simp [State.formatBody, hp, ha, hg, hi]

end FormatDecides

/-- Settles O43: the checks in their order, and the work that the job starts with. -/
theorem formatIsAccepted : Obligations.FormatIsAccepted := by
  refine fun s g h => ⟨fun ha hp hf hi => ?accepted, fun ha => ?notArmed, fun ha hg => ?guarded, fun ha hp hf hi => ?busy⟩
  case accepted =>
    obtain ⟨p, hrow⟩ := actionFrame_acts (n := 1) h (decides_format ha (Guard.allowsFormat_iff.2 ⟨hp, hf⟩) hi) (fun _ => rfl) rfl
    refine ⟨_, hrow, ?_⟩
    rcases formatNext_allSegments { s with port := p } with ⟨k, hw, hk, hj⟩ | ⟨hw, hj⟩
    · have hk' : ¬ ((s.segments[k]'k.isLt).location = .retired ∨ (s.segments[k]'k.isLt).header = .retirePending) := by
        rw [← Segment.notErased_iff]
        exact Bool.eq_false_iff.1 hk
      obtain ⟨h1, h2⟩ := not_or.1 hk'
      exact .inl ⟨k, hw, h1, h2, fun j hjk => Segment.notErased_iff.1 (hj j hjk)⟩
    · exact .inr ⟨hw, fun j => Segment.notErased_iff.1 (hj j)⟩
  case notArmed => exact actionFrame_refuses h (decides_format_notArmed ha) rfl
  case guarded =>
    refine actionFrame_refuses h (decides_format_guarded ha ?_) rfl
    rw [Bool.eq_false_iff, ne_eq, Guard.allowsFormat_iff]
    rintro ⟨hp, hf⟩
    rcases hg with hg | hg
    · exact hg hp
    · simp [hf] at hg
  case busy => exact actionFrame_refuses h (decides_format_busy ha (Guard.allowsFormat_iff.2 ⟨hp, hf⟩) hi) rfl

/-! ### Power-on, power loss, soft reset (R147, R155, R159) -/

/-- With no job running there is no step to cut short. -/
theorem State.abandonStep_of_not_runs (h : s.engine.runs = false) (cut : Cut) : s.abandonStep cut = s := by
  have hw : s.stepWork = .nothing := by simp [State.stepWork, h]
  simp [State.abandonStep, hw]

theorem Port.inFrame_iff {p : Port} : p.inFrame = true ↔ p.frameState ≠ .idle ∨ p.frameIgnored = true := by
  simp [Port.inFrame]

/-- Settles O45: both rows clear the volatile state; the flag of an ignored frame makes every later row of it one without effect. -/
theorem powerOnAndPowerLoss : Obligations.PowerOnAndPowerLoss := by
  refine fun s => ⟨fun h => ⟨_, exec_powerOn h, rfl, rfl⟩, fun cut h => ⟨_, if_neg h, rfl, rfl, rfl, rfl, rfl, rfl, rfl, rfl,
    fun hr => ?_, Port.inFrame_iff, fun c hc => exec_ignores hc (.inl (.inl rfl)) (by simp), fun hi => ?_⟩⟩
  · rw [State.abandonStep_of_not_runs hr]
    exact ⟨rfl, rfl, rfl⟩
  · exact ⟨_, exec_powerOn rfl, rfl, fun c hc => exec_ignores hc (.inr ⟨.inr rfl, hi⟩) (fun h' => nomatch h')⟩

/-- Settles O46: an accepted RESET clears the volatile state, but for a working SESSION lock. -/
theorem softReset : Obligations.SoftReset := by
  refine fun s cut h => ⟨fun he => ⟨_, if_pos ⟨h.active, h.notIgnored, h.noVerdict, he⟩, rfl, rfl, rfl, rfl, rfl, rfl, rfl, rfl, rfl,
    rfl, rfl, rfl, ?_, rfl, rfl, rfl, fun hr => ?_⟩, fun he => ?_⟩
  · show (if s.guard.working = .session then LockMode.session else .opened) = .session ↔ _
    split <;> simp_all
  · show (s.abandonStep cut).array = _ ∧ (s.abandonStep cut).vault = _ ∧ (s.abandonStep cut).lockCells = _
    rw [State.abandonStep_of_not_runs hr]
    exact ⟨rfl, rfl, rfl⟩
  · have hn : ¬ (s.power = .active ∧ s.port.frameIgnored = false ∧ s.port.snapshot = none ∧ s.port.resetEnable = true) := by
      simp [he]
    exact (if_neg hn).trans (actionFrame_refuses (body := fun s => (s, .notEnabled)) h (fun _ _ => rfl) rfl)

/-! ### What two recoveries of one array share (R147) -/

/-- With nothing staged a selection changes the engine alone (R111). -/
theorem select_of_unstaged (h : s.staging = []) : s.select = { s with engine := s.select.engine } := by
  have hr : s.reachHead = s := by simp [State.reachHead, State.reach, h]
  unfold State.select State.selectCommit State.selectReclaim
  have he : s.staging.isEmpty = true := by rw [h]; rfl
  rw [hr]
  simp only [he, if_true]
  split
  · split
    · rfl
    · split
      · rfl
      · split <;> rfl
  · split
    · rfl
    · split <;> rfl

/-- With nothing staged a selection looks at the ledger, the reclaim queue and the engine alone (R111). -/
theorem select_engine_congr {u v : State} (hu : u.staging = []) (hv : v.staging = []) (hl : u.ledger = v.ledger)
    (hr : u.reclaim = v.reclaim) (he : u.engine = v.engine) : u.select.engine = v.select.engine := by
  have hru : u.reachHead = u := by simp [State.reachHead, State.reach, hu]
  have hrv : v.reachHead = v := by simp [State.reachHead, State.reach, hv]
  unfold State.select State.selectCommit State.selectReclaim
  rw [hru, hrv]
  simp only [hu, hv, hl, hr, he, List.isEmpty_nil, if_true]
  split
  · split
    · simp [State.run, he]
    · split
      · rfl
      · split <;> simp [State.run, State.idle, he]
  · split
    · rfl
    · split <;> simp [State.run, State.idle, he]

/-- What recovery makes of a scan's results, before the selection (R154). -/
def State.rebuiltBy (a : Anchored) (all : List (DataSeg × Scanned)) (r : Vector Rebuilt 8) (s : State) : State :=
  { ((s.rebuild a all r).recoveryEvents (r.toList.any fun x => x.torn) a.current.isNone).setAllSides with power := .active }

/-- The segments of an array as a recovery's scan classifies them (R149). -/
def scannedOf (array : List Host.Cell) (freeIndex : Nat) : List (DataSeg × Scanned) :=
  classifyAll (anchorPhase array) array freeIndex none (List.finRange 510)

/-- The state whose selection ends a recovery. -/
def State.rebuilt (s : State) : State :=
  s.rebuiltBy (anchorPhase s.array) (scannedOf s.array s.freeIndex) (rebuildAll (anchorPhase s.array) (scannedOf s.array s.freeIndex))

theorem State.recovered_eq (s : State) : s.recovered = s.rebuilt.select := rfl

/-- The events of a recovery touch the event latch alone. -/
theorem State.recoveryEvents_eq (s : State) (torn fault : Bool) :
    s.recoveryEvents torn fault = { s with eventLatch := (s.recoveryEvents torn fault).eventLatch } := by
  unfold State.recoveryEvents State.raiseIf
  split <;> split <;> rfl

/-- The stream records of a recovery (R150 to R152). -/
def rebuiltStreams (a : Anchored) (r : Vector Rebuilt 8) : Vector Stream 8 := tabulate fun i => rebuildStream (a.streams[i]'i.isLt) r[i]

/-- The segment table of a recovery (R149, R150, R152). -/
def rebuiltSegments (all : List (DataSeg × Scanned)) (r : Vector Rebuilt 8) : Vector Segment 510 :=
  tabulate fun k => (all.map (placeScanned (r.toList.flatMap fun x => x.chain.map fun y => y.1))).getD k.val Segment.unscanned

/-- The data segments that a table has at a place, in ascending index order. -/
def segmentsIn (v : Vector Segment 510) (l : Location) : List DataSeg := allSegments.filter fun k => v[k].location == l

theorem State.segmentsAt_eq (s : State) (l : Location) : s.segmentsAt l = segmentsIn s.segments l := rfl

/-- R37 has sealed a stream at recovery. -/
def sealedAny (a : Anchored) (r : Vector Rebuilt 8) : Bool :=
  (List.finRange 8).any fun i => sealCorrected (a.streams[i]'i.isLt) (r[i].lastCommitted (a.streams[i]'i.isLt).frontier)

theorem State.rebuild_eq (a : Anchored) (all : List (DataSeg × Scanned)) (r : Vector Rebuilt 8) (s : State) :
    s.rebuild a all r = { s with
      streams := rebuiltStreams a r
      segments := rebuiltSegments all r
      pool := segmentsIn (rebuiltSegments all r) .pool
      reclaim := segmentsIn (rebuiltSegments all r) .reclaim
      staging := []
      ledger := a.ledger (sealedAny a r)
      guard := a.guard (s.guard.working == .session)
      lowWater := a.lowWater
      vaultLocks := s.lockCells
      freeIndex := s.freeIndex + 1 } := by
  unfold State.rebuild
  simp only [State.segmentsAt_eq]
  rfl

/-- What recovery makes of a scan's results depends on nothing else, but for what a reset keeps and the engine (R147). -/
theorem rebuiltBy_congr (a : Anchored) (all : List (DataSeg × Scanned)) (r : Vector Rebuilt 8) (s s' : State) :
    s'.rebuiltBy a all r = { s.rebuiltBy a all r with
      port := s'.port, guard := (s'.rebuiltBy a all r).guard, engine := s'.engine, sync := s'.sync, eventEnable := s'.eventEnable
      vaultLocks := s'.lockCells, array := s'.array, vault := s'.vault, lockCells := s'.lockCells, freeIndex := s'.freeIndex + 1
      pending := s'.pending } := by
  unfold State.rebuiltBy State.recoveryEvents State.raiseIf
  rw [State.rebuild_eq, State.rebuild_eq]
  generalize segmentsIn (rebuiltSegments all r) .pool = pool
  generalize segmentsIn (rebuiltSegments all r) .reclaim = reclaim
  split <;> split <;> rfl

/-- The guard at completion is the anchored one, but for a working SESSION lock that a soft reset kept (R154, R179). -/
theorem rebuiltBy_guard (a : Anchored) (all : List (DataSeg × Scanned)) (r : Vector Rebuilt 8) (s : State) :
    (s.rebuiltBy a all r).guard = a.guard (s.guard.working == .session) := by
  unfold State.rebuiltBy State.recoveryEvents State.raiseIf
  split <;> split <;> rfl

theorem rebuiltBy_staging (a : Anchored) (all : List (DataSeg × Scanned)) (r : Vector Rebuilt 8) (s : State) :
    (s.rebuiltBy a all r).staging = [] ∧ (s.rebuiltBy a all r).engine = s.engine := by
  unfold State.rebuiltBy State.recoveryEvents State.raiseIf
  split <;> split <;> exact ⟨rfl, rfl⟩

/-- Settles O48: the rebuilt state is a function of the scan, the scan of the array and the draw, and the selection of both. -/
theorem recoveryDependsOnTheArray : Obligations.RecoveryDependsOnTheArray := by
  intro s s' t t' hp hp' ha hf he h h'
  obtain rfl := eq_of_next ((if_pos hp).symm.trans h)
  obtain rfl := eq_of_next ((if_pos hp').symm.trans h')
  rw [State.recovered_eq, State.recovered_eq, State.rebuilt, State.rebuilt, ha, hf]
  generalize anchorPhase s'.array = a
  generalize scannedOf s'.array s'.freeIndex = all
  generalize rebuildAll a all = r
  obtain ⟨hs, hen⟩ := rebuiltBy_staging a all r s
  obtain ⟨hs', hen'⟩ := rebuiltBy_staging a all r s'
  have hguard := rebuiltBy_guard a all r s
  have hguard' := rebuiltBy_guard a all r s'
  have hsame := rebuiltBy_congr a all r s s'
  generalize s'.rebuiltBy a all r = u' at *
  generalize s.rebuiltBy a all r = u at *
  have hselect : u.select.engine = u'.select.engine :=
    select_engine_congr hs hs' (by rw [hsame]) (by rw [hsame]) (by rw [hen, hen', he])
  rw [select_of_unstaged hs, select_of_unstaged hs']
  refine ⟨?_, ?_, ?_, ?_, ?_, ?_, ?_, ?_, ?_, ?_, hselect⟩
  case refine_7 | refine_8 | refine_9 =>
    simp only [hguard, hguard']
    rfl
  all_goals rw [hsame]

/-! ### The bytes of a frame (chapter 1, the command table) -/

/-- A code decodes to its command. -/
theorem commandOf_code (c : Command) : commandOf c.code = some c := by cases c <;> rfl

theorem bytes16_joined (w : Word16) : (w.extractLsb' 8 8 ++ w.extractLsb' 0 8 : Word16) = w := by
  ext n hn
  simp only [BitVec.getElem_append, BitVec.getElem_extractLsb']
  split
  · simp [hn]
  · rw [show 8 + (n - 8) = n by omega, BitVec.getLsbD_eq_getElem hn]

theorem bytes32_joined (w : Word32) :
    word32 (w.extractLsb' 24 8) (w.extractLsb' 16 8) (w.extractLsb' 8 8) (w.extractLsb' 0 8) = w := by
  refine BitVec.eq_of_getLsbD_eq fun n hn => ?_
  show BitVec.getLsbD (w := 8 + 8 + 8 + 8) (_ ++ _ ++ _ ++ _) n = _
  simp only [BitVec.getLsbD_append, BitVec.getLsbD_extractLsb']
  split
  · simp_all
  · split
    · simp_all
    · split
      · rename_i h8 h16 h24
        rw [show 16 + (n - 8 - 8) = n by omega]
        simp [show n - 8 - 8 < 8 by omega]
      · rename_i h8 h16 h24
        rw [show 24 + (n - 8 - 8 - 8) = n by omega]
        simp [show n - 8 - 8 - 8 < 8 by omega]

/-- An action command has no output row. -/
theorem outputRow_of_action {c : Command} (hc : ∀ k, c.shape ≠ .output k) (n : Nat) (args : List Byte) : outputRow n c args = none := by
  cases c with
  | queryStatus | readEvents | deviceInfo | streamInfo | segmentInfo | fetch | readGuard | vaultRead | identify | descriptor =>
    exact absurd rfl (hc _)
  | _ => rfl

section Decoding

variable {c : Command} {args bytes : List Byte} {g : Bool} {cut : Cut} {i : Instr} {n : Nat}

/-- An action frame decodes by its arguments. -/
theorem decodeFrame_action (hb : some (c.code :: args) = some bytes) (hc : ∀ k, c.shape ≠ .output k)
    (ha : actionRow g cut c args = some i) : decodeFrame bytes 0 g cut = i := by
  obtain rfl := Option.some.inj hb
  simp [decodeFrame, commandOf_code, outputRow_of_action hc, ha]

/-- An output frame decodes by the arguments it begins with, whatever is clocked in after them. -/
theorem decodeFrame_output (hb : some (outputBytes c args n) = some bytes) (hn : decide (args.length + 1 ≤ n) = true)
    (ho : ∀ rest : List Byte, outputRow n c (args ++ rest) = some i) : decodeFrame bytes 0 g cut = i := by
  obtain rfl := Option.some.inj hb
  have hl : (args ++ List.replicate (n - (args.length + 1)) (0 : Byte)).length + 1 = n := by
    have hn := of_decide_eq_true hn
    rw [List.length_append, List.length_replicate]
    omega
  simp only [decodeFrame, outputBytes, commandOf_code, hl, ho]

end Decoding

/-- Settles O12, row by row of the command table: the arguments' bytes joined again are the arguments. -/
theorem frameRoundTrip : Obligations.FrameRoundTrip := by
  intro i bytes hw he
  cases i with
  | nullFrame =>
    obtain rfl := Option.some.inj he
    rfl
  | queryStatus n => exact decodeFrame_output (c := .queryStatus) (args := []) he hw fun _ => rfl
  | readEvents n => exact decodeFrame_output (c := .readEvents) (args := []) he hw fun _ => rfl
  | deviceInfo n => exact decodeFrame_output (c := .deviceInfo) (args := []) he hw fun _ => rfl
  | readGuard n => exact decodeFrame_output (c := .readGuard) (args := []) he hw fun _ => rfl
  | identify n => exact decodeFrame_output (c := .identify) (args := []) he hw fun _ => rfl
  | descriptor n => exact decodeFrame_output (c := .descriptor) (args := []) he hw fun _ => rfl
  | streamInfo a m n => exact decodeFrame_output (c := .streamInfo) (args := [a, m]) he hw fun _ => rfl
  | vaultRead p o n => exact decodeFrame_output (c := .vaultRead) (args := [p, o]) he hw fun _ => rfl
  | segmentInfo k n =>
    refine decodeFrame_output (c := .segmentInfo) (args := bytes16 k) he hw fun _ => ?_
    simp [outputRow, bytes16, bytes16_joined]
  | fetch a f w c n =>
    refine decodeFrame_output (c := .fetch) (args := a :: f :: (bytes32 w ++ [c])) he hw fun _ => ?_
    simp [outputRow, bytes32, bytes32_joined]
  | arm => exact decodeFrame_action (c := .arm) he (fun _ => nofun) rfl
  | disarm => exact decodeFrame_action (c := .disarm) he (fun _ => nofun) rfl
  | sync => exact decodeFrame_action (c := .sync) he (fun _ => nofun) rfl
  | suspend => exact decodeFrame_action (c := .suspend) he (fun _ => nofun) rfl
  | resume => exact decodeFrame_action (c := .resume) he (fun _ => nofun) rfl
  | format g => exact decodeFrame_action (c := .format) he (fun _ => nofun) rfl
  | doze => exact decodeFrame_action (c := .doze) he (fun _ => nofun) rfl
  | wake => exact decodeFrame_action (c := .wake) he (fun _ => nofun) rfl
  | resetEnable => exact decodeFrame_action (c := .resetEnable) he (fun _ => nofun) rfl
  | reset cut => exact decodeFrame_action (c := .reset) he (fun _ => nofun) rfl
  | openStream a g => exact decodeFrame_action (c := .openStream) he (fun _ => nofun) rfl
  | closeStream a g => exact decodeFrame_action (c := .closeStream) he (fun _ => nofun) rfl
  | resetStream a g => exact decodeFrame_action (c := .resetStream) he (fun _ => nofun) rfl
  | pushMark a => exact decodeFrame_action (c := .pushMark) he (fun _ => nofun) rfl
  | popMark a => exact decodeFrame_action (c := .popMark) he (fun _ => nofun) rfl
  | rewind a m => exact decodeFrame_action (c := .rewind) he (fun _ => nofun) rfl
  | deviceConfig l g => exact decodeFrame_action (c := .deviceConfig) he (fun _ => nofun) rfl
  | writeGuard m l f g => exact decodeFrame_action (c := .writeGuard) he (fun _ => nofun) rfl
  | vaultErase p => exact decodeFrame_action (c := .vaultErase) he (fun _ => nofun) rfl
  | vaultLock p => exact decodeFrame_action (c := .vaultLock) he (fun _ => nofun) rfl
  | clearEvents m =>
    exact decodeFrame_action (c := .clearEvents) he (fun _ => nofun)
      (congrArg (fun w => some (Instr.clearEvents w)) (bytes16_joined m))
  | setEventEnable m =>
    exact decodeFrame_action (c := .setEventEnable) he (fun _ => nofun)
      (congrArg (fun w => some (Instr.setEventEnable w)) (bytes16_joined m))
  | ack a q =>
    exact decodeFrame_action (c := .ack) he (fun _ => nofun) (congrArg (fun w => some (Instr.ack a w)) (bytes32_joined q))
  | configureStream a p q h b g =>
    refine decodeFrame_action (c := .configureStream) he (fun _ => nofun) ?_
    show some (Instr.configureStream a p (_ ++ _) (_ ++ _) (_ ++ _) g) = _
    rw [bytes16_joined, bytes16_joined, bytes16_joined]
  | append a b l payload =>
    have hl : payload.length = l.toNat := by simpa [Instr.wellFormed] using hw
    refine decodeFrame_action (c := .append) he (fun _ => nofun) ?_
    show (if payload.length = (_ ++ _ : Word16).toNat then some (Instr.append a b (_ ++ _) payload) else none) = _
    rw [bytes16_joined, if_pos hl]
  | vaultWrite p o l data =>
    have hl : data.length = l.toNat := by simpa [Instr.wellFormed] using hw
    exact decodeFrame_action (c := .vaultWrite) he (fun _ => nofun) (if_pos hl)
  | _ => exact nomatch he

end Sys2Proof.Machine
end

section
/-! What the end of a step can change beyond the engine (R114, R121), and what the steps of COMMIT, RECLAIM, LEDGER and VAULT jobs
leave alone. Settles O49, O58. -/

namespace Sys2Proof.Machine

-- One proof after the other: the stacks of proofs elaborated side by side come near the memory that a check may take.
set_option Elab.async false

open Sys2Proof

variable {s t u : State}

/-! ### The end of a step (R111, R112, R114, R121) -/

/-- What reaching the head of the staging buffer and selecting a job do to a state: streams with staged entries fault, one after the
other, and the engine changes (R111, R114, R121). -/
inductive Faults (s : State) : State → Prop
  | none : Faults s s
  | fault {t : State} (e : Entry) (he : e ∈ t.staging) (h : Faults s t) : Faults s (t.faultStream e.stream)
  | engine {t : State} (e : Engine) (h : Faults s t) : Faults s { t with engine := e }

theorem Faults.trans (h : Faults s t) (h' : Faults t u) : Faults s u := by
  induction h' with
  | none => exact h
  | fault e he _ ih => exact .fault e he ih
  | engine e _ ih => exact .engine e ih

theorem faults_engine (s : State) (e : Engine) : Faults s { s with engine := e } := .engine e .none

theorem faults_setJob (s : State) (j : Job) : Faults s (s.setJob j) := faults_engine s _

theorem faults_reach : ∀ (n : Nat) (s : State), Faults s (s.reach n)
  | 0, _ => .none
  | n + 1, s => by
    unfold State.reach
    split
    · exact .none
    · rename_i e es he
      have hf : Faults s (State.reach n (s.faultStream e.stream)) :=
        Faults.trans (.fault e (he ▸ List.mem_cons_self) .none) (faults_reach n _)
      split
      · exact faults_setJob s _
      · split
        · exact faults_setJob s _
        · exact hf
      · split
        · exact hf
        · split <;> exact faults_setJob s _

theorem faults_reachHead (s : State) : Faults s s.reachHead := faults_reach _ s

theorem faults_selectReclaim (s : State) : Faults s s.selectReclaim := by
  unfold State.selectReclaim
  split
  · exact faults_engine s _
  · split <;> exact faults_engine s _

theorem faults_select (s : State) : Faults s s.select := by
  have hc : Faults s s.selectCommit := by
    unfold State.selectCommit
    dsimp only
    split
    · exact (faults_reachHead s).trans (faults_selectReclaim _)
    · exact .engine _ (faults_reachHead s)
  unfold State.select
  split
  · split
    · exact faults_engine s _
    · exact hc
  · exact hc

theorem faults_selectIfIdle (s : State) : Faults s s.selectIfIdle := by
  unfold State.selectIfIdle
  split
  · exact faults_select s
  · exact .none

theorem faults_yield (s : State) : Faults s s.yield := by
  unfold State.yield
  split
  · split
    · exact (faults_engine s _).trans (faults_select _)
    · exact .none
  · split
    · exact (faults_engine s _).trans (faults_select _)
    · exact .none
  · exact .none

theorem faults_endStep (s : State) (e : StepEnd) : Faults s (s.endStep e) := by
  have hl : Faults s { s with engine := { s.engine with resumeLock := false } } := faults_engine s _
  unfold State.endStep
  cases e with
  | completed => exact hl.trans ((faults_engine _ _).trans (faults_select _))
  | inside => exact hl
  | boundary =>
    dsimp only
    split
    · exact hl.trans (faults_engine _ _)
    · exact hl.trans (faults_yield _)

theorem faults_endRecord (s : State) : Faults s s.endRecord := (faults_reachHead s).trans (faults_endStep _ _)

theorem faults_chooseAgain (s : State) : Faults s s.chooseAgain := by
  unfold State.chooseAgain
  split
  · exact (faults_setJob s _).trans (faults_endStep _ _)
  · exact faults_endStep s _

/-- What faults leave alone (R34). -/
structure FaultsLeave (s t : State) : Prop where
  ledger : t.ledger = s.ledger
  pool : t.pool = s.pool
  reclaim : t.reclaim = s.reclaim
  segments : t.segments = s.segments

theorem Faults.leaves (h : Faults s t) : FaultsLeave s t := by
  induction h with
  | none => exact ⟨rfl, rfl, rfl, rfl⟩
  | @fault t e _ _ ih =>
    have hf := (stays_faultStream t e.stream).1
    exact ⟨hf.ledger.trans ih.ledger, hf.pool.trans ih.pool, hf.reclaim.trans ih.reclaim, hf.segments.trans ih.segments⟩
  | engine e _ ih => exact ⟨ih.ledger, ih.pool, ih.reclaim, ih.segments⟩

theorem Faults.staging (h : Faults s t) : t.staging.Sublist s.staging := by
  induction h with
  | none => exact List.Sublist.refl _
  | @fault t e _ _ ih =>
    rw [(stays_faultStream t e.stream).2]
    exact List.filter_sublist.trans ih
  | engine e _ ih => exact ih

/-! ### Where no stream faults (R114) -/

/-- Where the head entry proceeds, reaching it changes the engine alone. -/
theorem reach_of_proceeds (h : s.Proceeds s.staging) (n : Nat) : s.reach n = { s with engine := (s.reach n).engine } := by
  cases n with
  | zero => rfl
  | succ n =>
    unfold State.reach
    split
    · rfl
    · rename_i e es he
      obtain ⟨hnew, hawaiting⟩ := h e (by rw [he]; rfl)
      split
      · rfl
      · rename_i hp
        rw [if_pos (hawaiting hp)]
        rfl
      · rename_i hp
        rw [if_neg (by simpa using hnew hp)]
        split <;> rfl

theorem reachHead_of_proceeds (h : s.Proceeds s.staging) : s.reachHead = { s with engine := s.reachHead.engine } :=
  reach_of_proceeds h _

theorem selectReclaim_eq (s : State) : s.selectReclaim = { s with engine := s.selectReclaim.engine } := by
  unfold State.selectReclaim
  split
  · rfl
  · split <;> rfl

/-- Where the head entry proceeds, a selection changes the engine alone. -/
theorem select_of_proceeds (h : s.Proceeds s.staging) : s.select = { s with engine := s.select.engine } := by
  have hc : s.selectCommit = { s with engine := s.selectCommit.engine } := by
    unfold State.selectCommit
    dsimp only
    split
    · rw [selectReclaim_eq s.reachHead]
      exact congrArg (fun u : State => { u with engine := s.reachHead.selectReclaim.engine }) (reachHead_of_proceeds h)
    · exact congrArg (fun u : State => { u with engine := { s.reachHead.engine with state := .running } }) (reachHead_of_proceeds h)
  unfold State.select
  split
  · split
    · rfl
    · exact hc
  · exact hc

/-- Where the head entry proceeds, a completed job leaves a change of the engine alone. -/
theorem endStep_of_proceeds (h : s.Proceeds s.staging) :
    s.endStep .completed = { s with engine := (s.endStep .completed).engine } :=
  select_of_proceeds (s := State.idle { s with engine := { s.engine with resumeLock := false } }) h

/-! ### What job steps leave of the streams and of the pool side -/

/-- What a job step may change of a stream's record; the last committed sequence where `r`, the durable frontier where `l` says so. -/
structure Stream.JobKept (r l : Bool) (t t' : Stream) : Prop where
  frame : { t' with
    state := t.state, preFault := t.preFault, nextSeq := t.nextSeq, lastCommitted := t.lastCommitted
    durableFrontier := t.durableFrontier, chain := t.chain, reserved := t.reserved, notices := t.notices
    heldAtOrAbove := t.heldAtOrAbove, unreadAbove := t.unreadAbove } = t
  lastCommitted : r = false → t'.lastCommitted = t.lastCommitted
  durableFrontier : l = false → t'.durableFrontier = t.durableFrontier
  state : t'.state ≠ t.state → t'.state = .faulted

theorem Stream.JobKept.refl (r l : Bool) (t : Stream) : t.JobKept r l t := ⟨rfl, fun _ => rfl, fun _ => rfl, fun h => absurd rfl h⟩

theorem Stream.JobKept.trans {r l : Bool} {t t' t'' : Stream} (h : t.JobKept r l t') (h' : t'.JobKept r l t'') : t.JobKept r l t'' where
  frame := by
    have hf := congrArg (fun x : Stream => ({ x with
      state := t.state, preFault := t.preFault, nextSeq := t.nextSeq, lastCommitted := t.lastCommitted
      durableFrontier := t.durableFrontier, chain := t.chain, reserved := t.reserved, notices := t.notices
      heldAtOrAbove := t.heldAtOrAbove, unreadAbove := t.unreadAbove } : Stream)) h'.frame
    exact hf.trans h.frame
  lastCommitted hr := (h'.lastCommitted hr).trans (h.lastCommitted hr)
  durableFrontier hl := (h'.durableFrontier hl).trans (h.durableFrontier hl)
  state hs := by
    by_cases he : t''.state = t'.state
    · rw [he]
      exact h.state (he ▸ hs)
    · exact h'.state he

/-- What a job step leaves of the streams, the pool side and POOL_LOW before the pool side is evaluated. -/
structure JobKept (r l : Bool) (s t : State) : Prop where
  poolBelow : t.poolBelow = s.poolBelow
  poolLow : t.eventLatch.getLsbD 5 = s.eventLatch.getLsbD 5
  streams : ∀ i : StreamId, (s.streams[i]'i.isLt).JobKept r l (t.streams[i]'i.isLt)

variable {r l : Bool}

theorem JobKept.of_eq (hs : t.streams = s.streams) (hp : t.poolBelow = s.poolBelow) (he : t.eventLatch = s.eventLatch) :
    JobKept r l s t := ⟨hp, by rw [he], fun i => by rw [hs]; exact .refl r l _⟩

theorem JobKept.refl (s : State) : JobKept r l s s := .of_eq rfl rfl rfl

theorem JobKept.trans (h : JobKept r l s t) (h' : JobKept r l t u) : JobKept r l s u :=
  ⟨h'.poolBelow.trans h.poolBelow, h'.poolLow.trans h.poolLow, fun i => (h.streams i).trans (h'.streams i)⟩

theorem JobKept.ite (b : Prop) [Decidable b] (h : JobKept r l s t) (h' : JobKept r l s u) : JobKept r l s (if b then t else u) := by
  split <;> assumption

theorem JobKept.after (h' : JobKept r l t u) (h : JobKept r l s t) : JobKept r l s u := h.trans h'

theorem jobKept_raise (s : State) (e : Event) (he : e ≠ .poolLow := by decide) : JobKept r l s (s.raise e) := by
  refine ⟨rfl, ?_, fun i => .refl r l _⟩
  rw [State.raise_getLsbD]
  cases e <;> simp [Event.bit] at he ⊢

theorem jobKept_updStream (s : State) (i : StreamId) {f : Stream → Stream}
    (hf : (s.streams[i]'i.isLt).JobKept r l (f (s.streams[i]'i.isLt))) :
    JobKept r l s (s.updStream i f) := by
  refine ⟨rfl, rfl, fun j => ?_⟩
  by_cases h : j = i
  · subst h
    rw [State.updStream_same]
    exact hf
  · rw [State.updStream_other s i j f (Ne.symm h)]
    exact .refl r l _

theorem jobKept_notify (s : State) (i : StreamId) (n : Notice) : JobKept r l s (s.notify i n) :=
  jobKept_updStream s i ⟨rfl, fun _ => rfl, fun _ => rfl, fun h => absurd rfl h⟩

theorem jobKept_evalHeld (s : State) (i : StreamId) : JobKept r l s (s.evalHeld i) := by
  have hu : JobKept r l s (s.updStream i fun t => { t with heldAtOrAbove := t.heldSide }) :=
    jobKept_updStream s i ⟨rfl, fun _ => rfl, fun _ => rfl, fun h => absurd rfl h⟩
  unfold State.evalHeld
  exact JobKept.ite _ (hu.trans ((jobKept_notify _ _ _).trans (jobKept_raise _ _))) hu

theorem jobKept_evalUnread (s : State) (i : StreamId) : JobKept r l s (s.evalUnread i) := by
  have hu : JobKept r l s (s.updStream i fun t => { t with unreadAbove := t.unreadSide }) :=
    jobKept_updStream s i ⟨rfl, fun _ => rfl, fun _ => rfl, fun h => absurd rfl h⟩
  unfold State.evalUnread
  exact JobKept.ite _ (hu.trans ((jobKept_notify _ _ _).trans (jobKept_raise _ _))) hu

theorem jobKept_satisfy (s : State) (f : SyncItem → Bool) : JobKept r l s (s.satisfy f) := .of_eq rfl rfl rfl

theorem jobKept_evalSync (s : State) : JobKept r l s s.evalSync := by
  unfold State.evalSync
  split
  · exact .after (jobKept_raise _ _) (.of_eq rfl rfl rfl)
  · exact .refl s

theorem jobKept_faultStream (s : State) (i : StreamId) : JobKept r l s (s.faultStream i) := by
  have hrecord : (s.streams[i]'i.isLt).JobKept r l { (s.streams[i]'i.isLt) with
      state := .faulted, preFault := (s.streams[i]'i.isLt).state, reserved := 0, nextSeq := (s.streams[i]'i.isLt).lastCommitted + 1 } :=
    ⟨rfl, fun _ => rfl, fun _ => rfl, fun _ => rfl⟩
  unfold State.faultStream
  dsimp only
  refine .after (jobKept_evalHeld _ i) (.after (jobKept_evalSync _) ?_)
  refine .after (jobKept_satisfy _ _) (.after (jobKept_raise _ _) (.after (jobKept_raise _ _) (.after (jobKept_notify _ _ _) ?_)))
  exact (jobKept_updStream s i hrecord (f := fun t =>
    { t with state := .faulted, preFault := t.state, reserved := 0, nextSeq := t.lastCommitted + 1 })).trans (.of_eq rfl rfl rfl)

theorem Faults.jobKept (h : Faults s t) : JobKept r l s t := by
  induction h with
  | none => exact .refl s
  | fault e _ _ ih => exact ih.trans (jobKept_faultStream _ e.stream)
  | engine e _ ih => exact ih.trans (.of_eq rfl rfl rfl)

theorem jobKept_releaseCovered (s : State) (i : StreamId) : JobKept r l s (s.releaseCovered i) := by
  by_cases h : s.walked i = []
  · rw [State.walked_nil h]
    exact .refl s
  · rw [State.releaseCovered_eq h]
    have hu := jobKept_updStream (r := r) (l := l) s i (f := fun t => { t with chain := s.unwalked i })
      ⟨rfl, fun _ => rfl, fun _ => rfl, fun h => absurd rfl h⟩
    exact .after (jobKept_evalHeld _ i) (hu.trans (.of_eq rfl rfl rfl))

theorem jobKept_retire (s : State) (k : DataSeg) : JobKept r l s (s.retire k) := .after (jobKept_raise _ _) (.of_eq rfl rfl rfl)

theorem jobKept_dispose (s : State) (k : DataSeg) : JobKept r l s (s.dispose k) := by
  unfold State.dispose
  exact JobKept.ite _ (jobKept_retire s k) (.of_eq rfl rfl rfl)

theorem jobKept_disposeAll : ∀ (ks : List DataSeg) (s : State), JobKept r l s (s.disposeAll ks)
  | [], s => .refl s
  | k :: ks, s => (jobKept_dispose s k).trans (jobKept_disposeAll ks _)

/-- A completed entry changes no more of a stream's record than the durable frontier (R140). -/
theorem Stream.jobKept_handedOn (t : Stream) (x : Option (Nat × Nat)) : t.JobKept r true (t.handedOn x) := by
  unfold Stream.handedOn
  split
  · split
    · exact ⟨rfl, fun _ => rfl, nofun, fun h => absurd rfl h⟩
    · exact .refl r true t
  · exact .refl r true t

theorem jobKept_handOn (s : State) (b : Bool) (x : Recorded) : JobKept r true s (s.handOn b x) := by
  unfold State.handOn
  dsimp only
  refine JobKept.trans (t := { s with streams := tabulate fun i => (s.streams[i]'i.isLt).handedOn (x i) }) ?_ ?_
  · refine ⟨rfl, rfl, fun i => ?_⟩
    rw [tabulate_get]
    exact Stream.jobKept_handedOn _ _
  · exact .after (jobKept_evalSync _) (.after (jobKept_satisfy _ _) (jobKept_disposeAll _ _))

/-! ### Job by job -/

theorem jobKept_programmed (s : State) (w : ArrayWork) (p : Pulses) : JobKept r l s (s.programmed w p) := .of_eq rfl rfl rfl

theorem jobKept_updSegment (s : State) (k : DataSeg) (f : Segment → Segment) : JobKept r l s (s.updSegment k f) := .of_eq rfl rfl rfl

theorem jobKept_updLedger (s : State) (f : Ledger → Ledger) : JobKept r l s (s.updLedger f) := .of_eq rfl rfl rfl

theorem jobKept_endStep (s : State) (e : StepEnd) : JobKept r l s (s.endStep e) := (faults_endStep s e).jobKept

theorem jobKept_setEnd (s : State) (j : Job) (e : StepEnd) : JobKept r l s ((s.setJob j).endStep e) :=
  ((faults_setJob s j).trans (faults_endStep _ e)).jobKept

theorem jobKept_continueOpening (s : State) (e : Entry) : JobKept r l s (s.continueOpening e) := by
  unfold State.continueOpening
  exact JobKept.ite _ (jobKept_setEnd s _ _) ((jobKept_faultStream s _).trans (faults_endRecord _).jobKept)

theorem jobKept_withdraw (s : State) (k : DataSeg) : JobKept r l s (s.withdraw k) :=
  .after (jobKept_setEnd _ _ _) (.after (jobKept_retire _ k) (.of_eq rfl rfl rfl))

theorem jobKept_opened (s : State) (e : Entry) (k : DataSeg) : JobKept r l s (s.opened e k) := by
  have hchain : JobKept r l s (s.joinChain e k) :=
    JobKept.trans (jobKept_updStream s e.stream (f := fun t => { t with chain := t.chain ++ [k] })
      ⟨rfl, fun _ => rfl, fun _ => rfl, fun h => absurd rfl h⟩) (.of_eq rfl rfl rfl)
  have hplace : JobKept r l (s.joinChain e k) (((s.joinChain e k).placeAwaiting e.stream).evalHeld e.stream) :=
    .after (jobKept_evalHeld _ _) (.of_eq rfl rfl rfl)
  unfold State.opened
  dsimp only
  refine .after (jobKept_setEnd _ _ _) (.after ?_ hchain)
  split
  · exact jobKept_updStream _ e.stream ⟨rfl, fun _ => rfl, fun _ => rfl, fun h => absurd rfl h⟩
  · exact hplace
  · exact hplace

theorem jobKept_committed (s : State) (e : Entry) (k : DataSeg) : JobKept true l s (s.committed e k) := by
  have hrecord : (s.streams[e.stream]'e.stream.isLt).JobKept true l { (s.streams[e.stream]'e.stream.isLt) with lastCommitted := e.seq } :=
    ⟨rfl, (fun h => nomatch h), fun _ => rfl, fun h => absurd rfl h⟩
  refine .after (faults_endRecord _).jobKept (.after (jobKept_evalSync _) (.after (jobKept_satisfy _ _) ?_))
  exact .after (jobKept_evalUnread _ e.stream) ((jobKept_updStream s e.stream
      (f := fun t => { t with lastCommitted := e.seq }) hrecord).trans (.of_eq rfl rfl rfl))

theorem jobKept_recordFailed (s : State) (e : Entry) (k : DataSeg) : JobKept r l s (s.recordFailed e k) := by
  unfold State.recordFailed
  exact .after (jobKept_setEnd _ _ _) (.of_eq rfl rfl rfl)

theorem jobKept_chooseAgain (s : State) : JobKept r l s s.chooseAgain := (faults_chooseAgain s).jobKept

theorem jobKept_haltLedger (s : State) : JobKept r l s s.haltLedger := (jobKept_updLedger s _).trans (jobKept_raise _ _)

theorem jobKept_completeImage (s : State) (c : Captured) : JobKept r true s (s.completeImage c) :=
  (jobKept_updLedger s _).trans (jobKept_handOn _ _ _)

theorem jobKept_beginImage (s : State) : JobKept r l s s.beginImage := by
  unfold State.beginImage
  split
  · exact .refl s
  · exact .of_eq rfl rfl rfl

theorem jobKept_attemptFailed (s : State) (a : AnchorSeg) (n : Nat) : JobKept r l s (s.attemptFailed a n) := by
  unfold State.attemptFailed
  exact JobKept.ite _ ((jobKept_updLedger s _).trans (jobKept_setEnd _ _ _)) ((jobKept_haltLedger s).trans (jobKept_endStep _ _))

theorem jobKept_imageUnit (s : State) (p : Pulses) : JobKept r true s (s.imageUnit p) := by
  have hunit : JobKept r true s ((s.beginImage.programmed (s.ledgerWork .image) p).updLedger fun l =>
      { l with nextFree := l.nextFree + 1 }) :=
    ((jobKept_beginImage s).trans (jobKept_programmed _ _ _)).trans (jobKept_updLedger _ _)
  unfold State.imageUnit
  dsimp only
  split
  · split
    · exact (hunit.trans (jobKept_updLedger _ _)).trans (jobKept_endStep _ _)
    · exact (hunit.trans (jobKept_completeImage _ _)).trans (jobKept_chooseAgain _)
  · exact (hunit.trans (jobKept_updLedger _ _)).trans (jobKept_setEnd _ _ _)

theorem jobKept_compactUnit (s : State) (w : ArrayWork) (p : Pulses) (a : AnchorSeg) (n : Nat) :
    JobKept r true s (s.compactUnit w p a n) := by
  unfold State.compactUnit
  refine (jobKept_programmed s w p).trans (.ite _ (.ite _ ?_ ?_) ?_)
  · exact (jobKept_updLedger _ _).trans (jobKept_setEnd _ _ _)
  · exact (jobKept_updLedger _ _).trans ((jobKept_completeImage _ _).trans (jobKept_chooseAgain _))
  · exact jobKept_attemptFailed _ a n

theorem jobKept_ledgerUnit (s : State) (p : Pulses) (w : LedgerWork) : JobKept r true s (s.ledgerUnit p w) := by
  cases w with
  | image => exact jobKept_imageUnit s p
  | compactCapture a n => exact .after (jobKept_compactUnit (s.captureImage s.freshCapture) _ p a n) (.of_eq rfl rfl rfl)
  | compactImage a n => exact jobKept_compactUnit s _ p a n
  | note i => exact .refl s
  | compactErase a m n => exact .refl s

theorem jobKept_noteUnitStep (s : State) (p : Pulses) (i : StreamId) : JobKept r true s (s.noteUnitStep p i) := by
  unfold State.noteUnitStep
  dsimp only
  split
  · exact .after (jobKept_chooseAgain _) (.after (jobKept_handOn _ _ _) (.of_eq rfl rfl rfl))
  · exact .after (jobKept_setEnd _ _ _) (.of_eq rfl rfl rfl)

theorem jobKept_compactPulse (s : State) (x : Residue) (a : AnchorSeg) (m n : Nat) : JobKept r l s (s.compactPulse x a m n) := by
  unfold State.compactPulse
  dsimp only
  split
  · exact .after (jobKept_setEnd _ _ _) (.of_eq rfl rfl rfl)
  · split
    · exact .after (jobKept_endStep _ _) (.after (jobKept_haltLedger _) (.of_eq rfl rfl rfl))
    · exact .after (jobKept_setEnd _ _ _) (.of_eq rfl rfl rfl)

theorem jobKept_sealStep (s : State) (p : Pulses) (e : Entry) (k : DataSeg) : JobKept r l s (s.sealStep p e k) := by
  unfold State.sealStep
  exact .after (jobKept_setEnd _ _ _) (.after (jobKept_releaseCovered _ _) (.of_eq rfl rfl rfl))

theorem jobKept_openFreeStage (s : State) (p : Pulses) (k : DataSeg) : JobKept r l s (s.openFreeStage p k) := by
  unfold State.openFreeStage
  exact (jobKept_programmed s _ p).trans (.ite _ ((jobKept_updSegment _ k _).trans (jobKept_setEnd _ _ _)) (jobKept_withdraw _ k))

theorem jobKept_openStep (s : State) (p : Pulses) (e : Entry) (k : DataSeg) : JobKept r l s (s.openStep p e k) := by
  unfold State.openStep
  exact (jobKept_programmed s _ p).trans (.ite _ (jobKept_opened _ e k) (jobKept_withdraw _ k))

theorem jobKept_openRetireStep (s : State) (p : Pulses) (e : Entry) (k : DataSeg) : JobKept r l s (s.openRetireStep p e k) := by
  unfold State.openRetireStep
  exact .after (jobKept_continueOpening _ e) (.of_eq rfl rfl rfl)

theorem jobKept_recordStep (s : State) (p : Pulses) (e : Entry) (k : DataSeg) : JobKept true l s (s.recordStep p e k) := by
  unfold State.recordStep
  exact (jobKept_programmed s _ p).trans (.ite _ (jobKept_committed _ e k) (jobKept_recordFailed _ e k))

theorem jobKept_closeStep (s : State) (p : Pulses) (e : Entry) (k : DataSeg) : JobKept r l s (s.closeStep p e k) := by
  unfold State.closeStep
  refine .after (jobKept_continueOpening _ e) (.after (jobKept_releaseCovered _ _) (.after (jobKept_raise _ _) ?_))
  exact (jobKept_programmed s _ p).trans (jobKept_updSegment _ k _)

theorem jobKept_reclaimPulse (s : State) (x : Residue) (k : DataSeg) (n : Nat) : JobKept r l s (s.reclaimPulse x k n) := by
  unfold State.reclaimPulse
  exact .after (jobKept_setEnd _ _ _) (.of_eq rfl rfl rfl)

theorem jobKept_toPool (s : State) (k : DataSeg) : JobKept r l s (s.toPool k) := .of_eq rfl rfl rfl

theorem jobKept_reclaimFreeStage (s : State) (p : Pulses) (k : DataSeg) (n : Nat) :
    JobKept r l s (s.reclaimFreeStage p k n) := by
  have hcount : ∀ ok, JobKept r l s (State.enterCount k n ok (s.programmed (ErasePhase.work k (.freeStage n)) p)) := fun ok =>
    (jobKept_programmed s _ p).trans (jobKept_updSegment _ k _)
  unfold State.reclaimFreeStage
  dsimp only
  split
  · exact .after (jobKept_endStep _ _) (.after (jobKept_toPool _ k) (hcount _))
  · exact .after (jobKept_setEnd _ _ _) (hcount _)

theorem jobKept_reclaimRetire (s : State) (p : Pulses) (k : DataSeg) (d : Byte) (b : Bool) :
    JobKept r l s (s.reclaimRetire p k d b) := by
  unfold State.reclaimRetire
  exact .after (jobKept_endStep _ _) (.after (jobKept_retire _ k) (.of_eq rfl rfl rfl))

theorem jobKept_vaultByteStep (s : State) (p : List Byte) (g : Fin 4) (o : Nat) (b : Byte) (bs : List Byte) :
    JobKept r l s (s.vaultByteStep p g o b bs) := by
  unfold State.vaultByteStep
  dsimp only
  split
  · exact .after (jobKept_endStep _ _) (.of_eq rfl rfl rfl)
  · exact .after (jobKept_setEnd _ _ _) (.of_eq rfl rfl rfl)

theorem jobKept_vaultPulse (s : State) (x : Residue) (g : Fin 4) (n : Nat) : JobKept r l s (s.vaultPulse x g n) := by
  unfold State.vaultPulse
  dsimp only
  split
  · exact .after (jobKept_endStep _ _) (.of_eq rfl rfl rfl)
  · exact .after (jobKept_setEnd _ _ _) (.of_eq rfl rfl rfl)

theorem jobKept_lockStep (s : State) (b : Bool) (g : Fin 4) : JobKept r l s (s.lockStep b g) := by
  unfold State.lockStep
  exact .after (jobKept_endStep _ _) (.of_eq rfl rfl rfl)

/-- The row is a record step. -/
def isRecordStep : Instr → Bool
  | .commitRecordStep _ => true
  | _ => false

/-- A step of a job other than FORMAT changes of the streams and the pool side what its kind may change. -/
theorem StepAct.jobKept {c : Instr} (h : StepAct s c u) : JobKept (isRecordStep c) c.ledgerStep s u := by
  cases h with
  | sealOpen p e es k => exact jobKept_sealStep s p e k
  | freeStage p k ks => exact jobKept_openFreeStage s p k
  | openStage p e es k ks => exact jobKept_openStep s p e k
  | openRetire p e es k => exact jobKept_openRetireStep s p e k
  | record p e es k => exact jobKept_recordStep s p e k
  | close p e es k => exact jobKept_closeStep s p e k
  | reclaimPulse x k n => exact jobKept_reclaimPulse s x k n
  | reclaimFreeStage p k n => exact jobKept_reclaimFreeStage s p k n
  | reclaimRetire p k d b => exact jobKept_reclaimRetire s p k d b
  | image p w => exact jobKept_ledgerUnit s p w
  | note p i => exact jobKept_noteUnitStep s p i
  | compactPulse x a m n => exact jobKept_compactPulse s x a m n
  | vaultByte p g o b bs => exact jobKept_vaultByteStep s p g o b bs
  | vaultPulse x g n => exact jobKept_vaultPulse s x g n
  | vaultLock b g => exact jobKept_lockStep s b g

/-! ### The pool side (R167, R170) -/

@[simp] theorem State.evalPool_available (s : State) (n : Int) : (s.evalPool n).available = s.available := by
  rw [State.evalPool_eq]
  rfl

@[simp] theorem State.evalPool_lowWater (s : State) (n : Int) : (s.evalPool n).lowWater = s.lowWater := by rw [State.evalPool_eq]

/-- The end of a step evaluates the pool side where the available count has changed since its start. -/
theorem poolEvaluated_evalPool (hb : u.poolBelow = s.poolBelow) (he : u.eventLatch.getLsbD 5 = s.eventLatch.getLsbD 5) :
    s.PoolEvaluated (u.evalPool s.available) where
  kept h := by
    rw [State.evalPool_available] at h
    rw [← h, evalPool_self]
    exact ⟨hb, he⟩
  side h := by
    rw [State.evalPool_available] at h ⊢
    rw [State.evalPool_eq]
    simp only [if_neg h]
    rfl
  event h := by
    rw [State.evalPool_available] at h
    rw [State.evalPool_getLsbD, he]
    simp [State.poolArrives, State.evalPool_eq, h, hb]

/-! ### What the VAULT steps change (R183) -/

theorem faults_vaultByteStep (s : State) (p : List Byte) (g : Fin 4) (o : Nat) (b : Byte) (bs : List Byte) :
    Faults { s with vault := setVaultByte s.vault g o (s.programmedByte g o b p) } (s.vaultByteStep p g o b bs) := by
  unfold State.vaultByteStep
  dsimp only
  split
  · exact faults_endStep _ _
  · exact (faults_setJob _ _).trans (faults_endStep _ _)

theorem faults_vaultPulse (s : State) (x : Residue) (g : Fin 4) (n : Nat) :
    Faults { s with vault := eraseVaultPage s.vault g x } (s.vaultPulse x g n) := by
  unfold State.vaultPulse
  dsimp only
  split
  · exact faults_endStep _ _
  · exact (faults_setJob _ _).trans (faults_endStep _ _)

/-- A step of a VAULT job leaves the segment table and the array. -/
theorem StepAct.vault_leaves {c : Instr} (h : StepAct s c u) (hc : c.vaultStep = true) :
    u.array = s.array ∧ u.segments = s.segments := by
  cases h with
  | vaultByte p g o b bs => exact ⟨(kept_vaultByteStep s p g o b bs).array, (faults_vaultByteStep s p g o b bs).leaves.segments⟩
  | vaultPulse x g n => exact ⟨(kept_vaultPulse s x g n).array, (faults_vaultPulse s x g n).leaves.segments⟩
  | vaultLock b g => exact ⟨(kept_endStep _ _).array, (faults_endStep _ _).leaves.segments⟩
  | _ => cases hc

/-- What the work of a step leaves of what no operation touches: only a VAULT step changes the vault and the lock bits. -/
structure WorkKept (c : Instr) (s t : State) : Prop where
  power : t.power = s.power
  port : t.port = s.port
  guard : t.guard = s.guard
  eventEnable : t.eventEnable = s.eventEnable
  lowWater : t.lowWater = s.lowWater
  pending : t.pending = s.pending
  freeIndex : t.freeIndex = s.freeIndex
  vault : c.vaultStep = false → t.vaultLocks = s.vaultLocks ∧ t.vault = s.vault

theorem WorkKept.congr {c : Instr} (h : WorkKept c s t) (k : Kept t u) : WorkKept c s u where
  power := k.power.trans h.power
  port := k.port.trans h.port
  guard := k.guard.trans h.guard
  eventEnable := k.eventEnable.trans h.eventEnable
  lowWater := k.lowWater.trans h.lowWater
  pending := k.pending.trans h.pending
  freeIndex := k.freeIndex.trans h.freeIndex
  vault hc := ⟨k.vaultLocks.trans (h.vault hc).1, k.vault.trans (h.vault hc).2⟩

theorem Worked.kept {c : Instr} (h : Worked s c t) : WorkKept c s t := by
  cases h with
  | none | programmed | erased => exact ⟨rfl, rfl, rfl, rfl, rfl, rfl, rfl, fun _ => ⟨rfl, rfl⟩⟩
  | vaultByte hc | vaultErased hc | locked hc => exact ⟨rfl, rfl, rfl, rfl, rfl, rfl, rfl, fun h => by simp [hc] at h⟩

/-- Settles O49: the work of a step, what its operations leave of the streams, and the evaluation of the pool side at its end. -/
theorem jobStepsFrame : Obligations.JobStepsFrame := by
  intro c s t hc h
  cases jobStep_row hc h with
  | stays =>
    exact ⟨rfl, rfl, rfl, rfl, rfl, rfl, rfl, ⟨fun _ => ⟨rfl, rfl⟩, fun h => absurd rfl h, fun h => absurd rfl h⟩,
      fun _ => ⟨rfl, rfl⟩, fun _ => ⟨rfl, rfl⟩, fun i => ⟨rfl, fun _ => rfl, fun _ => rfl, fun h => absurd rfl h⟩⟩
  | @step u hp hr hact =>
    obtain ⟨w, hw, hk⟩ := hact.worked hr
    have hkept := (hw.kept.congr hk).congr (kept_evalPool u s.available)
    have hjob := hact.jobKept
    refine ⟨hkept.power, hkept.port, hkept.guard, hkept.eventEnable, hkept.lowWater, hkept.pending, hkept.freeIndex,
      poolEvaluated_evalPool hjob.poolBelow hjob.poolLow, hkept.vault, fun hv => ?_, fun i => ?_⟩
    · obtain ⟨ha, hs⟩ := hact.vault_leaves hv
      exact ⟨(kept_evalPool u s.available).array.trans ha, by rw [State.evalPool_segments, hs]⟩
    · rw [State.evalPool_streams]
      obtain ⟨hframe, hlast, hdurable, hstate⟩ := hjob.streams i
      refine ⟨hframe, fun hn => hlast ?_, hdurable, hstate⟩
      cases c with
      | commitRecordStep p => exact absurd rfl (hn p)
      | _ => rfl

/-! ### The selection at the end of a job -/

/-- The selection at the end of a job looks at what an evaluation of the pool side leaves. -/
theorem selected_evalPool {slot : Option (DataSeg × Nat)} (h : t.Selected slot) (n : Int) : (t.evalPool n).Selected slot := by
  rw [State.evalPool_eq]
  obtain ⟨h1, h2, h3, h4, h5⟩ := h
  exact ⟨h1, h2, h3, h4, h5⟩

/-- A selection never takes up a VAULT job (R111). -/
theorem selected_not_vault {slot : Option (DataSeg × Nat)} (h : t.Selected slot) (w : VaultWork) : t.engine.job ≠ some (.vault w) := by
  intro hj
  cases ht : t.ledger.trigger with
  | true =>
    obtain ⟨-, -, x, -, hx⟩ := h.ledger ht
    rw [hj] at hx
    cases hx
  | false =>
    by_cases hs : t.staging = []
    · rcases slot with _ | ⟨k, n⟩
      · cases hr : t.reclaim with
        | nil =>
          obtain ⟨-, -, hx⟩ := h.idle ht hs rfl hr
          rw [hj] at hx
          cases hx
        | cons k ks =>
          obtain ⟨-, -, hx⟩ := h.reclaim ht hs rfl k ks hr
          rw [hj] at hx
          cases hx
      · obtain ⟨-, -, hx⟩ := h.preempted ht hs k n rfl
        rw [hj] at hx
        cases hx
    · obtain ⟨-, -, hc⟩ := h.commit ht hs
      obtain ⟨c, hx⟩ := hc.job
      rw [hj] at hx
      cases hx

@[simp] theorem selectReclaim_resumeLock (s : State) : s.selectReclaim.engine.resumeLock = s.engine.resumeLock := by
  unfold State.selectReclaim
  split
  · rfl
  · split <;> rfl

@[simp] theorem select_resumeLock (s : State) : s.select.engine.resumeLock = s.engine.resumeLock := by
  have hr := (reached_reachHead s).resumeLock
  have hc : s.selectCommit.engine.resumeLock = s.engine.resumeLock := by
    unfold State.selectCommit
    dsimp only
    split
    · rw [selectReclaim_resumeLock, hr]
    · exact hr
  unfold State.select
  split
  · split
    · rfl
    · exact hc
  · exact hc

/-- Every step clears the resume lock (R128). -/
@[simp] theorem endStep_resumeLock (s : State) (e : StepEnd) : (s.endStep e).engine.resumeLock = false := by
  unfold State.endStep
  cases e with
  | completed => exact select_resumeLock _
  | inside => rfl
  | boundary =>
    dsimp only
    split
    · rfl
    · unfold State.yield
      split
      · split
        · exact select_resumeLock _
        · rfl
      · split
        · exact select_resumeLock _
        · rfl
      · rfl

/-! ### VAULT steps (R181 to R183) -/

/-- A program pulse leaves the bits of the byte that it drives toward (R183). -/
theorem programVaultByte_keeps (target : Byte) : ∀ (n : Nat) (v : Byte) (ps : List Byte), v &&& target = target →
    programVaultByte target n v ps &&& target = target
  | 0, _, _, h => h
  | n + 1, v, ps, h => by
    simp only [programVaultByte]
    split
    · exact h
    · refine programVaultByte_keeps target n _ ps.tail ?_
      rw [BitVec.and_assoc, BitVec.and_comm _ target, ← BitVec.and_assoc, h]
      ext i hi
      simp +contextual

/-- Without resistance a byte takes the value it is driven toward (R183). -/
theorem programVaultByte_unresisted {target v : Byte} (n : Nat) (h : v &&& target = target) :
    programVaultByte target (n + 2) v [] = target := by
  have hp : v &&& (target ||| (([] : List Byte).headD 0)) = target := by simpa using h
  rw [programVaultByte]
  split
  · assumption
  · rw [hp, programVaultByte, if_pos rfl]

theorem vaultErased_iff {v : Vector (Vector Byte 128) 4} {p : Fin 4} : vaultErased v p = true ↔ ∀ j : Fin 128, v[p][j] = 0xFF := by
  simp only [vaultErased, List.all_eq_true, beq_iff_eq, Vector.mem_toList_iff, Vector.mem_iff_getElem]
  exact ⟨fun h j => h _ ⟨j.val, j.isLt, rfl⟩, fun h b ⟨i, hi, hb⟩ => hb ▸ h ⟨i, hi⟩⟩

/-- An erase pulse without residue leaves the page FFh (R183). -/
theorem eraseVaultPage_clean (v : Vector (Vector Byte 128) 4) (p : Fin 4) (j : Fin 128) : (eraseVaultPage v p [])[p][j] = 0xFF := by
  simp [eraseVaultPage]

/-- The row of a step that is due. -/
theorem stepWhen_due {j : Job} {act : State → State} (hd : s.due j = true) :
    s.stepWhen (s.due j) act = .next ((act s).evalPool s.available) := if_pos hd

/-- Where a step leaves the available count, the evaluation of the pool side does nothing (R170). -/
theorem evalPool_of_available {n : Int} (h : s.available = n) : s.evalPool n = s := if_pos h

/-- Where the head entry proceeds, the end of a job leaves a change of the engine alone. -/
theorem evalPool_completed (h : s.Proceeds s.staging) :
    (s.endStep .completed).evalPool s.available = { s with engine := (s.endStep .completed).engine } := by
  rw [endStep_of_proceeds h]
  exact evalPool_of_available rfl

/-- Inside a job a step leaves a change of the engine alone. -/
theorem evalPool_inside (s : State) (j : Job) : ((s.setJob j).endStep .inside).evalPool s.available
    = { s with engine := { s.engine with job := some j, resumeLock := false } } := evalPool_of_available rfl

section VaultSteps

variable {p : Fin 4}

/-- A byte of a VAULT WRITE: what it does to the vault, and whether the job goes on. -/
theorem exec_vaultByte {pulses : List Byte} {o : Fin 128} {v : Byte} {vs : List Byte}
    (hd : s.due (.vault (.write p o.val (v :: vs))) = true) :
    exec (.vaultWriteByteStep pulses) s = .next ((s.vaultByteStep pulses p o.val v vs).evalPool s.available) := by
  have hj := (due_iff.1 hd).2.2
  simp only [exec, execVaultWriteByteStep, hj]
  exact stepWhen_due hd

theorem exec_vaultPulse {r : Residue} {n : Nat} (hd : s.due (.vault (.erase p n)) = true) :
    exec (.vaultErasePulse r) s = .next ((s.vaultPulse r p n).evalPool s.available) := by
  have hj := (due_iff.1 hd).2.2
  simp only [exec, execVaultErasePulse, hj]
  exact stepWhen_due hd

theorem exec_vaultLock {b : Bool} (hd : s.due (.vault (.lock p)) = true) :
    exec (.vaultLockStep b) s = .next ((s.lockStep b p).evalPool s.available) := by
  have hj := (due_iff.1 hd).2.2
  simp only [exec, execVaultLockStep, hj]
  exact stepWhen_due hd

/-- The byte that a step leaves: no bit more than before, none less than old AND new, and just that without resistance (R183). -/
theorem programmedByte_spec (s : State) (p : Fin 4) (o : Fin 128) (v : Byte) (pulses : List Byte) :
    s.programmedByte p o.val v pulses &&& (s.vault[p]'p.isLt)[o] = s.programmedByte p o.val v pulses
      ∧ s.programmedByte p o.val v pulses &&& ((s.vault[p]'p.isLt)[o] &&& v) = (s.vault[p]'p.isLt)[o] &&& v
      ∧ (pulses = [] → s.programmedByte p o.val v pulses = (s.vault[p]'p.isLt)[o] &&& v) := by
  have hold : (s.vault[p]'p.isLt).toList.getD o.val 0xFF = (s.vault[p]'p.isLt)[o] := by simp
  have htarget : (s.vault[p]'p.isLt)[o] &&& ((s.vault[p]'p.isLt)[o] &&& v) = (s.vault[p]'p.isLt)[o] &&& v := by
    rw [← BitVec.and_assoc, BitVec.and_self]
  unfold State.programmedByte State.vaultTarget
  rw [hold]
  refine ⟨programVaultByte_clears _ _ _ _, programVaultByte_keeps _ _ _ _ htarget, ?_⟩
  rintro rfl
  exact programVaultByte_unresisted 2 htarget

end VaultSteps

/-- Settles O58: each step's work on the vault, and the end of the job where it completes it. -/
theorem vaultStepsResult : Obligations.VaultStepsResult := by
  intro s p
  refine ⟨fun pulses o v vs hd => ?byte, fun r n hd => ?pulse, fun cell hd => ?lock⟩
  case byte =>
    have hk := (kept_vaultByteStep s pulses p o.val v vs).trans (kept_evalPool _ s.available)
    obtain ⟨hclears, hkeeps, hperfect⟩ := programmedByte_spec s p o v pulses
    have hv : ((s.vaultByteStep pulses p o.val v vs).evalPool s.available).vault
        = setVaultByte s.vault p o.val (s.programmedByte p o.val v pulses) := hk.vault
    refine ⟨_, exec_vaultByte hd, hk.array, hk.lockCells, hk.vaultLocks, ?_, ?_, ?_, ?_, ?_, ?_, ?_, ?_⟩
    · rw [hv, setVaultByte_same, if_pos rfl]
      exact hclears
    · rw [hv, setVaultByte_same, if_pos rfl]
      exact hkeeps
    · rw [hv, setVaultByte_same, if_pos rfl]
      exact hperfect
    · intro j hj
      rw [hv, setVaultByte_same, if_neg (fun e => hj (Fin.ext e.symm))]
    · intro q hq
      rw [hv, setVaultByte_other (Ne.symm hq)]
    · intro hvs
      rw [State.evalPool_engine, State.vaultByteStep, if_neg hvs]
      rfl
    · rintro rfl
      rw [State.evalPool_engine, State.vaultByteStep, if_pos rfl]
      exact ⟨selected_evalPool (endStep_selected _) _, endStep_resumeLock _ _⟩
    · intro hvs
      by_cases he : vs = []
      · rw [State.vaultByteStep, if_pos he]
        have hproceeds := hvs.resolve_left (not_not_intro he)
        exact congrArg (fun t : State => { t with vault := s.vault, engine := s.engine })
          (evalPool_completed (s := { s with vault := setVaultByte s.vault p o.val (s.programmedByte p o.val v pulses) }) hproceeds)
      · rw [State.vaultByteStep, if_neg he]
        exact congrArg (fun t : State => { t with vault := s.vault, engine := s.engine })
          (evalPool_inside { s with vault := setVaultByte s.vault p o.val (s.programmedByte p o.val v pulses) } _)
  case pulse =>
    have hk := (kept_vaultPulse s r p n).trans (kept_evalPool _ s.available)
    have hv : ((s.vaultPulse r p n).evalPool s.available).vault = eraseVaultPage s.vault p r := hk.vault
    have hends : (vaultErased (eraseVaultPage s.vault p r) p || decide (Config.erasePulses ≤ n + 1)) = true ↔
        vaultErased (eraseVaultPage s.vault p r) p = true ∨ 11 ≤ n := by
      simp [Config.erasePulses]
    have hclean : r = [] → vaultErased (eraseVaultPage s.vault p r) p = true := by
      rintro rfl
      exact vaultErased_iff.2 (eraseVaultPage_clean s.vault p)
    have hcompleted : vaultErased (eraseVaultPage s.vault p r) p = true ∨ 11 ≤ n →
        s.vaultPulse r p n = State.endStep .completed { s with vault := eraseVaultPage s.vault p r } :=
      fun h => if_pos (hends.2 h)
    have hon : ¬ (vaultErased (eraseVaultPage s.vault p r) p = true ∨ 11 ≤ n) → s.vaultPulse r p n
        = State.endStep .inside (State.setJob (.vault (.erase p (n + 1))) { s with vault := eraseVaultPage s.vault p r }) :=
      fun h => if_neg (fun e => h (hends.1 e))
    have hselected : vaultErased (eraseVaultPage s.vault p r) p = true ∨ 11 ≤ n →
        ((s.vaultPulse r p n).evalPool s.available).Selected s.engine.preempted := by
      intro h
      rw [hcompleted h]
      exact selected_evalPool (endStep_selected _) _
    refine ⟨_, exec_vaultPulse hd, hk.array, hk.lockCells, hk.vaultLocks, hv, ?_, ?_, ?_, ?_, ?_, ?_, ?_⟩
    · intro q hq
      rw [hv, eraseVaultPage_other (Ne.symm hq)]
    · rintro rfl j
      rw [hv]
      exact eraseVaultPage_clean s.vault p j
    · exact vaultErased_iff
    · intro h
      exact selected_not_vault (hselected (h.imp_left hclean))
    · rw [hv]
      intro h
      refine ⟨hselected h, ?_⟩
      rw [State.evalPool_engine, hcompleted h]
      exact endStep_resumeLock _ _
    · rw [hv]
      intro h hn
      rw [State.evalPool_engine, hon (by simp [h]; omega)]
      rfl
    · rw [hv]
      intro h
      by_cases he : vaultErased (eraseVaultPage s.vault p r) p = true ∨ 11 ≤ n
      · rw [hcompleted he]
        have hproceeds := h.resolve_left (fun h' => he.elim (fun e => by simp [e] at h') (fun e => by omega))
        exact congrArg (fun t : State => { t with vault := s.vault, engine := s.engine })
          (evalPool_completed (s := { s with vault := eraseVaultPage s.vault p r }) hproceeds)
      · rw [hon he]
        exact congrArg (fun t : State => { t with vault := s.vault, engine := s.engine })
          (evalPool_inside { s with vault := eraseVaultPage s.vault p r } _)
  case lock =>
    have hk := (kept_endStep { s with
      lockCells := s.lockCells.set p.val ((s.lockCells[p]'p.isLt) || cell), vaultLocks := s.vaultLocks.set p.val true } .completed).trans
      (kept_evalPool _ s.available)
    have hl : ((s.lockStep cell p).evalPool s.available).vaultLocks = s.vaultLocks.set p.val true := hk.vaultLocks
    have hc : ((s.lockStep cell p).evalPool s.available).lockCells = s.lockCells.set p.val ((s.lockCells[p]'p.isLt) || cell) := hk.lockCells
    refine ⟨_, exec_vaultLock hd, ?_, ?_, hk.vault, hk.array, fun q hq => ?_, selected_evalPool (endStep_selected _) _, ?_, fun h => ?_⟩
    · simp [hl]
    · simp [hc]
    · have hq' : p.val ≠ q.val := fun e => hq (Fin.ext e.symm)
      rw [hl, hc]
      simp [hq']
    · rw [State.evalPool_engine]
      exact endStep_resumeLock _ _
    · exact congrArg (fun t : State => { t with vaultLocks := s.vaultLocks, lockCells := s.lockCells, engine := s.engine })
        (evalPool_completed (s := { s with
          lockCells := s.lockCells.set p.val ((s.lockCells[p]'p.isLt) || cell), vaultLocks := s.vaultLocks.set p.val true }) h)

end Sys2Proof.Machine
end

section
/-! What faults at the end of a step leave and raise (R34, R114, R121), when a crossing was evaluated (R167 to R170), the release
walk as the obligations state it (R82, R83), and the available count (R57). -/

namespace Sys2Proof.Machine

-- One proof after the other: the stacks of proofs elaborated side by side come near the memory that a check may take.
set_option Elab.async false

open Sys2Proof

variable {s t u : State}

/-! ### Reservations and the available count (R57) -/

theorem State.totalReserved_eq (s : State) : s.totalReserved = ∑ i : StreamId, (s.streams[i]'i.isLt).reserved := by
  have hlist : s.streams.toList = (List.finRange 8).map fun i => (s.streams[i]'i.isLt) := by
    refine List.ext_getElem (by simp) fun n h1 h2 => ?_
    simp
  rw [State.totalReserved, hlist, List.map_map, Fin.sum_univ_def]
  rfl

theorem totalReserved_congr (h : ∀ i : StreamId, (t.streams[i]'i.isLt).reserved = (s.streams[i]'i.isLt).reserved) :
    t.totalReserved = s.totalReserved := by
  rw [State.totalReserved_eq, State.totalReserved_eq]
  exact Finset.sum_congr rfl fun i _ => h i

/-- Where the reservations of one stream change, their total changes by as much. -/
theorem totalReserved_change (i : StreamId) (h : ∀ j : StreamId, j ≠ i → (t.streams[j]'j.isLt).reserved = (s.streams[j]'j.isLt).reserved) :
    t.totalReserved + (s.streams[i]'i.isLt).reserved = s.totalReserved + (t.streams[i]'i.isLt).reserved := by
  have hs := Finset.add_sum_erase Finset.univ (fun j : StreamId => (s.streams[j]'j.isLt).reserved) (Finset.mem_univ i)
  have ht := Finset.add_sum_erase Finset.univ (fun j : StreamId => (t.streams[j]'j.isLt).reserved) (Finset.mem_univ i)
  have hrest : ∑ j ∈ Finset.univ.erase i, (t.streams[j]'j.isLt).reserved = ∑ j ∈ Finset.univ.erase i, (s.streams[j]'j.isLt).reserved :=
    Finset.sum_congr rfl fun j hj => h j (Finset.ne_of_mem_erase hj)
  rw [State.totalReserved_eq, State.totalReserved_eq, ← hs, ← ht, hrest]
  omega

theorem available_congr (hp : t.pool = s.pool) (h : ∀ i : StreamId, (t.streams[i]'i.isLt).reserved = (s.streams[i]'i.isLt).reserved) :
    t.available = s.available := by
  rw [State.available, State.available, hp, totalReserved_congr h]

/-! ### What a fault leaves and raises (R34) -/

/-- A stream fault before the sync point and the held side are evaluated. -/
def State.faulting (i : StreamId) (s : State) : State :=
  let s := s.updStream i fun t =>
    { t with state := .faulted, preFault := t.state, reserved := 0, nextSeq := t.lastCommitted + 1 }
  let s := { s with staging := s.staging.filter fun e => e.stream != i }
  let s := ((s.notify i .fault).raise .streamFault).raise .poolEmpty
  s.satisfy (SyncItem.isStagedOf i)

theorem State.faultStream_eq (s : State) (i : StreamId) : s.faultStream i = (s.faulting i).evalSync.evalHeld i := rfl

@[simp] theorem State.faulting_same (s : State) (i : StreamId) :
    ((s.faulting i).streams[i]'i.isLt) = (s.streams[i]'i.isLt).faultedRecord := by
  unfold State.faulting
  simp only [State.satisfy_streams, State.raise_streams, State.notify_same]
  rw [State.updStream_same]
  rfl

theorem State.faulting_sync (s : State) (i : StreamId) :
    (s.faulting i).sync = s.sync.map fun items => items.filter fun x => !x.isStagedOf i := rfl

theorem State.faulting_getLsbD (s : State) (i : StreamId) (n : Nat) :
    (s.faulting i).eventLatch.getLsbD n = (s.eventLatch.getLsbD n || n == 9 || n == 6) := by
  show (((_ : State).raise .streamFault).raise .poolEmpty).eventLatch.getLsbD n = _
  rw [State.raise_getLsbD, State.raise_getLsbD]
  rfl

/-- The stream's items of the sync point are satisfied, and SYNC_DONE is raised with the last (R34, R67). -/
theorem syncLeft_faultStream (s : State) (i : StreamId) :
    s.SyncLeft (s.faultStream i) (fun items => items.filter fun x => !x.isStagedOf i) := by
  have h : s.SyncLeft (s.faulting i).evalSync (fun items => items.filter fun x => !x.isStagedOf i) := by
    refine syncLeft_evalSync (s.faulting_sync i) ?_
    rw [State.faulting_getLsbD]
    simp
  rw [State.faultStream_eq]
  constructor
  · intro hs
    obtain ⟨h1, h2⟩ := h.absent hs
    exact ⟨by rw [State.evalHeld_sync, h1], by rw [State.evalHeld_getLsbD, h2]; simp⟩
  · intro items hs hl
    obtain ⟨h1, h2⟩ := h.waits items hs hl
    exact ⟨by rw [State.evalHeld_sync, h1], by rw [State.evalHeld_getLsbD, h2]; simp⟩
  · intro items hs hl
    obtain ⟨h1, h2⟩ := h.done items hs hl
    exact ⟨by rw [State.evalHeld_sync, h1], by rw [State.evalHeld_getLsbD, h2]; simp⟩

/-- The events of a fault but for SYNC_DONE: STREAM_FAULT, POOL_EMPTY, and HIGH_WATER where the held side arrives. -/
theorem State.faultStream_getLsbD (s : State) (i : StreamId) {n : Nat} (h : n ≠ 0) : (s.faultStream i).eventLatch.getLsbD n
    = (s.eventLatch.getLsbD n || n == 9 || n == 6 || (n == 1 && (s.streams[i]'i.isLt).faultedRecord.heldArrives)) := by
  rw [State.faultStream_eq, State.evalHeld_getLsbD, State.evalSync_getLsbD _ h, State.faulting_getLsbD, State.evalSync_streams,
    State.faulting_same]

theorem Stream.faultedRecord_getLsbD (t : Stream) (n : Nat) :
    t.faultedRecord.notices.getLsbD n = (t.notices.getLsbD n || n == 6) := notice_getLsbD t.notices .fault n

/-- What a fault leaves of its stream's record (R34). -/
structure Stream.FaultKept (t t' : Stream) : Prop where
  frame : { t' with
    state := t.state, preFault := t.preFault, reserved := t.reserved, nextSeq := t.nextSeq, notices := t.notices
    heldAtOrAbove := t.heldAtOrAbove } = t
  notices : ∀ n : Nat, n ≠ 0 → n ≠ 6 → t'.notices.getLsbD n = t.notices.getLsbD n

theorem Stream.FaultKept.refl (t : Stream) : t.FaultKept t := ⟨rfl, fun _ _ _ => rfl⟩

theorem Stream.FaultKept.trans {t t' t'' : Stream} (h : t.FaultKept t') (h' : t'.FaultKept t'') : t.FaultKept t'' where
  frame := (congrArg (fun x : Stream => ({ x with
    state := t.state, preFault := t.preFault, reserved := t.reserved, nextSeq := t.nextSeq, notices := t.notices
    heldAtOrAbove := t.heldAtOrAbove } : Stream)) h'.frame).trans h.frame
  notices n h0 h6 := (h'.notices n h0 h6).trans (h.notices n h0 h6)

theorem Stream.faultKept_faulted (t : Stream) : t.FaultKept t.faultedRecord.heldEvaluated := by
  refine ⟨rfl, fun n h0 h6 => ?_⟩
  rw [Stream.heldEvaluated_getLsbD, Stream.faultedRecord_getLsbD, beq_false_of_ne h0, beq_false_of_ne h6]
  simp

/-- A stream without staged entries does not fault. -/
theorem Faults.unstaged (h : Faults s t) {j : StreamId} (hj : ∀ e ∈ s.staging, e.stream ≠ j) :
    (t.streams[j]'j.isLt) = (s.streams[j]'j.isLt) := by
  induction h with
  | none => rfl
  | @fault t e he ht ih => rw [State.faultStream_other _ _ _ (hj e (ht.staging.subset he)).symm, ih]
  | engine e _ ih => exact ih

theorem Faults.kept (h : Faults s t) (j : StreamId) : (s.streams[j]'j.isLt).FaultKept (t.streams[j]'j.isLt) := by
  induction h with
  | none => exact .refl _
  | @fault t e he ht ih =>
    refine ih.trans ?_
    by_cases hj : j = e.stream
    · subst hj
      rw [State.faultStream_same]
      exact Stream.faultKept_faulted _
    · rw [State.faultStream_other _ _ _ hj]
      exact .refl _
  | engine e _ ih => exact ih

/-- Only a stream that has faulted loses entries. -/
theorem Faults.lost (h : Faults s t) {x : Entry} (hx : x ∈ s.staging) (hn : x ∉ t.staging) :
    (t.streams[x.stream]'x.stream.isLt).state = .faulted := by
  induction h with
  | none => exact absurd hx hn
  | @fault t e he ht ih =>
    by_cases hj : x.stream = e.stream
    · simp only [hj, State.faultStream_same]
      rfl
    · rw [State.faultStream_other _ _ _ hj]
      refine ih fun hm => hn ?_
      rw [(stays_faultStream t e.stream).2]
      exact List.mem_filter.2 ⟨hm, by simpa using hj⟩
  | engine e _ ih => exact ih hn

/-- Faults raise SYNC_DONE, HIGH_WATER, POOL_EMPTY and STREAM_FAULT alone. -/
theorem Faults.latch (h : Faults s t) {n : Nat} (h0 : n ≠ 0) (h1 : n ≠ 1) (h6 : n ≠ 6) (h9 : n ≠ 9) :
    t.eventLatch.getLsbD n = s.eventLatch.getLsbD n := by
  induction h with
  | none => rfl
  | @fault t e he ht ih =>
    rw [State.faultStream_getLsbD _ _ h0, ih, beq_false_of_ne h1, beq_false_of_ne h6, beq_false_of_ne h9]
    simp
  | engine e _ ih => exact ih

theorem Faults.latched (h : Faults s t) {n : Nat} (hn : s.eventLatch.getLsbD n = true) (h0 : n ≠ 0) : t.eventLatch.getLsbD n = true := by
  induction h with
  | none => exact hn
  | @fault t e he ht ih =>
    rw [State.faultStream_getLsbD _ _ h0, ih]
    rfl
  | engine e _ ih => exact ih

/-- The sync point with no more items than before. -/
def SyncSmaller (a b : Option (List SyncItem)) : Prop := ∀ items, b = some items → ∃ all, a = some all ∧ ∀ x ∈ items, x ∈ all

theorem SyncSmaller.refl (a : Option (List SyncItem)) : SyncSmaller a a := fun items h => ⟨items, h, fun _ hx => hx⟩

theorem SyncSmaller.trans {a b c : Option (List SyncItem)} (h : SyncSmaller a b) (h' : SyncSmaller b c) : SyncSmaller a c := by
  intro items hc
  obtain ⟨bs, hb, hsub⟩ := h' items hc
  obtain ⟨as, ha, hsub'⟩ := h bs hb
  exact ⟨as, ha, fun x hx => hsub' x (hsub x hx)⟩

/-- The items of a sync point that is still there. -/
theorem State.SyncLeft.items {f : List SyncItem → List SyncItem} {all : List SyncItem} (h : s.SyncLeft t f) (ht : t.sync = some all) :
    ∃ before, s.sync = some before ∧ all = f before := by
  cases hs : s.sync with
  | none =>
    rw [(h.absent hs).1] at ht
    cases ht
  | some before =>
    refine ⟨before, rfl, ?_⟩
    by_cases hl : f before = []
    · rw [(h.done before hs hl).1] at ht
      cases ht
    · rw [(h.waits before hs hl).1, Option.some.injEq] at ht
      exact ht.symm

theorem State.SyncLeft.of_eq {f : List SyncItem → List SyncItem} (h : s.SyncLeft t f) (hs : u.sync = t.sync)
    (he : u.eventLatch.getLsbD 0 = t.eventLatch.getLsbD 0) : s.SyncLeft u f := by
  obtain ⟨h1, h2, h3⟩ := h
  rw [← hs, ← he] at h1 h2 h3
  exact ⟨h1, h2, h3⟩

theorem State.SyncLeft.from_eq {f : List SyncItem → List SyncItem} (h : u.SyncLeft t f) (hs : u.sync = s.sync)
    (he : u.eventLatch.getLsbD 0 = s.eventLatch.getLsbD 0) : s.SyncLeft t f := by
  obtain ⟨h1, h2, h3⟩ := h
  rw [hs, he] at h1 h2
  rw [hs] at h3
  exact ⟨h1, h2, h3⟩

theorem syncSmaller_of_left {f : List SyncItem → List SyncItem} (h : s.SyncLeft t f) (hf : ∀ items, ∀ x ∈ f items, x ∈ items) :
    SyncSmaller s.sync t.sync := by
  intro items ht
  obtain ⟨before, hs, rfl⟩ := h.items ht
  exact ⟨before, hs, hf before⟩

theorem Faults.sync (h : Faults s t) : SyncSmaller s.sync t.sync := by
  induction h with
  | none => exact .refl _
  | @fault t e he ht ih =>
    exact ih.trans (syncSmaller_of_left (syncLeft_faultStream t e.stream) fun items x hx => (List.mem_filter.1 hx).1)
  | engine e _ ih => exact ih

/-! ### The held side (R167, R168) -/

/-- The held side was evaluated where the record shows what `heldEvaluated` gives it. -/
theorem heldEvaluated_of {i : StreamId} {r : Stream} (hr : r.heldAtOrAbove = (s.streams[i]'i.isLt).heldAtOrAbove)
    (hn : r.notices.getLsbD 0 = (s.streams[i]'i.isLt).notices.getLsbD 0)
    (hside : (t.streams[i]'i.isLt).heldAtOrAbove = r.heldSide) (hsame : (t.streams[i]'i.isLt).heldSide = r.heldSide)
    (hnotice : (t.streams[i]'i.isLt).notices.getLsbD 0 = r.heldEvaluated.notices.getLsbD 0)
    (hevent : t.eventLatch.getLsbD 1 = (s.eventLatch.getLsbD 1 || r.heldArrives)) : s.HeldEvaluated t i where
  side := hside.trans hsame.symm
  event := by rw [hevent, Stream.heldArrives, hside, hr]
  notice := by
    rw [hnotice, Stream.heldEvaluated_getLsbD, hn, Stream.heldArrives, hside, hr]
    simp

/-- The record of a stream after the release walk. -/
def State.releasedRecord (s : State) (i : StreamId) : Stream :=
  if s.walked i = [] then (s.streams[i]'i.isLt) else ({ (s.streams[i]'i.isLt) with chain := s.unwalked i } : Stream).heldEvaluated

theorem State.releaseCovered_record (s : State) (i : StreamId) : ((s.releaseCovered i).streams[i]'i.isLt) = s.releasedRecord i := by
  by_cases h : s.walked i = []
  · rw [State.walked_nil h, State.releasedRecord, if_pos h]
  · rw [State.releaseCovered_eq h, State.releasedRecord, if_neg h, State.evalHeld_same]
    simp [State.walkedOut]

/-- Of the events, the release walk raises HIGH_WATER alone, and that where the held side arrives. -/
theorem State.releaseCovered_getLsbD (s : State) (i : StreamId) (n : Nat) : (s.releaseCovered i).eventLatch.getLsbD n
    = (s.eventLatch.getLsbD n || (n == 1 && (!(s.walked i).isEmpty &&
        ({ (s.streams[i]'i.isLt) with chain := s.unwalked i } : Stream).heldArrives))) := by
  by_cases h : s.walked i = []
  · rw [State.walked_nil h, h]
    simp
  · have hw : (s.walked i).isEmpty = false := by simpa using h
    rw [State.releaseCovered_eq h, State.evalHeld_getLsbD, hw]
    simp [State.walkedOut]

@[simp] theorem State.releaseCovered_reserved (s : State) (i j : StreamId) :
    ((s.releaseCovered i).streams[j]'j.isLt).reserved = (s.streams[j]'j.isLt).reserved := by
  by_cases h : j = i
  · subst h
    have hsame := congrArg (fun t : Stream => t.reserved) (s.releaseCovered_same j)
    exact hsame
  · rw [State.releaseCovered_other s i j h]

@[simp] theorem State.releaseCovered_available (s : State) (i : StreamId) : (s.releaseCovered i).available = s.available :=
  available_congr (s.releaseCovered_pool i) (s.releaseCovered_reserved i)

/-- The release walk has evaluated the held side where it has taken a segment. -/
theorem heldEvaluated_released {i : StreamId} (h : s.walked i ≠ []) : s.HeldEvaluated (s.releaseCovered i) i := by
  have hrec := s.releaseCovered_record i
  rw [State.releasedRecord, if_neg h] at hrec
  refine heldEvaluated_of (r := { (s.streams[i]'i.isLt) with chain := s.unwalked i }) rfl rfl (by rw [hrec]; rfl) (by rw [hrec]; rfl)
    (by rw [hrec]) ?_
  have hw : (s.walked i).isEmpty = false := by simpa using h
  rw [State.releaseCovered_getLsbD, hw]
  simp

/-! ### The release walk as the obligations state it (R82, R83) -/

/-- A state that differs in the segment table's entry of one segment, which can take no further record, as no other of the chain can. -/
structure State.ShutIn (s t : State) (i : StreamId) (k : DataSeg) : Prop where
  streams : t.streams = s.streams
  ledger : t.ledger = s.ledger
  others : ∀ j : DataSeg, j ≠ k → (t.segments[j]'j.isLt) = (s.segments[j]'j.isLt)
  location : (t.segments[k]'k.isLt).location = (s.segments[k]'k.isLt).location
  release : (t.segments[k]'k.isLt).release = (s.segments[k]'k.isLt).release
  last : (t.segments[k]'k.isLt).last = (s.segments[k]'k.isLt).last
  closed : ∀ (us vs : List DataSeg) (j : DataSeg), (t.streams[i]'i.isLt).chain = us ++ j :: vs → t.closed i j vs.isEmpty = true

/-- The release walk on a chain whose segments are all closed. -/
theorem released_of_shut {i : StreamId} {k : DataSeg} (h : s.ShutIn t i k) : s.Released (t.releaseCovered i) i k (t.walked i) := by
  have hlast : ∀ j : DataSeg, (t.segments[j]'j.isLt).last = (s.segments[j]'j.isLt).last := by
    intro j
    by_cases hj : j = k
    · exact hj ▸ h.last
    · rw [h.others j hj]
  have hsplit := t.walked_append i
  refine ⟨?_, ?_, ?_, ?_, ?_, ?_, ?_, ?_⟩
  · rw [State.releaseCovered_chain, hsplit, h.streams]
  · intro j hj
    obtain ⟨us, vs, hu⟩ := List.append_of_mem hj
    have hc : (t.streams[i]'i.isLt).chain = us ++ j :: (vs ++ t.unwalked i) := by rw [← hsplit, hu]; simp
    have ht := (t.walk_taken i _ us _ j hc (by rw [show (t.walk i (t.streams[i]'i.isLt).chain).1 = us ++ j :: vs from hu]; simp)).2
    rw [← hlast, ← h.streams]
    exact ht
  · intro j hj
    rw [State.releaseCovered_chain] at hj
    obtain ⟨vs, hv⟩ := List.head?_eq_some_iff.1 hj
    have hc : (t.streams[i]'i.isLt).chain = t.walked i ++ j :: vs := by rw [← hsplit, hv]
    rcases t.walk_left i _ vs j hv with hw | hw
    · rw [h.closed _ vs j hc] at hw
      cases hw
    · rw [← hlast, ← h.streams]
      exact hw
  · intro j hj
    rw [State.releaseCovered_segments, if_pos hj]
    exact ⟨rfl, congrArg (fun q => some (ReleaseCond.frontier q)) (hlast j)⟩
  · intro j hj
    rw [State.releaseCovered_segments, if_neg hj]
    by_cases hk : j = k
    · exact hk ▸ ⟨h.location, h.release⟩
    · rw [h.others j hk]
      exact ⟨rfl, rfl⟩
  · intro j hj
    rw [State.releaseCovered_segments, h.others j hj]
    split <;> rfl
  · intro hn
    rw [State.releaseCovered_ledger, if_neg hn, h.ledger]
  · intro hn
    rw [State.releaseCovered_ledger, if_pos hn, h.ledger]

/-! ### The same outcomes in states that agree on what they are about -/

theorem State.Released.congr {i : StreamId} {k : DataSeg} {ks : List DataSeg} (h : s.Released t i k ks)
    (hc : (u.streams[i]'i.isLt).chain = (t.streams[i]'i.isLt).chain) (hg : u.segments = t.segments) (hl : u.ledger = t.ledger) :
        s.Released u i k ks := by
  obtain ⟨h1, h2, h3, h4, h5, h6, h7, h8⟩ := h
  rw [← hc] at h1 h3
  rw [← hg] at h4 h5 h6
  rw [← hl] at h7 h8
  exact ⟨h1, h2, h3, h4, h5, h6, h7, h8⟩

theorem State.Released.of_eq {i : StreamId} {k : DataSeg} {ks : List DataSeg} (h : s.Released t i k ks) (hs : u.streams = t.streams)
    (hg : u.segments = t.segments) (hl : u.ledger = t.ledger) : s.Released u i k ks := h.congr (by rw [hs]) hg hl

theorem State.HeldEvaluated.of_eq {i : StreamId} (h : s.HeldEvaluated t i) (hs : u.streams = t.streams)
    (he : u.eventLatch.getLsbD 1 = t.eventLatch.getLsbD 1) : s.HeldEvaluated u i := by
  obtain ⟨h1, h2, h3⟩ := h
  rw [← hs] at h1 h2 h3
  rw [← he] at h2
  exact ⟨h1, h2, h3⟩

theorem State.HeldKept.of_eq {i : StreamId} (h : s.HeldKept t i) (hs : u.streams = t.streams)
    (he : u.eventLatch.getLsbD 1 = t.eventLatch.getLsbD 1) : s.HeldKept u i := by
  obtain ⟨h1, h2, h3⟩ := h
  rw [← hs] at h1 h3
  rw [← he] at h2
  exact ⟨h1, h2, h3⟩

/-- An outcome about the held side that starts from a state with the same records and events. -/
theorem State.HeldEvaluated.from_eq {i : StreamId} (h : u.HeldEvaluated t i) (hs : u.streams = s.streams)
    (he : u.eventLatch.getLsbD 1 = s.eventLatch.getLsbD 1) : s.HeldEvaluated t i := by
  obtain ⟨h1, h2, h3⟩ := h
  rw [hs] at h2 h3
  rw [he] at h2
  exact ⟨h1, h2, h3⟩

theorem State.HeldEvaluated.from_record {i : StreamId} (h : u.HeldEvaluated t i) (hs : (u.streams[i]'i.isLt) = (s.streams[i]'i.isLt))
    (he : u.eventLatch.getLsbD 1 = s.eventLatch.getLsbD 1) : s.HeldEvaluated t i := by
  obtain ⟨h1, h2, h3⟩ := h
  rw [hs] at h2 h3
  rw [he] at h2
  exact ⟨h1, h2, h3⟩

/-- Two evaluations of a held side that was at-or-above, of which the second finds no more held, are as one. -/
theorem State.HeldEvaluated.trans {i : StreamId} (h : s.HeldEvaluated t i) (h' : t.HeldEvaluated u i)
    (hs : (s.streams[i]'i.isLt).heldAtOrAbove = true) (hw : (u.streams[i]'i.isLt).highWater = (t.streams[i]'i.isLt).highWater)
    (hh : (u.streams[i]'i.isLt).held ≤ (t.streams[i]'i.isLt).held) : s.HeldEvaluated u i := by
  have hside : (u.streams[i]'i.isLt).heldAtOrAbove = true → (t.streams[i]'i.isLt).heldAtOrAbove = true := by
    rw [h.side, h'.side, decide_eq_true_eq, decide_eq_true_eq]
    omega
  have hno : ((u.streams[i]'i.isLt).heldAtOrAbove && !(t.streams[i]'i.isLt).heldAtOrAbove) = false := by
    cases hu : (u.streams[i]'i.isLt).heldAtOrAbove
    · rfl
    · rw [hside hu]
      rfl
  refine ⟨h'.side, ?_, ?_⟩
  · rw [h'.event, hno, h.event, hs]
    simp
  · rw [h'.notice, hno, h.notice, hs]
    simp

theorem State.HeldKept.from_eq {i : StreamId} (h : u.HeldKept t i) (hs : u.streams = s.streams)
    (he : u.eventLatch.getLsbD 1 = s.eventLatch.getLsbD 1) : s.HeldKept t i := by
  obtain ⟨h1, h2, h3⟩ := h
  rw [hs] at h1 h3
  rw [he] at h2
  exact ⟨h1, h2, h3⟩

/-- Where the release walk takes nothing, the held side is not evaluated. -/
theorem heldKept_released {i : StreamId} (h : s.walked i = []) : s.HeldKept (s.releaseCovered i) i := by
  rw [State.walked_nil h]
  exact ⟨rfl, rfl, rfl⟩

/-- The release walk on a chain that is all closed, with the evaluation of the held side (R82, R83, R168). -/
theorem released_after_shut {i : StreamId} {k : DataSeg} (h : s.ShutIn t i k) (he : t.eventLatch.getLsbD 1 = s.eventLatch.getLsbD 1)
    (hs : u.streams = (t.releaseCovered i).streams) (hg : u.segments = (t.releaseCovered i).segments)
    (hl : u.ledger = (t.releaseCovered i).ledger) (hev : u.eventLatch = (t.releaseCovered i).eventLatch) :
    ∃ ks, s.Released u i k ks ∧ (ks ≠ [] → s.HeldEvaluated u i) ∧ (ks = [] → s.HeldKept u i) :=
  ⟨_, (released_of_shut h).of_eq hs hg hl,
    fun hw => ((heldEvaluated_released hw).from_eq h.streams he).of_eq hs (by rw [hev]),
    fun hw => ((heldKept_released hw).from_eq h.streams he).of_eq hs (by rw [hev])⟩

theorem released_inside {i : StreamId} {k : DataSeg} (h : s.ShutIn t i k) (he : t.eventLatch.getLsbD 1 = s.eventLatch.getLsbD 1)
    (j : Job) : ∃ ks, s.Released (((t.releaseCovered i).setJob j).endStep .inside) i k ks
      ∧ (ks ≠ [] → s.HeldEvaluated (((t.releaseCovered i).setJob j).endStep .inside) i)
      ∧ (ks = [] → s.HeldKept (((t.releaseCovered i).setJob j).endStep .inside) i) :=
  released_after_shut h he rfl rfl rfl rfl

end Sys2Proof.Machine
end

section
/-! The seal step and the opening steps of the COMMIT job (R115 to R117, R120). Settles O50, O51. -/

namespace Sys2Proof.Machine

-- One proof after the other: the stacks of proofs elaborated side by side come near the memory that a check may take.
set_option Elab.async false

open Sys2Proof

variable {s t u : State}

/-! ### Program sequences and the ends of COMMIT steps -/

theorem poolEvaluated_of_kept {r l : Bool} (h : JobKept r l s u) : s.PoolEvaluated (u.evalPool s.available) :=
  poolEvaluated_evalPool h.poolBelow h.poolLow

/-- A step whose work is the program sequence of an item. -/
theorem programmed_eq {w : ArrayWork} {item : Item} {p : Pulses} {m : Memory} {ok : Bool} (hw : w = .program item)
    (h : program s.array item p = (m, ok)) : s.programmed w p = { s with array := m } ∧ w.succeeds p s.array = ok := by
  subst hw
  simp [State.programmed, ArrayWork.programmed, ArrayWork.succeeds, h]

/-- The opening steps begin with the free stage or with the open stage (R116). -/
theorem State.openingStep_cases (s : State) : s.openingStep = .freeStage ∨ s.openingStep = .openStage := by
  unfold State.openingStep
  split
  · split
    · exact .inl rfl
    · exact .inr rfl
  · exact .inr rfl

theorem State.openingStep_congr (hp : t.pool = s.pool) (hs : t.segments = s.segments) : t.openingStep = s.openingStep := by
  unfold State.openingStep
  rw [hp, hs]

/-- A COMMIT job that awaits a replacement has no staged entry placed into the last segment of the chain (R82). -/
theorem State.stagedInLast_awaiting {e : Entry} {es : List Entry} (hs : s.staging = e :: es) (hp : e.placement = .awaiting) :
    s.stagedInLast e.stream = false := by
  simp [State.stagedInLast, State.stagedOf, hs, hp]

/-- A COMMIT job that is to seal the open segment has no staged entry placed into the last segment of the chain (R82). -/
theorem State.stagedInLast_new {e : Entry} {es : List Entry} (hs : s.staging = e :: es) (hp : e.placement = .new)
    (hj : s.engine.job ≠ some (.commit .record)) : s.stagedInLast e.stream = false := by
  simp [State.stagedInLast, State.stagedOf, hs, hp, hj]

/-- With nothing staged into it, the last segment of a chain is closed once it is shut, and so are all before it (R82). -/
theorem closed_of_shut {i : StreamId} {k : DataSeg} (hn : s.stagedInLast i = false) (hl : (s.streams[i]'i.isLt).chain.getLast? = some k)
    (hk : (s.segments[k]'k.isLt).shut true = true) (us vs : List DataSeg) (j : DataSeg) (hc : (s.streams[i]'i.isLt).chain = us ++ j :: vs) :
    s.closed i j vs.isEmpty = true := by
  unfold State.closed
  rw [hn]
  cases vs with
  | nil =>
    rw [hc, List.getLast?_append] at hl
    obtain rfl : j = k := by simpa using hl
    simpa using hk
  | cons v vs => simp [Segment.shut]

/-! ### The seal step (R115) -/

theorem commitWork_seal {e : Entry} {es : List Entry} {k : DataSeg} (hs : s.staging = e :: es)
    (hk : (s.streams[e.stream]'e.stream.isLt).chain.getLast? = some k) :
    s.commitWork .seal = .program (sealItem k (s.segments[k]'k.isLt).last (s.segments[k]'k.isLt).bytesUsed) := by
  simp [State.commitWork, hs, -Fin.getElem_fin, hk]

theorem Segment.sealEnd_shut (g : Segment) (ok : Bool) : (g.sealEnd ok).shut true = true := by
  cases ok <;> simp [Segment.shut, Segment.sealEnd]

/-- The state in which a seal step walks the chain. -/
def State.sealed (m : Memory) (ok : Bool) (k : DataSeg) (s : State) : State :=
  State.updSegment { s with array := m } k fun g => g.sealEnd ok

@[simp] theorem State.sealed_same (s : State) (m : Memory) (ok : Bool) (k : DataSeg) :
    ((s.sealed m ok k).segments[k]'k.isLt) = (s.segments[k]'k.isLt).sealEnd ok := State.updSegment_same _ k _

theorem State.sealed_other (s : State) (m : Memory) (ok : Bool) {k j : DataSeg} (h : j ≠ k) :
    ((s.sealed m ok k).segments[j]'j.isLt) = (s.segments[j]'j.isLt) := State.updSegment_other _ k j _ h.symm

theorem exec_seal {p : Pulses} {e : Entry} {es : List Entry} {k : DataSeg} {m : Memory} {ok : Bool}
    (hd : s.due (.commit .seal) = true) (hs : s.staging = e :: es) (hk : (s.streams[e.stream]'e.stream.isLt).chain.getLast? = some k)
    (hp : program s.array (sealItem k (s.segments[k]'k.isLt).last (s.segments[k]'k.isLt).bytesUsed) p = (m, ok)) :
    exec (.commitSealStep p) s = .next ((((s.sealed m ok k).releaseCovered e.stream).setJob
      (.commit ((s.sealed m ok k).releaseCovered e.stream).openingStep)).endStep .inside) := by
  obtain ⟨hprog, hok⟩ := programmed_eq (commitWork_seal hs hk) hp
  have hstep : s.sealStep p e k = (((s.sealed m ok k).releaseCovered e.stream).setJob
      (.commit ((s.sealed m ok k).releaseCovered e.stream).openingStep)).endStep .inside := by
    unfold State.sealStep
    dsimp only
    rw [hprog, hok]
    rfl
  have hav : (s.sealStep p e k).available = s.available := by
    rw [hstep]
    exact State.releaseCovered_available _ _
  have hrow : exec (.commitSealStep p) s = .next ((s.sealStep p e k).evalPool s.available) := by
    simp only [exec, execCommitSealStep, stepWhen_due hd, hs, State.headSegment, hk]
  rw [hrow, evalPool_of_available hav, hstep]

/-- The chain that a seal step walks is closed (R82, R115). -/
theorem sealed_shutIn {e : Entry} {es : List Entry} {k : DataSeg} {m : Memory} {ok : Bool} (hs : s.staging = e :: es)
    (hk : (s.streams[e.stream]'e.stream.isLt).chain.getLast? = some k) (hnew : e.placement = .new)
    (hj : (s.sealed m ok k).engine.job ≠ some (.commit .record)) : s.ShutIn (s.sealed m ok k) e.stream k where
  streams := rfl
  ledger := rfl
  others j hj := State.sealed_other s m ok hj
  location := by rw [State.sealed_same]; rfl
  release := by rw [State.sealed_same]; rfl
  last := by rw [State.sealed_same]; rfl
  closed := by
    refine closed_of_shut (k := k) (State.stagedInLast_new (s := s.sealed m ok k) hs hnew hj) hk ?_
    rw [State.sealed_same]
    exact Segment.sealEnd_shut _ _

/-- The entry of a segment that the seal step has written, wherever the release walk leaves it (R82, R115). -/
theorem sealed_entry (s : State) (m : Memory) (ok : Bool) (k : DataSeg) (i : StreamId) :
    { (((s.sealed m ok k).releaseCovered i).segments[k]'k.isLt) with
        location := (s.segments[k]'k.isLt).location, release := (s.segments[k]'k.isLt).release }
      = (s.segments[k]'k.isLt).sealEnd ok := by
  rw [State.releaseCovered_segments, State.sealed_same]
  split <;> rfl

/-- Where a seal step goes on, seen from its end. -/
theorem setJob_openingStep (s : State) : ((s.setJob (.commit s.openingStep)).endStep .inside).engine
    = { s.engine with
        job := some (.commit ((s.setJob (.commit s.openingStep)).endStep .inside).openingStep), resumeLock := false } := rfl

theorem setJob_openingStep_job (s : State) : ((s.setJob (.commit s.openingStep)).endStep .inside).engine.job = some (.commit .freeStage)
    ∨ ((s.setJob (.commit s.openingStep)).endStep .inside).engine.job = some (.commit .openStage) := by
  rcases s.openingStep_cases with h | h
  · exact .inl (congrArg (fun c => some (Job.commit c)) h)
  · exact .inr (congrArg (fun c => some (Job.commit c)) h)

/-- What the end of the seal step leaves, by what the release walk leaves (R115). -/
structure State.SealWalked (s : State) (m : Memory) (ok : Bool) (k : DataSeg) (i : StreamId) (u : State) : Prop where
  kept : Kept { s with array := m } u
  entry : { (u.segments[k]'k.isLt) with location := (s.segments[k]'k.isLt).location, release := (s.segments[k]'k.isLt).release }
      = (s.segments[k]'k.isLt).sealEnd ok
  engine : u.engine = s.engine
  staging : u.staging = s.staging
  pool : u.pool = s.pool
  sync : u.sync = s.sync
  reclaim : u.reclaim = s.reclaim
  record : { (u.streams[i]'i.isLt) with
    chain := (s.streams[i]'i.isLt).chain, notices := (s.streams[i]'i.isLt).notices,
    heldAtOrAbove := (s.streams[i]'i.isLt).heldAtOrAbove } = (s.streams[i]'i.isLt)
  others : ∀ j : StreamId, j ≠ i → (u.streams[j]'j.isLt) = (s.streams[j]'j.isLt)
  latch : ∀ n : Nat, n ≠ 1 → u.eventLatch.getLsbD n = s.eventLatch.getLsbD n

theorem sealWalked (s : State) (m : Memory) (ok : Bool) (k : DataSeg) (i : StreamId) :
    s.SealWalked m ok k i ((s.sealed m ok k).releaseCovered i) where
  kept := (kept_updSegment { s with array := m } k fun g => g.sealEnd ok).trans (kept_releaseCovered (s.sealed m ok k) i)
  entry := sealed_entry s m ok k i
  engine := State.releaseCovered_engine _ _
  staging := State.releaseCovered_staging _ _
  pool := State.releaseCovered_pool _ _
  sync := State.releaseCovered_sync _ _
  reclaim := State.releaseCovered_reclaim _ _
  record := State.releaseCovered_same (s.sealed m ok k) i
  others j hj := State.releaseCovered_other (s.sealed m ok k) i j hj
  latch n hn := by
    rw [State.releaseCovered_getLsbD, beq_false_of_ne hn]
    exact Bool.or_false _

/-- Settles O50: the close stage, the release walk on a chain that is all closed, and the opening steps. -/
theorem commitSealStepResult : Obligations.CommitSealStepResult := by
  intro s p e rest k m ok hd hs hk hp
  refine ⟨_, exec_seal hd hs hk hp, ?_⟩
  have hj : (s.sealed m ok k).engine.job ≠ some (.commit .record) := by
    show s.engine.job ≠ _
    rw [(due_iff.1 hd).2.2]
    simp
  have hw := sealWalked s m ok k e.stream
  have hreleased := fun hnew => released_inside (sealed_shutIn hs hk hnew hj) rfl
    (.commit ((s.sealed m ok k).releaseCovered e.stream).openingStep)
  generalize (s.sealed m ok k).releaseCovered e.stream = u at hw hreleased ⊢
  obtain ⟨hkept, hentry, hengine, hstaging, hpool, hsync, hreclaim, hrecord, hothers, hlatch⟩ := hw
  have hjob := setJob_openingStep u
  rw [hengine] at hjob
  have hheader := congrArg Segment.header hentry
  have hpoisoned := congrArg Segment.poisoned hentry
  have hlast := congrArg Segment.last hentry
  have hbytesUsed := congrArg Segment.bytesUsed hentry
  have hcommitted := congrArg Stream.lastCommitted hrecord
  exact ⟨hkept.array, hheader, hpoisoned, hlast, hbytesUsed, setJob_openingStep_job u, hjob, hstaging, hpool, hkept.port, hkept.guard,
    hsync, hreclaim, hcommitted, hrecord, hothers, hlatch, hreleased⟩

/-! ### The opening steps (R116, R117, R120) -/

theorem commitWork_freeStage {e : Entry} {es : List Entry} {k : DataSeg} {ks : List DataSeg} (hs : s.staging = e :: es)
    (hk : s.pool = k :: ks) : s.commitWork .freeStage = .program (freeStageItem k (s.segments[k]'k.isLt).eraseCount) := by
  simp [State.commitWork, hs, hk]

theorem commitWork_openStage {e : Entry} {es : List Entry} {k : DataSeg} {ks : List DataSeg} (hs : s.staging = e :: es)
    (hk : s.pool = k :: ks) :
    s.commitWork .openStage = .program (openStageItem k e.stream (s.streams[e.stream]'e.stream.isLt).epoch e.seq) := by
  simp [State.commitWork, hs, hk]

/-- What the withdrawal of a pool head leaves (R117). -/
theorem withdraw_spec {k : DataSeg} {ks : List DataSeg} (hk : s.pool = k :: ks) (n : Int) :
    (((s.withdraw k).evalPool n).segments[k]'k.isLt).location = .retired ∧ ((s.withdraw k).evalPool n).pool = ks
      ∧ ((s.withdraw k).evalPool n).engine.job = some (.commit (.openRetire k))
      ∧ ((s.withdraw k).evalPool n).eventLatch.getLsbD 8 = true ∧ ((s.withdraw k).evalPool n).streams = s.streams
      ∧ ((s.withdraw k).evalPool n).staging = s.staging := by
  refine ⟨?_, ?_, ?_, ?_, ?_, ?_⟩
  · rw [State.evalPool_segments]
    exact congrArg Segment.location (State.updSegment_same { s with pool := s.pool.tail } k fun g =>
      { g with location := .retired, release := none })
  · rw [State.evalPool_pool]
    exact congrArg List.tail hk
  · rw [State.evalPool_engine]
    rfl
  · rw [State.evalPool_getLsbD]
    show (((_ : State).raise .segmentRetired).eventLatch.getLsbD 8 || _) = true
    rw [State.raise_getLsbD]
    simp [Event.bit]
  · rw [State.evalPool_streams]
    rfl
  · rw [State.evalPool_staging]
    rfl

theorem exec_openFreeStage {p : Pulses} {k : DataSeg} {ks : List DataSeg} (hd : s.due (.commit .freeStage) = true)
    (hk : s.pool = k :: ks) : exec (.commitFreeStageStep p) s = .next ((s.openFreeStage p k).evalPool s.available) := by
  simp only [exec, execCommitFreeStageStep, stepWhen_due hd, hk]

theorem exec_openStep {p : Pulses} {e : Entry} {es : List Entry} {k : DataSeg} {ks : List DataSeg}
    (hd : s.due (.commit .openStage) = true) (hs : s.staging = e :: es) (hk : s.pool = k :: ks) :
    exec (.commitOpenStep p) s = .next ((s.openStep p e k).evalPool s.available) := by
  simp only [exec, execCommitOpenStep, stepWhen_due hd, hs, hk]

/-- The free stage of a pool head: what it leaves whether or not it verifies (R116, R117). -/
theorem openFreeStage_spec {p : Pulses} {e : Entry} {es : List Entry} {k : DataSeg} {ks : List DataSeg} {m : Memory} {ok : Bool}
    (hs : s.staging = e :: es) (hk : s.pool = k :: ks)
    (hp : program s.array (freeStageItem k (s.segments[k]'k.isLt).eraseCount) p = (m, ok)) :
    s.openFreeStage p k = if ok = true then
      ((State.updSegment { s with array := m } k fun g => { g with header := .free }).setJob (.commit .openStage)).endStep .inside
      else State.withdraw k { s with array := m } := by
  obtain ⟨hprog, hok⟩ := programmed_eq (commitWork_freeStage hs hk) hp
  unfold State.openFreeStage
  dsimp only
  rw [hprog, hok]

theorem openStep_spec {p : Pulses} {e : Entry} {es : List Entry} {k : DataSeg} {ks : List DataSeg} {m : Memory} {ok : Bool}
    (hs : s.staging = e :: es) (hk : s.pool = k :: ks)
    (hp : program s.array (openStageItem k e.stream (s.streams[e.stream]'e.stream.isLt).epoch e.seq) p = (m, ok)) :
    s.openStep p e k = if ok = true then State.opened e k { s with array := m } else State.withdraw k { s with array := m } := by
  obtain ⟨hprog, hok⟩ := programmed_eq (commitWork_openStage hs hk) hp
  unfold State.openStep
  dsimp only
  rw [hprog, hok]

/-- The open stage has verified: the state before the engine goes on with the record step (R116, R120). -/
def State.chained (e : Entry) (k : DataSeg) (s : State) : State :=
  match e.placement with
  | .new => (s.joinChain e k).updStream e.stream fun t => { t with reserved := t.reserved - 1 }
  | .current => ((s.joinChain e k).placeAwaiting e.stream).evalHeld e.stream
  | .awaiting => ((s.joinChain e k).placeAwaiting e.stream).evalHeld e.stream

theorem State.opened_eq (s : State) (e : Entry) (k : DataSeg) :
    s.opened e k = ((s.chained e k).setJob (.commit .record)).endStep .inside := rfl

section Chained

variable (s : State) (e : Entry) (k : DataSeg)

theorem State.chained_segments : ((s.chained e k).segments[k]'k.isLt)
    = (s.segments[k]'k.isLt).openedFor e (s.streams[e.stream]'e.stream.isLt).epoch := by
  have h : ((s.joinChain e k).segments[k]'k.isLt) = (s.segments[k]'k.isLt).openedFor e (s.streams[e.stream]'e.stream.isLt).epoch :=
    State.updSegment_same s k fun g => g.openedFor e (s.streams[e.stream]'e.stream.isLt).epoch
  unfold State.chained
  split
  · exact h
  · rw [State.evalHeld_segments]
    exact h
  · rw [State.evalHeld_segments]
    exact h

theorem State.chained_pool : (s.chained e k).pool = s.pool.tail := by
  unfold State.chained
  split
  · rfl
  · rw [State.evalHeld_pool]
    rfl
  · rw [State.evalHeld_pool]
    rfl

/-- The stream's record once the segment has joined its chain. -/
def Stream.extended (t : Stream) (k : DataSeg) : Stream := { t with chain := t.chain ++ [k] }

theorem State.joinChain_same : ((s.joinChain e k).streams[e.stream]'e.stream.isLt) = (s.streams[e.stream]'e.stream.isLt).extended k :=
  State.updStream_same { s.updSegment k (fun g => g.openedFor e
      (s.streams[e.stream]'e.stream.isLt).epoch) with pool := s.pool.tail } e.stream _

theorem State.joinChain_other (j : StreamId) (h : j ≠ e.stream) : ((s.joinChain e k).streams[j]'j.isLt) = (s.streams[j]'j.isLt) :=
  State.updStream_other { s.updSegment k (fun g => g.openedFor e
      (s.streams[e.stream]'e.stream.isLt).epoch) with pool := s.pool.tail } e.stream j _ h.symm

variable {s e k}

theorem State.chained_new (h : e.placement = .new) :
    ((s.chained e k).streams[e.stream]'e.stream.isLt) =
        { (s.streams[e.stream]'e.stream.isLt).extended k with reserved := (s.streams[e.stream]'e.stream.isLt).reserved - 1 }
      ∧ (s.chained e k).staging = s.staging ∧ (s.chained e k).eventLatch = s.eventLatch := by
  unfold State.chained
  rw [h]
  refine ⟨?_, rfl, rfl⟩
  dsimp only
  rw [State.updStream_same, State.joinChain_same]
  rfl

theorem State.chained_awaiting (h : e.placement = .awaiting) :
    ((s.chained e k).streams[e.stream]'e.stream.isLt) = ((s.streams[e.stream]'e.stream.isLt).extended k).heldEvaluated
      ∧ (s.chained e k).staging = s.staging.map (fun x =>
          if x.stream = e.stream ∧ x.placement = .awaiting then { x with placement := .current } else x)
      ∧ ∀ n, (s.chained e k).eventLatch.getLsbD n
        = (s.eventLatch.getLsbD n || (n == 1 && ((s.streams[e.stream]'e.stream.isLt).extended k).heldArrives)) := by
  have hrec : (((s.joinChain e k).placeAwaiting e.stream).streams[e.stream]'e.stream.isLt)
      = (s.streams[e.stream]'e.stream.isLt).extended k := s.joinChain_same e k
  unfold State.chained
  rw [h]
  dsimp only
  refine ⟨?_, ?_, fun n => ?_⟩
  · rw [State.evalHeld_same, hrec]
  · rw [State.evalHeld_staging]
    rfl
  · rw [State.evalHeld_getLsbD, hrec]
    rfl

theorem State.chained_other (j : StreamId) (h : j ≠ e.stream) : ((s.chained e k).streams[j]'j.isLt) = (s.streams[j]'j.isLt) := by
  unfold State.chained
  split
  · rw [State.updStream_other _ e.stream j _ h.symm, State.joinChain_other s e k j h]
  · rw [State.evalHeld_other _ _ _ h]
    exact State.joinChain_other s e k j h
  · rw [State.evalHeld_other _ _ _ h]
    exact State.joinChain_other s e k j h

/-- The new segment takes the place of the reservation that it uses up (R116). -/
theorem State.chained_new_counts {ks : List DataSeg} (h : e.placement = .new) (hk : s.pool = k :: ks)
    (hr : 1 ≤ (s.streams[e.stream]'e.stream.isLt).reserved) :
    ((s.chained e k).streams[e.stream]'e.stream.isLt).held = (s.streams[e.stream]'e.stream.isLt).held
        ∧ (s.chained e k).available = s.available := by
  have hrec := (State.chained_new (s := s) (k := k) h).1
  have htotal := totalReserved_change (s := s) (t := s.chained e k) e.stream fun j hj => by rw [State.chained_other j hj]
  rw [hrec] at htotal
  constructor
  · rw [hrec]
    simp only [Stream.held, Stream.extended, List.length_append, List.length_singleton]
    omega
  · rw [State.available, State.available, State.chained_pool, hk]
    simp only [List.tail_cons, List.length_cons] at htotal ⊢
    omega

/-- A replacement takes a segment from the pool and adds it to what the stream holds (R120). -/
theorem State.chained_awaiting_counts {ks : List DataSeg} (h : e.placement = .awaiting) (hk : s.pool = k :: ks) :
    ((s.chained e k).streams[e.stream]'e.stream.isLt).held = (s.streams[e.stream]'e.stream.isLt).held + 1
        ∧ (s.chained e k).available = s.available - 1 := by
  have hrec := (State.chained_awaiting (s := s) (k := k) h).1
  have htotal := totalReserved_congr (s := s) (t := s.chained e k) fun j => by
    by_cases hj : j = e.stream
    · subst hj
      rw [hrec]
      rfl
    · rw [State.chained_other j hj]
  constructor
  · rw [hrec]
    simp only [Stream.held, Stream.extended, Stream.heldEvaluated, List.length_append, List.length_singleton]
    omega
  · rw [State.available, State.available, State.chained_pool, hk, htotal]
    simp only [List.tail_cons, List.length_cons]
    omega

theorem State.heldEvaluated_chained (h : e.placement = .awaiting) : s.HeldEvaluated (s.chained e k) e.stream := by
  obtain ⟨hrec, -, hlatch⟩ := State.chained_awaiting (s := s) (k := k) h
  refine heldEvaluated_of (r := (s.streams[e.stream]'e.stream.isLt).extended k) rfl rfl (by rw [hrec]; rfl) (by rw [hrec]; rfl)
      (by rw [hrec]) ?_
  rw [hlatch]
  simp

theorem State.heldKept_chained (h : e.placement = .new) : s.HeldKept (s.chained e k) e.stream := by
  obtain ⟨hrec, -, hlatch⟩ := State.chained_new (s := s) (k := k) h
  exact ⟨by rw [hrec]; rfl, by rw [hlatch], by rw [hrec]; rfl⟩

end Chained

/-- What a verified open stage leaves (R100, R116). -/
theorem opened_spec {e : Entry} {k : DataSeg} {ks : List DataSeg} (hk : s.pool = k :: ks) (n : Int) :
    (((s.opened e k).evalPool n).segments[k]'k.isLt) = (s.segments[k]'k.isLt).openedFor e (s.streams[e.stream]'e.stream.isLt).epoch
      ∧ ((s.opened e k).evalPool n).pool = ks ∧ ((s.opened e k).evalPool n).engine.job = some (.commit .record)
      ∧ ((s.opened e k).evalPool n).streams = (s.chained e k).streams
      ∧ ((s.opened e k).evalPool n).staging = (s.chained e k).staging
      ∧ ((s.opened e k).evalPool n).available = (s.chained e k).available
      ∧ ((s.opened e k).evalPool n).eventLatch.getLsbD 1 = (s.chained e k).eventLatch.getLsbD 1 := by
  rw [State.evalPool_segments, State.evalPool_pool, State.evalPool_engine, State.evalPool_streams, State.evalPool_staging,
    State.evalPool_available, State.evalPool_getLsbD]
  refine ⟨State.chained_segments s e k, ?_, rfl, rfl, rfl, rfl, by simp [State.opened_eq, State.endStep]⟩
  have hp := State.chained_pool s e k
  rw [hk] at hp
  exact hp

/-- The chain that a verified open stage leaves (R116). -/
theorem State.chained_chain (s : State) (e : Entry) (k : DataSeg) :
    ((s.chained e k).streams[e.stream]'e.stream.isLt).chain = (s.streams[e.stream]'e.stream.isLt).chain ++ [k] := by
  have h : ((s.joinChain e k).streams[e.stream]'e.stream.isLt).chain = (s.streams[e.stream]'e.stream.isLt).chain ++ [k] := by
    rw [State.joinChain_same]
    rfl
  unfold State.chained
  split
  · rw [State.updStream_same]
    exact h
  · rw [State.evalHeld_same]
    exact h
  · rw [State.evalHeld_same]
    exact h

/-- The head entry once its replacement is there (R120). -/
theorem head_placeAwaiting {e : Entry} {es : List Entry} (hs : s.staging = e :: es) (h : e.placement = .awaiting) :
    (s.staging.map fun x => if x.stream = e.stream ∧ x.placement = .awaiting then { x with placement := Placement.current } else x).head?
      = some { e with placement := .current } := by
  simp [hs, h]

/-- Settles O51: each opening step verifies and goes on, or withdraws the pool head. -/
theorem commitOpeningStepsResult : Obligations.CommitOpeningStepsResult := by
  intro s p e rest k ks m ok hs hk
  refine ⟨fun hd hp => ?freeStage, fun hd hp => ?openStage⟩
  case freeStage =>
    have hmem := (kept_openFreeStage s p k).trans (kept_evalPool _ s.available)
    have hspec := openFreeStage_spec hs hk hp
    have hm : (s.programmed (s.commitWork .freeStage) p).array = m := by
      rw [(programmed_eq (commitWork_freeStage hs hk) hp).1]
    refine ⟨_, exec_openFreeStage hd hk, hmem.array.trans hm, ?_, ?_, poolEvaluated_of_kept (r := false) (l := false)
      (jobKept_openFreeStage s p k), fun ho => ?_, fun ho => ?_⟩
    · rw [State.evalPool_staging, hspec]
      split <;> rfl
    · rw [State.evalPool_engine, hspec]
      split <;> exact endStep_resumeLock _ _
    · rw [if_pos ho] at hspec
      rw [hspec, State.evalPool_segments, State.evalPool_pool, State.evalPool_engine, State.evalPool_streams]
      exact ⟨State.updSegment_same { s with array := m } k fun g => { g with header := .free }, rfl, rfl, rfl⟩
    · rw [if_neg (by simp [ho])] at hspec
      rw [hspec]
      obtain ⟨h1, h2, h3, h4, h5, h6⟩ := withdraw_spec (s := { s with array := m }) hk s.available
      exact ⟨h1, h2, h3, h4, h5⟩
  case openStage =>
    have hmem := (kept_openStep s p e k).trans (kept_evalPool _ s.available)
    have hspec := openStep_spec hs hk hp
    have hm : (s.programmed (s.commitWork .openStage) p).array = m := by
      rw [(programmed_eq (commitWork_openStage hs hk) hp).1]
    have hwithdraw := withdraw_spec (s := { s with array := m }) hk s.available
    refine ⟨_, exec_openStep hd hs hk, hmem.array.trans hm, ?_, poolEvaluated_of_kept (r := false) (l := false)
      (jobKept_openStep s p e k), fun j hj => ?_, fun ho => ?_, fun ho => ?_⟩
    · rw [State.evalPool_engine, hspec]
      split <;> exact endStep_resumeLock _ _
    · rw [State.evalPool_streams, hspec]
      split
      · exact State.chained_other (s := { s with array := m }) j hj
      · rfl
    · rw [if_pos ho] at hspec
      rw [hspec]
      obtain ⟨h1, h2, h3, h4, h5, h6, h7⟩ := opened_spec (s := { s with array := m }) (e := e) hk s.available
      refine ⟨h1, h2, h3, ?_, fun hnew => ?_, fun haw => ?_⟩
      · rw [h4]
        exact State.chained_chain { s with array := m } e k
      · obtain ⟨hrec, hstaging, -⟩ := State.chained_new (s := { s with array := m }) (k := k) hnew
        refine ⟨?_, h5.trans hstaging, ((State.heldKept_chained (s := { s with array := m }) hnew).from_eq (s := s) rfl rfl).of_eq h4 h7,
          fun hr => ?_⟩
        · rw [h4, hrec]
        · rw [h4, h6]
          exact State.chained_new_counts (s := { s with array := m }) hnew hk hr
      · obtain ⟨hrec, hstaging, -⟩ := State.chained_awaiting (s := { s with array := m }) (k := k) haw
        obtain ⟨hheld, hav⟩ := State.chained_awaiting_counts (s := { s with array := m }) haw hk
        refine ⟨?_, ?_, h5.trans hstaging, ?_, h6.trans hav,
          ((State.heldEvaluated_chained (s := { s with array := m }) haw).from_eq (s := s) rfl rfl).of_eq h4 h7⟩
        · rw [h4, hrec]
          rfl
        · rw [h5, hstaging]
          exact head_placeAwaiting hs haw
        · rw [h4]
          exact hheld
    · rw [if_neg (by simp [ho])] at hspec
      rw [hspec]
      exact hwithdraw

end Sys2Proof.Machine
end

section
/-! Record boundaries and stream faults (R34, R112, R114, R121, R128), and the COMMIT steps that end at them (R117 to R121). Settles O52,
O53. -/

namespace Sys2Proof.Machine

-- One proof after the other: the stacks of proofs elaborated side by side come near the memory that a check may take.
set_option Elab.async false

open Sys2Proof

variable {s t u : State}

/-! ### Record boundaries (R112, R114, R128) -/

/-- At a record boundary a job with more to do goes on, is suspended or gives way. -/
theorem endRecord_boundary (h : s.reachHead.staging ≠ []) : s.endRecord = s.reachHead.endStep .boundary := by
  unfold State.endRecord
  dsimp only
  rw [if_neg (by simpa using h)]

theorem endRecord_completed (h : s.reachHead.staging = []) : s.endRecord = s.reachHead.endStep .completed := by
  unfold State.endRecord
  dsimp only
  rw [if_pos (by simpa using h)]

theorem choose_of_trigger {l : Ledger} (h : l.trigger = true) : ∃ w, l.choose = some w := by
  refine Ledger.choose_of_workPending ?_
  simp only [Ledger.trigger, Bool.and_eq_true] at h
  exact h.1

/-- With ledger work triggered a selection starts the LEDGER job (R111). -/
theorem select_of_trigger (h : s.ledger.trigger = true) : ∃ w, s.select = s.run (.ledger w) := by
  obtain ⟨w, hw⟩ := choose_of_trigger h
  refine ⟨w, ?_⟩
  unfold State.select
  rw [if_pos h, hw]

/-- A COMMIT job at a boundary that is not about to be suspended: it gives way to the ledger, or goes on (R112). -/
theorem boundary_commit {c : CommitStep} (hj : s.engine.job = some (.commit c)) (hs : s.engine.state ≠ .suspendPending) :
    (s.ledger.trigger = true ∧ s.endStep .boundary
        = (State.idle { s with engine := { s.engine with resumeLock := false } }).select)
      ∨ (s.ledger.trigger = false ∧ s.endStep .boundary = { s with engine := { s.engine with resumeLock := false } }) := by
  unfold State.endStep
  dsimp only
  rw [if_neg hs]
  unfold State.yield
  simp only [hj]
  cases ht : s.ledger.trigger with
  | true => exact .inl ⟨rfl, rfl⟩
  | false => exact .inr ⟨rfl, rfl⟩

theorem boundary_suspended (hs : s.engine.state = .suspendPending) :
    s.endStep .boundary = { s with engine := { s.engine with state := .suspended, resumeLock := false } } := by
  unfold State.endStep
  dsimp only
  rw [if_pos hs]

/-- A pending suspension takes hold at a record boundary, with the first step for the head decided (R128). -/
theorem endRecord_suspended (hs : s.engine.state = .suspendPending) (hne : s.endRecord.staging ≠ []) :
    s.endRecord.engine.state = .suspended ∧ s.endRecord.CommitDecided ∧ s.endRecord.engine.preempted = s.engine.preempted := by
  have hr := reached_reachHead s
  have hw : s.reachHead.staging ≠ [] := by
    intro he
    have hsub := (faults_endStep s.reachHead .completed).staging
    rw [he, List.sublist_nil, ← endRecord_completed he] at hsub
    exact hne hsub
  rw [endRecord_boundary hw, boundary_suspended (hr.state.trans hs)]
  exact ⟨rfl, hr.decided hw, hr.preempted⟩

/-- Otherwise the engine runs after a record boundary what R111 has it select (R112, R114). -/
theorem endRecord_selected (h : s.engine.state = .running ∨ s.endRecord.staging = []) : s.endRecord.Selected s.engine.preempted := by
  have hr := reached_reachHead s
  by_cases hw : s.reachHead.staging = []
  · rw [endRecord_completed hw, ← hr.preempted]
    exact endStep_selected _
  · have hd := hr.decided hw
    obtain ⟨c, hj⟩ := hd.job
    rw [endRecord_boundary hw] at h ⊢
    by_cases hp : s.reachHead.engine.state = .suspendPending
    · exfalso
      rw [boundary_suspended hp, ← hr.state, hp] at h
      exact h.elim (fun h => by cases h) hw
    · rcases boundary_commit hj hp with ⟨ht, hb⟩ | ⟨ht, hb⟩
      · rw [hb, ← hr.preempted]
        exact select_selected _
      · rw [hb] at h ⊢
        have hrun : s.engine.state = .running := h.resolve_right hw
        refine ⟨fun h1 => ?_, fun _ _ => ⟨hr.state.trans hrun, hr.preempted, hd⟩, fun _ h1 => absurd h1 hw,
          fun _ h1 => absurd h1 hw, fun _ h1 => absurd h1 hw⟩
        rw [show s.reachHead.ledger.trigger = true from h1] at ht
        cases ht

/-- Where the head entry proceeds, the end of a step changes the engine alone. -/
theorem endStep_eq_of_proceeds (h : s.Proceeds s.staging) (x : StepEnd) : s.endStep x = { s with engine := (s.endStep x).engine } := by
  have hselect : ∀ e : Engine, State.select { s with engine := e } = { s with engine := (State.select { s with engine := e }).engine } :=
    fun e => select_of_proceeds (s := { s with engine := e }) h
  have hyield : ∀ e : Engine, State.yield { s with engine := e } = { s with engine := (State.yield { s with engine := e }).engine } := by
    intro e
    unfold State.yield
    dsimp only
    split
    · split
      · exact hselect _
      · rfl
    · split
      · exact hselect _
      · rfl
    · rfl
  unfold State.endStep
  cases x with
  | completed => exact hselect _
  | inside => rfl
  | boundary =>
    dsimp only
    split
    · rfl
    · exact hyield _

/-- Where the head entry proceeds, a record boundary changes the engine alone. -/
theorem endRecord_of_proceeds (h : s.Proceeds s.staging) : s.endRecord = { s with engine := s.endRecord.engine } := by
  unfold State.endRecord
  dsimp only
  rw [reachHead_of_proceeds h]
  exact endStep_eq_of_proceeds (s := { s with engine := s.reachHead.engine }) h _

/-! ### A stream fault at a record boundary (R34, R121) -/

/-- The state in which the stream of a step's head entry faults: of the stream's record the release walk may have changed what it
changes; the other records, the staging buffer, the pool, the sync point and the engine are as at the step's start. -/
structure State.FaultsFrom (s v : State) (i : StreamId) : Prop where
  record : { (v.streams[i]'i.isLt) with
    chain := (s.streams[i]'i.isLt).chain, notices := (s.streams[i]'i.isLt).notices,
    heldAtOrAbove := (s.streams[i]'i.isLt).heldAtOrAbove } = (s.streams[i]'i.isLt)
  others : ∀ j : StreamId, j ≠ i → (v.streams[j]'j.isLt) = (s.streams[j]'j.isLt)
  staging : v.staging = s.staging
  pool : v.pool = s.pool
  sync : v.sync = s.sync
  latch : v.eventLatch.getLsbD 0 = s.eventLatch.getLsbD 0
  engine : v.engine = s.engine

/-- A fault leaves no staged entry of its stream. -/
theorem faultStream_unstaged (s : State) (i : StreamId) : ∀ e ∈ (s.faultStream i).staging, e.stream ≠ i := by
  rw [(stays_faultStream s i).2]
  intro e he
  simpa using (List.mem_filter.1 he).2

section StreamFault

variable {v : State} {i : StreamId} (h : s.FaultsFrom v i) (n : Int)

/-- The end of a step in which a stream faults. -/
def State.faultEnd (i : StreamId) (n : Int) (v : State) : State := ((v.faultStream i).endRecord).evalPool n

theorem faultEnd_streams (v : State) (i : StreamId) (n : Int) : (v.faultEnd i n).streams = (v.faultStream i).endRecord.streams := by
  rw [State.faultEnd, State.evalPool_streams]

/-- The record of the stream that has faulted. -/
theorem faultEnd_same (v : State) (i : StreamId) (n : Int) :
    ((v.faultEnd i n).streams[i]'i.isLt) = (v.streams[i]'i.isLt).faultedRecord.heldEvaluated := by
  rw [faultEnd_streams, (faults_endRecord _).unstaged (faultStream_unstaged v i), State.faultStream_same]

theorem faultEnd_latched (v : State) (i : StreamId) (n : Int) {b : Nat} (h0 : b ≠ 0)
    (hb : (v.faultStream i).eventLatch.getLsbD b = true) : (v.faultEnd i n).eventLatch.getLsbD b = true := by
  rw [State.faultEnd, State.evalPool_getLsbD, (faults_endRecord _).latched hb h0]
  rfl

theorem faultEnd_staging (v : State) (i : StreamId) (n : Int) : (v.faultEnd i n).staging = (v.faultStream i).endRecord.staging := by
  rw [State.faultEnd, State.evalPool_staging]

theorem commitDecided_evalPool (h : t.CommitDecided) (n : Int) : (t.evalPool n).CommitDecided := by
  rw [State.evalPool_eq]
  exact h

include h

/-- Where the next head proceeds, the fault's step changes nothing else but the engine and the pool side. -/
theorem faultEnd_alone (hp : s.Proceeds (s.staging.filter fun x => x.stream != i)) :
    (v.faultStream i).endRecord = { v.faultStream i with engine := (v.faultStream i).endRecord.engine } := by
  refine endRecord_of_proceeds ?_
  rw [(stays_faultStream v i).2, h.staging]
  intro e he
  obtain ⟨hnew, hawaiting⟩ := hp e he
  refine ⟨fun hpl => ?_, fun hpl => ?_⟩
  · rw [(stays_faultStream v i).1.pool, h.pool]
    exact hnew hpl
  · refine le_trans (hawaiting hpl) ?_
    have hle : (v.faultStream i).totalReserved ≤ s.totalReserved := by
      rw [State.totalReserved_eq, State.totalReserved_eq]
      refine Finset.sum_le_sum fun j _ => ?_
      by_cases hj : j = i
      · subst hj
        rw [State.faultStream_same]
        exact Nat.zero_le _
      · rw [State.faultStream_other _ _ _ hj, h.others j hj]
    rw [State.available, State.available, (stays_faultStream v i).1.pool, h.pool]
    omega

theorem streamFaulted : s.StreamFaulted (v.faultEnd i n) i where
  state := by
    rw [faultEnd_same]
    rfl
  preFault := by
    rw [faultEnd_same, ← h.record]
    rfl
  reserved := by
    rw [faultEnd_same]
    rfl
  nextSeq := by
    rw [faultEnd_same, ← h.record]
    rfl
  notice := by
    rw [faultEnd_same, Stream.heldEvaluated_getLsbD, Stream.faultedRecord_getLsbD]
    simp
  heldSide := by
    rw [faultEnd_same]
    rfl
  rest := by
    have hrest := congrArg (fun x : Stream => ({ x with
      state := (s.streams[i]'i.isLt).state, preFault := (s.streams[i]'i.isLt).preFault, reserved := (s.streams[i]'i.isLt).reserved
      nextSeq := (s.streams[i]'i.isLt).nextSeq } : Stream)) h.record
    rw [faultEnd_same]
    exact hrest
  streamFault := by
    refine faultEnd_latched v i n (by decide) ?_
    rw [State.faultStream_getLsbD _ _ (by decide)]
    simp
  poolEmpty := by
    refine faultEnd_latched v i n (by decide) ?_
    rw [State.faultStream_getLsbD _ _ (by decide)]
    simp
  removed := by
    rw [faultEnd_staging, ← h.staging, ← (stays_faultStream v i).2]
    exact (faults_endRecord _).staging
  discarded := by
    intro items hi x hx
    rw [State.faultEnd, State.evalPool_sync] at hi
    obtain ⟨all, ha, hsub⟩ := (faults_endRecord _).sync items hi
    obtain ⟨before, -, rfl⟩ := (syncLeft_faultStream v i).items ha
    simpa using (List.mem_filter.1 (hsub x hx)).2
  alone hp := by
    have halone := faultEnd_alone h hp
    refine ⟨?_, ?_, fun j hj => ?_⟩
    · rw [faultEnd_staging, halone, ← h.staging]
      exact (stays_faultStream v i).2
    · have hleft := syncLeft_faultStream v i
      refine (hleft.from_eq h.sync h.latch).of_eq ?_ ?_
      · rw [State.faultEnd, State.evalPool_sync, halone]
      · rw [State.faultEnd, State.evalPool_getLsbD, halone]
        simp
    · rw [faultEnd_streams, halone, ← h.others j hj]
      exact State.faultStream_other v i j hj
  suspended hs hne := by
    rw [faultEnd_staging] at hne
    have he : (v.faultStream i).engine = s.engine := (State.faultStream_engine v i).trans h.engine
    obtain ⟨h1, h2, h3⟩ := endRecord_suspended (s := v.faultStream i) (by rw [he, hs]) hne
    rw [State.faultEnd, State.evalPool_engine]
    exact ⟨h1, commitDecided_evalPool h2 n, by rw [h3, he]⟩
  selected hs := by
    rw [faultEnd_staging] at hs
    have he : (v.faultStream i).engine = s.engine := (State.faultStream_engine v i).trans h.engine
    rw [← he]
    exact selected_evalPool (endRecord_selected (by rw [he]; exact hs)) n

end StreamFault

/-- Where the next head proceeds, the held side is evaluated by the fault alone (R168). -/
theorem heldEvaluated_faultEnd {v : State} {i : StreamId} (n : Int)
    (h : (v.faultStream i).endRecord = { v.faultStream i with engine := (v.faultStream i).endRecord.engine }) :
    v.HeldEvaluated (v.faultEnd i n) i := by
  have hrec := faultEnd_same v i n
  refine heldEvaluated_of (r := (v.streams[i]'i.isLt).faultedRecord) rfl ?_ (by rw [hrec]; rfl) (by rw [hrec]; rfl) (by rw [hrec]) ?_
  · rw [Stream.faultedRecord_getLsbD]
    simp
  · rw [State.faultEnd, State.evalPool_getLsbD, h, State.faultStream_getLsbD _ _ (by decide)]
    simp

/-! ### The opening goes on, or the stream faults (R117, R119 to R121) -/

theorem faults_continueOpening {e : Entry} (h : e ∈ s.staging) : Faults s (s.continueOpening e) := by
  unfold State.continueOpening
  split
  · exact (faults_setJob s _).trans (faults_endStep _ _)
  · exact (Faults.fault e h .none).trans (faults_endRecord _)

theorem continueOpening_resumeLock (s : State) (e : Entry) : (s.continueOpening e).engine.resumeLock = false := by
  unfold State.continueOpening
  split
  · rfl
  · exact endStep_resumeLock _ _

/-- An entry that finds a segment: a new one with the pool not empty, one that awaits a replacement with a segment available. -/
def State.FindsSegment (s : State) (e : Entry) : Prop :=
  (e.placement = .new ∧ s.pool ≠ []) ∨ (e.placement = .awaiting ∧ 1 ≤ s.available)

/-- An entry that needs a segment and may take none. -/
def State.FindsNone (s : State) (e : Entry) : Prop :=
  (e.placement = .new ∧ s.pool = []) ∨ (e.placement = .awaiting ∧ s.available < 1)

theorem continueOpening_opens {e : Entry} (h : s.FindsSegment e) :
    s.continueOpening e = (s.setJob (.commit s.openingStep)).endStep .inside := by
  refine if_pos ?_
  rcases h with ⟨hp, h⟩ | ⟨hp, h⟩ <;> simp [State.mayOpen, hp, h]

theorem continueOpening_faults {e : Entry} (h : s.FindsNone e) : s.continueOpening e = (s.faultStream e.stream).endRecord := by
  refine if_neg ?_
  rcases h with ⟨hp, h⟩ | ⟨hp, h⟩
  · simp [State.mayOpen, hp, h]
  · simpa [State.mayOpen, hp] using h

/-! ### The retire write after a failed opening (R117) -/

/-- The state once the retire write of a failed opening is done. -/
def State.retireWritten (m : Memory) (ok : Bool) (k : DataSeg) (s : State) : State :=
  State.updSegment { s with array := m } k fun g => { g with header := if ok then .retired else g.header }

theorem exec_openRetire {p : Pulses} {e : Entry} {es : List Entry} {k : DataSeg} {m : Memory} {ok : Bool}
    (hd : s.due (.commit (.openRetire k)) = true) (hs : s.staging = e :: es)
    (hp : program s.array (retireItem k 0x03) p = (m, ok)) :
    exec (.commitOpenRetireStep p) s = .next (((s.retireWritten m ok k).continueOpening e).evalPool s.available) := by
  have hj := (due_iff.1 hd).2.2
  obtain ⟨hprog, hok⟩ := programmed_eq (s := s) (w := s.commitWork (.openRetire k)) rfl hp
  have hstep : s.openRetireStep p e k = (s.retireWritten m ok k).continueOpening e := by
    unfold State.openRetireStep
    dsimp only
    rw [hprog, hok]
    rfl
  simp only [exec, execCommitOpenRetireStep, hj, stepWhen_due hd, hs, hstep]

theorem faultsFrom_retireWritten (m : Memory) (ok : Bool) (k : DataSeg) (i : StreamId) : s.FaultsFrom (s.retireWritten m ok k) i :=
  ⟨rfl, fun _ _ => rfl, rfl, rfl, rfl, rfl, rfl⟩

/-- The retire write after a failed opening, with what follows it (R117, R121). -/
theorem openRetire_result {p : Pulses} {e : Entry} {rest : List Entry} {k : DataSeg} {m : Memory} {ok : Bool}
    (hs : s.staging = e :: rest) (hd : s.due (.commit (.openRetire k)) = true)
    (hp : program s.array (retireItem k 0x03) p = (m, ok)) :
    ∃ t, exec (.commitOpenRetireStep p) s = .next t ∧ t.array = m ∧ t.pool = s.pool ∧ t.ledger = s.ledger
        ∧ (t.segments[k]'k.isLt).header = (if ok then .retired else (s.segments[k]'k.isLt).header) ∧ t.engine.resumeLock = false
        ∧ s.PoolEvaluated t
        ∧ (s.FindsSegment e →
            t.streams = s.streams ∧ t.staging = s.staging ∧ t.sync = s.sync
            ∧ t.engine = { s.engine with job := some (.commit t.openingStep), resumeLock := false })
        ∧ (e.placement = .new → s.pool ≠ [] →
            t.engine.job = some (.commit .freeStage) ∨ t.engine.job = some (.commit .openStage))
        ∧ (s.FindsNone e →
            s.StreamFaulted t e.stream
            ∧ (s.Proceeds (s.staging.filter fun x => x.stream != e.stream) → s.HeldEvaluated t e.stream)
            ∧ (t.streams[e.stream]'e.stream.isLt).chain = (s.streams[e.stream]'e.stream.isLt).chain
                ∧ (∀ x ∈ t.staging, x.stream ≠ e.stream)) := by
  have hfrom := faultsFrom_retireWritten (s := s) m ok k e.stream
  have hkept : Kept { s with array := m } (s.retireWritten m ok k) := kept_updSegment _ k _
  have hjob : JobKept false false s (s.retireWritten m ok k) := .of_eq rfl rfl rfl
  have hheader : ((s.retireWritten m ok k).segments[k]'k.isLt).header = (if ok then .retired else (s.segments[k]'k.isLt).header) :=
    congrArg Segment.header (State.updSegment_same { s with array := m } k fun g => { g with header := if ok then .retired else g.header })
  have hledger : (s.retireWritten m ok k).ledger = s.ledger := rfl
  have hstreams : (s.retireWritten m ok k).streams = s.streams := rfl
  have hav : (s.retireWritten m ok k).available = s.available := rfl
  have hlatch : (s.retireWritten m ok k).eventLatch.getLsbD 1 = s.eventLatch.getLsbD 1 := rfl
  refine ⟨_, exec_openRetire hd hs hp, ?_⟩
  generalize s.retireWritten m ok k = v at *
  have hf : Faults v (v.continueOpening e) := faults_continueOpening (by rw [hfrom.staging, hs]; exact List.mem_cons_self)
  have hsegment : s.FindsSegment e → v.continueOpening e = (v.setJob (.commit v.openingStep)).endStep .inside := fun h =>
    continueOpening_opens (by rw [State.FindsSegment, hfrom.pool, hav]; exact h)
  have hnone : s.FindsNone e → (v.continueOpening e).evalPool s.available = v.faultEnd e.stream s.available := fun h => by
    rw [continueOpening_faults (by rw [State.FindsNone, hfrom.pool, hav]; exact h), State.faultEnd]
  refine ⟨?_, ?_, ?_, ?_, ?_, ?_, fun h => ?_, fun hnew hpool => ?_, fun h => ?_⟩
  · exact ((hkept.trans (kept_continueOpening v e)).trans (kept_evalPool _ _)).array
  · rw [State.evalPool_pool, hf.leaves.pool, hfrom.pool]
  · rw [State.evalPool_ledger, hf.leaves.ledger, hledger]
  · rw [State.evalPool_segments, hf.leaves.segments, hheader]
  · rw [State.evalPool_engine]
    exact continueOpening_resumeLock v e
  · exact poolEvaluated_of_kept (hjob.trans (jobKept_continueOpening v e))
  · rw [hsegment h, State.evalPool_streams, State.evalPool_staging, State.evalPool_sync, State.evalPool_engine, ← hfrom.engine,
      ← hfrom.staging, ← hfrom.sync, ← hstreams]
    exact ⟨rfl, rfl, rfl, by rw [State.openingStep_congr (State.evalPool_pool _ _) (State.evalPool_segments _ _)]; rfl⟩
  · rw [hsegment (.inl ⟨hnew, hpool⟩), State.evalPool_engine]
    exact setJob_openingStep_job v
  · rw [hnone h]
    have hfault := streamFaulted hfrom s.available
    refine ⟨hfault, fun hp => (heldEvaluated_faultEnd s.available (faultEnd_alone hfrom hp)).from_eq hstreams hlatch, ?_, ?_⟩
    · rw [faultEnd_same, ← hstreams]
      rfl
    · intro x hx
      have hsub := hfault.removed.subset hx
      simpa using (List.mem_filter.1 hsub).2

/-! ### The close step (R119 to R121) -/

/-- The state in which the close step walks the chain. -/
def State.closeWritten (m : Memory) (k : DataSeg) (s : State) : State :=
  (State.updSegment { s with array := m } k fun g => { g with header := .retirePending }).raise .segmentRetired

theorem State.closeWritten_same (s : State) (m : Memory) (k : DataSeg) :
    ((s.closeWritten m k).segments[k]'k.isLt) = { (s.segments[k]'k.isLt) with header := .retirePending } :=
  State.updSegment_same { s with array := m } k fun g => { g with header := .retirePending }

theorem State.closeWritten_other (s : State) (m : Memory) {k j : DataSeg} (h : j ≠ k) :
    ((s.closeWritten m k).segments[j]'j.isLt) = (s.segments[j]'j.isLt) :=
  State.updSegment_other { s with array := m } k j (fun g => { g with header := .retirePending }) h.symm

theorem State.closeWritten_getLsbD (s : State) (m : Memory) (k : DataSeg) (n : Nat) :
    (s.closeWritten m k).eventLatch.getLsbD n = (s.eventLatch.getLsbD n || n == 8) := by
  rw [State.closeWritten, State.raise_getLsbD]
  rfl

theorem jobKept_closeWritten {r l : Bool} (s : State) (m : Memory) (k : DataSeg) : JobKept r l s (s.closeWritten m k) := by
  have h : JobKept r l s (State.updSegment { s with array := m } k fun g => { g with header := .retirePending }) :=
    .of_eq rfl rfl rfl
  exact h.trans (jobKept_raise _ .segmentRetired)

theorem exec_close {p : Pulses} {e : Entry} {es : List Entry} {k : DataSeg} {m : Memory} {ok : Bool}
    (hd : s.due (.commit (.close k)) = true) (hs : s.staging = e :: es)
    (hp : program s.array (retirePendingItem k (s.segments[k]'k.isLt).last (s.segments[k]'k.isLt).bytesUsed) p = (m, ok)) :
    exec (.commitCloseStep p) s
      = .next ((((s.closeWritten m k).releaseCovered e.stream).continueOpening e).evalPool s.available) := by
  have hj := (due_iff.1 hd).2.2
  obtain ⟨hprog, -⟩ := programmed_eq (s := s) (w := s.commitWork (.close k)) rfl hp
  have hstep : s.closeStep p e k = ((s.closeWritten m k).releaseCovered e.stream).continueOpening e := by
    unfold State.closeStep
    dsimp only
    rw [hprog]
    rfl
  simp only [exec, execCommitCloseStep, hj, stepWhen_due hd, hs, hstep]

/-- The chain that a close step walks is closed: its last segment has a close stage, and nothing is staged into it (R82, R119). -/
theorem closeWritten_shutIn {e : Entry} {es : List Entry} {k : DataSeg} (m : Memory) (hs : s.staging = e :: es)
    (hk : (s.streams[e.stream]'e.stream.isLt).chain.getLast? = some k) (haw : e.placement = .awaiting) :
    s.ShutIn (s.closeWritten m k) e.stream k where
  streams := rfl
  ledger := rfl
  others j hj := s.closeWritten_other m hj
  location := by rw [State.closeWritten_same]
  release := by rw [State.closeWritten_same]
  last := by rw [State.closeWritten_same]
  closed := by
    refine closed_of_shut (k := k) (State.stagedInLast_awaiting (s := s.closeWritten m k) hs haw) hk ?_
    rw [State.closeWritten_same]
    rfl

/-- What the close step leaves before the job goes on. -/
structure State.CloseWalked (s : State) (m : Memory) (k : DataSeg) (i : StreamId) (v : State) : Prop where
  kept : Kept { s with array := m } v
  entry : { (v.segments[k]'k.isLt) with location := (s.segments[k]'k.isLt).location, release := (s.segments[k]'k.isLt).release }
    = { (s.segments[k]'k.isLt) with header := .retirePending }
  faultsFrom : s.FaultsFrom v i
  available : v.available = s.available
  event : v.eventLatch.getLsbD 8 = true
  jobKept : JobKept false false s v

theorem closeWalked (s : State) (m : Memory) (k : DataSeg) (i : StreamId) :
    s.CloseWalked m k i ((s.closeWritten m k).releaseCovered i) where
  kept := ((kept_updSegment { s with array := m } k _).trans (kept_raise _ _)).trans (kept_releaseCovered (s.closeWritten m k) i)
  entry := by
    rw [State.releaseCovered_segments, State.closeWritten_same]
    split <;> rfl
  faultsFrom :=
    { record := State.releaseCovered_same (s.closeWritten m k) i
      others := fun j hj => State.releaseCovered_other (s.closeWritten m k) i j hj
      staging := State.releaseCovered_staging _ _
      pool := State.releaseCovered_pool _ _
      sync := State.releaseCovered_sync _ _
      latch := by
        rw [State.releaseCovered_getLsbD, State.closeWritten_getLsbD]
        simp
      engine := State.releaseCovered_engine _ _ }
  available := State.releaseCovered_available _ _
  event := by
    rw [State.releaseCovered_getLsbD, State.closeWritten_getLsbD]
    simp
  jobKept := (jobKept_closeWritten s m k).trans (jobKept_releaseCovered (s.closeWritten m k) i)

/-- What the close step leaves in every case (R119). -/
theorem close_common {e : Entry} {es : List Entry} {k : DataSeg} {m : Memory} {v : State} (hs : s.staging = e :: es)
    (h : s.CloseWalked m k e.stream v) (t : State) (ht : t = (v.continueOpening e).evalPool s.available) :
    t.array = m ∧ (t.segments[k]'k.isLt).header = .retirePending
        ∧ (t.segments[k]'k.isLt).last = (s.segments[k]'k.isLt).last ∧ (t.segments[k]'k.isLt).bytesUsed = (s.segments[k]'k.isLt).bytesUsed
        ∧ t.eventLatch.getLsbD 8 = true ∧ t.pool = s.pool ∧ t.engine.resumeLock = false ∧ s.PoolEvaluated t := by
  subst ht
  have hf : Faults v (v.continueOpening e) := faults_continueOpening (by rw [h.faultsFrom.staging, hs]; exact List.mem_cons_self)
  have hheader := congrArg Segment.header h.entry
  have hlast := congrArg Segment.last h.entry
  have hused := congrArg Segment.bytesUsed h.entry
  refine ⟨?_, ?_, ?_, ?_, ?_, ?_, ?_, poolEvaluated_of_kept (h.jobKept.trans (jobKept_continueOpening v e))⟩
  · exact ((h.kept.trans (kept_continueOpening v e)).trans (kept_evalPool _ _)).array
  · rw [State.evalPool_segments, hf.leaves.segments]
    exact hheader
  · rw [State.evalPool_segments, hf.leaves.segments]
    exact hlast
  · rw [State.evalPool_segments, hf.leaves.segments]
    exact hused
  · rw [State.evalPool_getLsbD, hf.latched h.event (by decide)]
    rfl
  · rw [State.evalPool_pool, hf.leaves.pool, h.faultsFrom.pool]
  · rw [State.evalPool_engine]
    exact continueOpening_resumeLock v e

/-- The close step whose job goes on with the opening of a replacement (R119, R120). -/
theorem close_opens {e : Entry} {k : DataSeg} {m : Memory} {v : State} (h : s.CloseWalked m k e.stream v)
    (haw : e.placement = .awaiting) (hav : 1 ≤ s.available) (t : State) (ht : t = (v.continueOpening e).evalPool s.available) :
    t.staging = s.staging ∧ t.sync = s.sync
      ∧ (t.engine.job = some (.commit .freeStage) ∨ t.engine.job = some (.commit .openStage))
      ∧ t.engine = { s.engine with job := some (.commit t.openingStep), resumeLock := false }
      ∧ (∀ j : StreamId, j ≠ e.stream → (t.streams[j]'j.isLt) = (s.streams[j]'j.isLt)) := by
  subst ht
  have hfrom := h.faultsFrom
  rw [continueOpening_opens (.inr ⟨haw, by rw [h.available]; exact hav⟩), State.evalPool_streams, State.evalPool_staging,
    State.evalPool_sync, State.evalPool_engine, ← hfrom.engine, ← hfrom.staging, ← hfrom.sync,
    State.openingStep_congr (State.evalPool_pool _ _) (State.evalPool_segments _ _)]
  exact ⟨rfl, rfl, setJob_openingStep_job v, setJob_openingStep v, hfrom.others⟩

/-- The close step whose stream faults (R121). -/
theorem close_faults {e : Entry} {k : DataSeg} {m : Memory} {v : State} (h : s.CloseWalked m k e.stream v)
    (haw : e.placement = .awaiting) (hav : s.available < 1) :
    (v.continueOpening e).evalPool s.available = v.faultEnd e.stream s.available := by
  rw [continueOpening_faults (.inr ⟨haw, by rw [h.available]; exact hav⟩), State.faultEnd]

/-- The release walk of the close step, with the evaluation of the held side by it and by a fault (R82, R83, R168). -/
theorem close_released {e : Entry} {es : List Entry} {k : DataSeg} (m : Memory) (hs : s.staging = e :: es)
    (haw : e.placement = .awaiting) (hk : (s.streams[e.stream]'e.stream.isLt).chain.getLast? = some k) (t : State)
    (ht : t = (((s.closeWritten m k).releaseCovered e.stream).continueOpening e).evalPool s.available) :
    ∃ ks, s.Released t e.stream k ks
      ∧ (1 ≤ s.available → (ks ≠ [] → s.HeldEvaluated t e.stream) ∧ (ks = [] → s.HeldKept t e.stream))
      ∧ (s.available < 1 → s.Proceeds (s.staging.filter fun x => x.stream != e.stream) →
        ks = [] ∨ (s.streams[e.stream]'e.stream.isLt).heldAtOrAbove = true → s.HeldEvaluated t e.stream) := by
  subst ht
  have hw := closeWalked s m k e.stream
  have hlatch : (s.closeWritten m k).eventLatch.getLsbD 1 = s.eventLatch.getLsbD 1 := by
    rw [State.closeWritten_getLsbD]
    simp
  have hev := fun hks => (heldEvaluated_released (s := s.closeWritten m k) (i := e.stream) hks).from_eq (s := s) rfl hlatch
  have hkept := fun hks => (heldKept_released (s := s.closeWritten m k) (i := e.stream) hks).from_eq (s := s) rfl hlatch
  have hnil : (s.closeWritten m k).walked e.stream = [] →
      (((s.closeWritten m k).releaseCovered e.stream).streams[e.stream]'e.stream.isLt) = (s.streams[e.stream]'e.stream.isLt)
        ∧ ((s.closeWritten m k).releaseCovered e.stream).eventLatch.getLsbD 1 = s.eventLatch.getLsbD 1 := fun hks => by
    rw [State.walked_nil hks]
    exact ⟨rfl, hlatch⟩
  have hreleased := released_of_shut (closeWritten_shutIn m hs hk haw)
  generalize (s.closeWritten m k).releaseCovered e.stream = v at hw hev hkept hnil hreleased ⊢
  have hf : Faults v (v.continueOpening e) :=
    faults_continueOpening (by rw [hw.faultsFrom.staging, hs]; exact List.mem_cons_self)
  have hchain := congrArg Stream.chain (hf.kept e.stream).frame
  refine ⟨_, hreleased.congr ?_ ?_ ?_, fun hav => ?_, fun hav hp => ?_⟩
  · rw [State.evalPool_streams]
    exact hchain
  · rw [State.evalPool_segments, hf.leaves.segments]
  · rw [State.evalPool_ledger, hf.leaves.ledger]
  · have hopens := continueOpening_opens (s := v) (e := e) (.inr ⟨haw, by rw [hw.available]; exact hav⟩)
    have hstreams : ((v.continueOpening e).evalPool s.available).streams = v.streams := by
      rw [State.evalPool_streams, hopens]
      rfl
    have hbit : ((v.continueOpening e).evalPool s.available).eventLatch.getLsbD 1 = v.eventLatch.getLsbD 1 := by
      rw [State.evalPool_getLsbD, hopens]
      simp [State.endStep, State.setJob]
    exact ⟨fun hks => (hev hks).of_eq hstreams hbit, fun hks => (hkept hks).of_eq hstreams hbit⟩
  · rw [close_faults hw haw hav]
    have hfault := heldEvaluated_faultEnd s.available (faultEnd_alone hw.faultsFrom hp)
    intro hcase
    by_cases hks : (s.closeWritten m k).walked e.stream = []
    · exact hfault.from_record (hnil hks).1 (hnil hks).2
    · have hrec := faultEnd_same v e.stream s.available
      refine (hev hks).trans hfault (hcase.resolve_left hks) (by rw [hrec]; rfl) ?_
      rw [hrec]
      exact Nat.add_le_add_left (Nat.zero_le _) _

/-- Settles O52: the retire write and the close step, each with the opening that follows or the fault. -/
theorem commitRetireAndCloseSteps : Obligations.CommitRetireAndCloseSteps := by
  intro s p e rest k m ok hs
  refine ⟨fun hd hp => openRetire_result hs hd hp, fun hd haw hp => ?_⟩
  have hw := closeWalked s m k e.stream
  have hreleased := fun hk => close_released (k := k) m hs haw hk _ rfl
  refine ⟨_, exec_close hd hs hp, ?_⟩
  obtain ⟨h1, h2, h3, h4, h5, h6, h7, h8⟩ := close_common hs hw _ rfl
  refine ⟨h1, h2, h3, h4, h5, h6, h7, h8, fun hav => close_opens hw haw hav _ rfl, fun hav => ?_, hreleased⟩
  have hfault := streamFaulted hw.faultsFrom s.available
  rw [close_faults hw haw hav]
  refine ⟨hfault, fun x hx => ?_, hfault.streamFault⟩
  have hsub := hfault.removed.subset hx
  simpa using (List.mem_filter.1 hsub).2

/-! ### The record step (R118, R119) -/

theorem commitWork_record {e : Entry} {es : List Entry} {k : DataSeg} (hs : s.staging = e :: es)
    (hk : (s.streams[e.stream]'e.stream.isLt).chain.getLast? = some k) :
    s.commitWork .record = .program (recordItem (recordAddr k (s.segments[k]'k.isLt).bytesUsed) e) := by
  simp [State.commitWork, hs, -Fin.getElem_fin, hk]

theorem exec_record {p : Pulses} {e : Entry} {es : List Entry} {k : DataSeg} (hd : s.due (.commit .record) = true)
    (hs : s.staging = e :: es) (hk : (s.streams[e.stream]'e.stream.isLt).chain.getLast? = some k)
    (hroom : (s.segments[k]'k.isLt).bytesUsed + footprint e.payload.length ≤ 4064) :
    exec (.commitRecordStep p) s = .next ((s.recordStep p e k).evalPool s.available) := by
  have hn : ¬ (s.due (.commit .record) = true ∧ Config.recordArea < (s.segments[k]'k.isLt).bytesUsed + footprint e.payload.length) :=
    fun h => absurd (show 4064 < _ from h.2) (by omega)
  simp only [exec, execCommitRecordStep, hs, State.headSegment, hk, if_neg hn, stepWhen_due hd]

theorem recordStep_spec {p : Pulses} {e : Entry} {es : List Entry} {k : DataSeg} {m : Memory} {ok : Bool} (hs : s.staging = e :: es)
    (hk : (s.streams[e.stream]'e.stream.isLt).chain.getLast? = some k)
    (hp : program s.array (recordItem (recordAddr k (s.segments[k]'k.isLt).bytesUsed) e) p = (m, ok)) :
    s.recordStep p e k = if ok = true then State.committed e k { s with array := m } else State.recordFailed e k { s with array := m } := by
  obtain ⟨hprog, hok⟩ := programmed_eq (commitWork_record hs hk) hp
  unfold State.recordStep
  dsimp only
  rw [hprog, hok]

/-- A record is in its segment: last committed, the segment's fields and the staging buffer have moved on (R118). -/
def State.advanced (e : Entry) (k : DataSeg) (s : State) : State :=
  let s1 := (s.updStream e.stream fun t => { t with lastCommitted := e.seq }).updSegment k fun g =>
    { g with last := e.seq, bytesUsed := g.bytesUsed + footprint e.payload.length }
  { s1 with staging := s1.staging.tail }

/-- A record has been committed, and the step's end is reached (R118). -/
def State.recorded (e : Entry) (k : DataSeg) (s : State) : State :=
  (((s.advanced e k).evalUnread e.stream).satisfy (SyncItem.committedIn e.stream (s.streams[e.stream]'e.stream.isLt).epoch e.seq)).evalSync

theorem State.committed_eq (s : State) (e : Entry) (k : DataSeg) : s.committed e k = (s.recorded e k).endRecord := rfl

section Recorded

variable (s) (e : Entry) (k : DataSeg)

theorem State.advanced_streams (j : StreamId) : ((s.advanced e k).streams[j]'j.isLt)
    = if j = e.stream then { (s.streams[e.stream]'e.stream.isLt) with lastCommitted := e.seq } else (s.streams[j]'j.isLt) := by
  split
  next h =>
    subst h
    exact State.updStream_same s e.stream fun t => { t with lastCommitted := e.seq }
  next h => exact State.updStream_other s e.stream j (fun t => { t with lastCommitted := e.seq }) (Ne.symm h)

theorem State.recorded_streams : (s.recorded e k).streams = ((s.advanced e k).evalUnread e.stream).streams := by
  rw [State.recorded, State.evalSync_streams]
  rfl

theorem State.recorded_same :
    ((s.recorded e k).streams[e.stream]'e.stream.isLt) =
        ({ (s.streams[e.stream]'e.stream.isLt) with lastCommitted := e.seq } : Stream).unreadEvaluated := by
  rw [State.recorded_streams, State.evalUnread_same, State.advanced_streams, if_pos rfl]

theorem State.recorded_other {j : StreamId} (h : j ≠ e.stream) : ((s.recorded e k).streams[j]'j.isLt) = (s.streams[j]'j.isLt) := by
  rw [State.recorded_streams, State.evalUnread_other _ _ _ h, State.advanced_streams, if_neg h]

theorem State.recorded_state (j : StreamId) : ((s.recorded e k).streams[j]'j.isLt).state = (s.streams[j]'j.isLt).state := by
  by_cases h : j = e.stream
  · subst h
    rw [State.recorded_same]
    rfl
  · rw [State.recorded_other s e k h]

theorem State.recorded_segments : (s.recorded e k).segments = (s.advanced e k).segments := by
  rw [State.recorded, State.evalSync_segments, State.satisfy_segments, State.evalUnread_segments]

theorem State.recorded_segment : ((s.recorded e k).segments[k]'k.isLt)
    = { (s.segments[k]'k.isLt) with last := e.seq, bytesUsed := (s.segments[k]'k.isLt).bytesUsed + footprint e.payload.length } := by
  rw [State.recorded_segments]
  exact State.updSegment_same (s.updStream e.stream fun t => { t with lastCommitted := e.seq }) k
    (fun g => { g with last := e.seq, bytesUsed := g.bytesUsed + footprint e.payload.length })

theorem State.recorded_segment_other {j : DataSeg} (h : j ≠ k) : ((s.recorded e k).segments[j]'j.isLt) = (s.segments[j]'j.isLt) := by
  rw [State.recorded_segments]
  exact State.updSegment_other (s.updStream e.stream fun t => { t with lastCommitted := e.seq }) k j
    (fun g => { g with last := e.seq, bytesUsed := g.bytesUsed + footprint e.payload.length }) h.symm

theorem State.recorded_staging : (s.recorded e k).staging = s.staging.tail := by
  rw [State.recorded, State.evalSync_staging, State.satisfy_staging, State.evalUnread_staging]
  rfl

theorem State.recorded_pool : (s.recorded e k).pool = s.pool := by
  rw [State.recorded, State.evalSync_pool, State.satisfy_pool, State.evalUnread_pool]
  rfl

theorem State.recorded_engine : (s.recorded e k).engine = s.engine := by
  rw [State.recorded, State.evalSync_engine, State.satisfy_engine, State.evalUnread_engine]
  rfl

theorem State.recorded_getLsbD {n : Nat} (h : n ≠ 0) : (s.recorded e k).eventLatch.getLsbD n = (s.eventLatch.getLsbD n
    || (n == 2 && ({ (s.streams[e.stream]'e.stream.isLt) with lastCommitted := e.seq } : Stream).unreadArrives)) := by
  rw [State.recorded, State.evalSync_getLsbD _ h, State.satisfy_eventLatch, State.evalUnread_getLsbD, State.advanced_streams,
    if_pos rfl]
  rfl

theorem State.recorded_syncLeft : s.SyncLeft (s.recorded e k) (fun items => items.filter fun x =>
    !SyncItem.committedIn e.stream (s.streams[e.stream]'e.stream.isLt).epoch e.seq x) := by
  refine syncLeft_evalSync ?_ ?_
  · show Option.map _ ((s.advanced e k).evalUnread e.stream).sync = _
    rw [State.evalUnread_sync]
    rfl
  · rw [State.satisfy_eventLatch, State.evalUnread_getLsbD]
    simp [State.advanced, State.updStream, State.updSegment]

theorem State.recorded_available : (s.recorded e k).available = s.available := by
  refine available_congr (s.recorded_pool e k) fun j => ?_
  by_cases h : j = e.stream
  · subst h
    rw [State.recorded_same]
    rfl
  · rw [State.recorded_other s e k h]

end Recorded

/-- An outcome about the unread side that starts from a state with the same records and events. -/
theorem State.UnreadEvaluated.from_eq {i : StreamId} (h : u.UnreadEvaluated t i) (hs : u.streams = s.streams)
    (he : u.eventLatch.getLsbD 2 = s.eventLatch.getLsbD 2) : s.UnreadEvaluated t i := by
  obtain ⟨h1, h2, h3⟩ := h
  rw [hs] at h2 h3
  rw [he] at h2
  exact ⟨h1, h2, h3⟩

/-- The unread side is evaluated after a record, whatever faults at the step's end (R121, R169). -/
theorem unreadEvaluated_recorded {e : Entry} {k : DataSeg} (h : Faults (s.recorded e k) t) (n : Int) :
    s.UnreadEvaluated (t.evalPool n) e.stream := by
  have hk := h.kept e.stream
  have hframe := hk.frame
  have hbit := hk.notices 1 (by decide) (by decide)
  rw [State.recorded_same] at hframe hbit
  have hside := congrArg Stream.unreadAbove hframe
  have hcount := congrArg Stream.unreadSide hframe
  refine unreadEvaluated_of (r := { (s.streams[e.stream]'e.stream.isLt) with lastCommitted := e.seq }) rfl rfl ?_ ?_ ?_ ?_
  · rw [State.evalPool_streams]
    exact hside
  · rw [State.evalPool_streams]
    exact hcount
  · rw [State.evalPool_streams]
    exact hbit
  · rw [State.evalPool_getLsbD, h.latch (by decide) (by decide) (by decide) (by decide), State.recorded_getLsbD s e k (by decide)]
    simp

/-- A record has been committed: what the step leaves of streams, staging buffer and sync point (R118). -/
theorem committed_result {e : Entry} {es : List Entry} {k : DataSeg} (hs : s.staging = e :: es) (n : Int) :
    (((s.committed e k).evalPool n).streams[e.stream]'e.stream.isLt).lastCommitted = e.seq
      ∧ (((s.committed e k).evalPool n).segments[k]'k.isLt) = { (s.segments[k]'k.isLt) with
          last := e.seq, bytesUsed := (s.segments[k]'k.isLt).bytesUsed + footprint e.payload.length }
      ∧ ((s.committed e k).evalPool n).staging.Sublist es
      ∧ (((s.committed e k).evalPool n).streams[e.stream]'e.stream.isLt).chain = (s.streams[e.stream]'e.stream.isLt).chain
      ∧ s.UnreadEvaluated ((s.committed e k).evalPool n) e.stream
      ∧ (∀ x ∈ es, x ∉ ((s.committed e k).evalPool n).staging →
          (((s.committed e k).evalPool n).streams[x.stream]'x.stream.isLt).state = .faulted) := by
  have hf : Faults (s.recorded e k) (s.committed e k) := s.committed_eq e k ▸ faults_endRecord _
  have htail : (s.recorded e k).staging = es := by rw [State.recorded_staging, hs]; rfl
  have hframe := (hf.kept e.stream).frame
  rw [State.recorded_same] at hframe
  have hlast := congrArg Stream.lastCommitted hframe
  have hchain := congrArg Stream.chain hframe
  refine ⟨?_, ?_, ?_, ?_, unreadEvaluated_recorded hf n, fun x hx hn => ?_⟩
  · rw [State.evalPool_streams]
    exact hlast
  · rw [State.evalPool_segments, hf.leaves.segments, State.recorded_segment]
  · rw [State.evalPool_staging, ← htail]
    exact hf.staging
  · rw [State.evalPool_streams]
    exact hchain
  · rw [State.evalPool_staging] at hn
    rw [State.evalPool_streams]
    exact hf.lost (by rw [htail]; exact hx) hn

/-- Where the next head proceeds, the record's step changes nothing else of streams, staging buffer and sync point (R114, R118). -/
theorem committed_alone {e : Entry} {es : List Entry} {k : DataSeg} (hs : s.staging = e :: es) (hp : s.Proceeds es) (n : Int) :
    ((s.committed e k).evalPool n).staging = es
      ∧ s.SyncLeft ((s.committed e k).evalPool n) (fun items => items.filter fun x =>
          !SyncItem.committedIn e.stream (s.streams[e.stream]'e.stream.isLt).epoch e.seq x)
      ∧ ∀ j : StreamId, (((s.committed e k).evalPool n).streams[j]'j.isLt).state = (s.streams[j]'j.isLt).state
        ∧ (j ≠ e.stream → (((s.committed e k).evalPool n).streams[j]'j.isLt) = (s.streams[j]'j.isLt)) := by
  have htail : (s.recorded e k).staging = es := by rw [State.recorded_staging, hs]; rfl
  have halone : s.committed e k = { s.recorded e k with engine := (s.committed e k).engine } := by
    rw [State.committed_eq]
    refine endRecord_of_proceeds ?_
    intro x hx
    rw [htail] at hx
    rw [State.recorded_pool, State.recorded_available]
    exact hp x hx
  refine ⟨?_, (s.recorded_syncLeft e k).of_eq ?_ ?_, fun j => ⟨?_, fun hj => ?_⟩⟩
  · rw [State.evalPool_staging, halone]
    exact htail
  · rw [State.evalPool_sync, halone]
  · rw [State.evalPool_getLsbD, halone]
    simp
  · rw [State.evalPool_streams, halone]
    exact s.recorded_state e k j
  · rw [State.evalPool_streams, halone]
    exact s.recorded_other e k hj

/-- How a record's step ends (R112, R128). -/
theorem committed_boundary (s : State) (e : Entry) (k : DataSeg) (n : Int) :
    (s.engine.state = .suspendPending → ((s.committed e k).evalPool n).staging ≠ [] →
        ((s.committed e k).evalPool n).engine.state = .suspended ∧ ((s.committed e k).evalPool n).CommitDecided
          ∧ ((s.committed e k).evalPool n).engine.preempted = s.engine.preempted)
      ∧ (s.engine.state = .running ∨ ((s.committed e k).evalPool n).staging = [] →
        ((s.committed e k).evalPool n).Selected s.engine.preempted) := by
  have heng := s.recorded_engine e k
  rw [State.committed_eq, State.evalPool_staging, State.evalPool_engine]
  refine ⟨fun hp hne => ?_, fun h => ?_⟩
  · obtain ⟨h1, h2, h3⟩ := endRecord_suspended (s := s.recorded e k) (by rw [heng, hp]) hne
    exact ⟨h1, commitDecided_evalPool h2 n, by rw [h3, heng]⟩
  · rw [← heng]
    exact selected_evalPool (endRecord_selected (by rw [heng]; exact h)) n

/-- Marking entries as awaiting a replacement changes their placements alone (R119). -/
theorem markAwaiting_map (i : StreamId) (es : List Entry) :
    (markAwaiting i es).map (fun x => (x.stream, x.seq, x.tag, x.payload)) = es.map (fun x => (x.stream, x.seq, x.tag, x.payload)) := by
  induction es with
  | nil => rfl
  | cons e es ih =>
    unfold markAwaiting
    split
    · split
      · rfl
      · rw [List.map_cons, List.map_cons, ih]
    · rw [List.map_cons, List.map_cons, ih]

/-- A record program has failed: the segment is poisoned and the close step follows (R119). -/
theorem recordFailed_result {e : Entry} {es : List Entry} {k : DataSeg} (hs : s.staging = e :: es) (n : Int) :
    (((s.recordFailed e k).evalPool n).segments[k]'k.isLt) = { (s.segments[k]'k.isLt) with poisoned := true }
      ∧ ((s.recordFailed e k).evalPool n).streams = s.streams
      ∧ ((s.recordFailed e k).evalPool n).engine = { s.engine with job := some (.commit (.close k)), resumeLock := false }
      ∧ ((s.recordFailed e k).evalPool n).sync = s.sync
      ∧ ((s.recordFailed e k).evalPool n).staging = { e with placement := .awaiting } :: markAwaiting e.stream es
      ∧ ((s.recordFailed e k).evalPool n).staging.map (fun x => (x.stream, x.seq, x.tag, x.payload))
          = s.staging.map (fun x => (x.stream, x.seq, x.tag, x.payload)) := by
  have hstaging : ((s.recordFailed e k).evalPool n).staging = { e with placement := .awaiting } :: markAwaiting e.stream es := by
    rw [State.evalPool_staging]
    show _ :: markAwaiting e.stream s.staging.tail = _
    rw [hs, List.tail_cons]
  refine ⟨?_, ?_, ?_, ?_, hstaging, ?_⟩
  · rw [State.evalPool_segments]
    exact State.updSegment_same s k fun g => { g with poisoned := true }
  · rw [State.evalPool_streams]
    rfl
  · rw [State.evalPool_engine]
    rfl
  · rw [State.evalPool_sync]
    rfl
  · rw [hstaging, hs, List.map_cons, List.map_cons, markAwaiting_map]

/-- Settles O53: the record step commits the record and reaches a boundary, or poisons the segment. -/
theorem commitRecordStepResult : Obligations.CommitRecordStepResult := by
  intro s p e rest k m ok hd hs hk hroom hp
  have hspec := recordStep_spec hs hk hp
  have hkept := (kept_recordStep s p e k).trans (kept_evalPool _ s.available)
  have hpool := poolEvaluated_of_kept (r := true) (l := false) (jobKept_recordStep s p e k)
  have hm : (s.programmed (s.commitWork .record) p).array = m := by
    rw [(programmed_eq (commitWork_record hs hk) hp).1]
  have hcommitted := committed_result (s := { s with array := m }) (k := k) hs s.available
  have halone := fun h => committed_alone (s := { s with array := m }) (k := k) hs h s.available
  have hboundary := committed_boundary { s with array := m } e k s.available
  have hfailed := recordFailed_result (s := { s with array := m }) (k := k) hs s.available
  have hf : Faults (State.recorded e k { s with array := m }) (State.committed e k { s with array := m }) :=
    State.committed_eq _ e k ▸ faults_endRecord _
  refine ⟨_, exec_record hd hs hk hroom, hkept.array.trans hm, hkept.port, hkept.guard, ?_, fun j hj => ?_, ?_, hpool, fun ho => ?_,
    fun ho => ?_⟩
  · rw [State.evalPool_pool, hspec]
    split
    · rw [hf.leaves.pool, State.recorded_pool]
    · rfl
  · rw [State.evalPool_segments, hspec]
    cases ok with
    | true =>
      rw [if_pos rfl, hf.leaves.segments]
      exact State.recorded_segment_other { s with array := m } e k hj
    | false => exact State.updSegment_other { s with array := m } k j (fun g => { g with poisoned := true }) hj.symm
  · rw [State.evalPool_engine, hspec]
    split
    · rw [State.committed_eq, State.endRecord]
      exact endStep_resumeLock _ _
    · rfl
  · rw [hspec, if_pos ho]
    obtain ⟨h1, h2, h3, h4, h5, h6⟩ := hcommitted
    refine ⟨h1, h2, h3, h4, h5.from_eq (s := s) rfl rfl, h6, fun h => ?_, hboundary⟩
    obtain ⟨h7, h8, h9⟩ := halone h
    exact ⟨h7, h8.from_eq (s := s) rfl rfl, h9⟩
  · rw [hspec, if_neg (by simp [ho])]
    exact hfailed

end Sys2Proof.Machine
end

section
/-! The RECLAIM steps, with suspension, yielding and selection at their ends (R123 to R126). Settles O54. -/

namespace Sys2Proof.Machine

-- One proof after the other: the stacks of proofs elaborated side by side come near the memory that a check may take.
set_option Elab.async false

open Sys2Proof

variable {s t u : State}

/-! ### Erase counts (R104, R123) -/

/-- The higher of two counts, of which either may be unknown. -/
def higherCount (a b : Option Nat) : Option Nat :=
  match a, b with
  | none, c => c
  | a, none => a
  | some x, some c => some (max x c)

/-- The highest of the known counts, beginning with one. -/
def highestOf (a : Option Nat) (cs : List (Option Nat)) : Option Nat := cs.foldl higherCount a

theorem highestOf_none {a : Option Nat} {cs : List (Option Nat)} : highestOf a cs = none ↔ a = none ∧ ∀ c ∈ cs, c = none := by
  induction cs generalizing a with
  | nil => simp [highestOf]
  | cons c cs ih =>
    show highestOf (higherCount a c) cs = none ↔ _
    rw [ih]
    cases a <;> cases c <;> simp [higherCount]

theorem highestOf_some {a : Option Nat} {cs : List (Option Nat)} {x : Nat} (h : highestOf a cs = some x) :
    (a = some x ∨ some x ∈ cs) ∧ (∀ y, a = some y → y ≤ x) ∧ ∀ y, some y ∈ cs → y ≤ x := by
  induction cs generalizing a with
  | nil =>
    have ha : a = some x := h
    subst ha
    simp
  | cons c cs ih =>
    obtain ⟨hmem, hfirst, hrest⟩ := ih (a := higherCount a c) h
    cases a with
    | none =>
      rw [show higherCount none c = c from rfl] at hmem hfirst
      refine ⟨.inr ?_, by simp, fun y hy => ?_⟩
      · exact hmem.elim (fun e => e ▸ List.mem_cons_self) (List.mem_cons_of_mem c)
      · exact (List.mem_cons.1 hy).elim (fun e => hfirst y e.symm) (hrest y)
    | some z =>
      cases c with
      | none =>
        rw [show higherCount (some z) none = some z from rfl] at hmem hfirst
        refine ⟨hmem.imp_right (List.mem_cons_of_mem none), hfirst, fun y hy => ?_⟩
        exact (List.mem_cons.1 hy).elim (fun e => nomatch e) (hrest y)
      | some w =>
        rw [show higherCount (some z) (some w) = some (max z w) from rfl] at hmem hfirst
        have hmax := hfirst _ rfl
        refine ⟨?_, fun y hy => ?_, fun y hy => ?_⟩
        · rcases hmem with e | e
          · rw [Option.some.injEq] at e
            subst e
            rcases Nat.le_total z w with hle | hle
            · exact .inr (by rw [Nat.max_eq_right hle]; exact List.mem_cons_self)
            · exact .inl (by rw [Nat.max_eq_left hle])
          · exact .inr (List.mem_cons_of_mem _ e)
        · cases hy
          omega
        · rcases List.mem_cons.1 hy with e | e
          · cases e
            omega
          · exact hrest y e

theorem State.highestCount_eq (s : State) : s.highestCount = highestOf none (s.segments.toList.map Segment.eraseCount) := by
  rw [State.highestCount, highestOf, List.foldl_map]
  congr

theorem mem_eraseCounts {c : Option Nat} : c ∈ s.segments.toList.map Segment.eraseCount ↔
    ∃ k : DataSeg, (s.segments[k]'k.isLt).eraseCount = c := by
  rw [List.mem_map]
  constructor
  · rintro ⟨g, hg, rfl⟩
    obtain ⟨n, hn, rfl⟩ := List.getElem_of_mem hg
    exact ⟨⟨n, by simpa using hn⟩, by simp⟩
  · rintro ⟨k, rfl⟩
    exact ⟨(s.segments[k]'k.isLt), by simp, rfl⟩

theorem highestCount_none (h : s.highestCount = none) (k : DataSeg) : (s.segments[k]'k.isLt).eraseCount = none := by
  rw [State.highestCount_eq] at h
  exact (highestOf_none.1 h).2 _ (mem_eraseCounts.2 ⟨k, rfl⟩)

theorem highestCount_some {x : Nat} (h : s.highestCount = some x) :
    (∃ k : DataSeg, (s.segments[k]'k.isLt).eraseCount = some x)
        ∧ ∀ (k : DataSeg) (y : Nat), (s.segments[k]'k.isLt).eraseCount = some y → y ≤ x := by
  rw [State.highestCount_eq] at h
  obtain ⟨hmem, -, hmax⟩ := highestOf_some h
  exact ⟨mem_eraseCounts.1 (hmem.resolve_left (by simp)), fun k y hk => hmax y (mem_eraseCounts.2 ⟨k, hk⟩)⟩

/-- The count that a successful erase gives a segment (R104, R123). -/
theorem countRaised_nextCount (s : State) (k : DataSeg) : s.CountRaised k (s.nextCount k) := by
  constructor
  · intro x hx
    simp only [State.nextCount, hx]
  · intro hn j x hj hmax
    cases hh : s.highestCount with
    | none => rw [highestCount_none hh j] at hj; cases hj
    | some y =>
      obtain ⟨⟨i, hi⟩, hle⟩ := highestCount_some hh
      have hxy : x = y := Nat.le_antisymm (hle j x hj) (hmax i y hi)
      simp only [State.nextCount, hn, hh, hxy]
  · intro hall
    have hh : s.highestCount = none := by
      cases hh : s.highestCount with
      | none => rfl
      | some y =>
        obtain ⟨⟨i, hi⟩, -⟩ := highestCount_some hh
        rw [hall i] at hi
        cases hi
    simp only [State.nextCount, hall k, hh]

/-- The count depends on the counts of the segment table alone. -/
theorem State.CountRaised.congr {k : DataSeg} {c : Nat} (h : t.CountRaised k c)
    (he : ∀ j : DataSeg, (t.segments[j]'j.isLt).eraseCount = (s.segments[j]'j.isLt).eraseCount) : s.CountRaised k c := by
  obtain ⟨h1, h2, h3⟩ := h
  simp only [he] at h1 h2 h3
  exact ⟨h1, h2, h3⟩

/-! ### The ends of RECLAIM steps (R112, R123, R126, R128) -/

/-- A pulse that leaves the job running gives way to ledger or staged work, and then the job is in the preempted slot (R112, R126). -/
theorem boundary_reclaim_selected {k : DataSeg} {n : Nat} (hj : s.engine.job = some (.reclaim k (.pulse n)))
    (hr : s.engine.state = .running) (hp : s.engine.preempted = none) : (s.endStep .boundary).Selected (some (k, n)) := by
  unfold State.endStep
  dsimp only
  rw [if_neg (by rw [hr]; decide)]
  unfold State.yield
  simp only [hj]
  cases hw : s.ledger.trigger || !s.staging.isEmpty with
  | true => exact select_selected _
  | false =>
    rw [if_neg (by simp)]
    obtain ⟨ht, hs⟩ : s.ledger.trigger = false ∧ s.staging = [] := by simpa using hw
    refine ⟨fun h => ?_, fun _ h => absurd hs h, fun _ _ a b hab => ?_, fun _ _ h => by simp at h, fun _ _ h => by simp at h⟩
    · rw [show s.ledger.trigger = true from h] at ht
      cases ht
    · cases hab
      exact ⟨hr, hp, rfl⟩

theorem boundary_reclaim_suspended (hs : s.engine.state = .suspendPending) :
    (s.endStep .boundary).engine = { s.engine with state := .suspended, resumeLock := false } := by
  rw [boundary_suspended hs]

/-! ### The RECLAIM steps (R123 to R125) -/

theorem faults_setEnd (s : State) (j : Job) (x : StepEnd) : Faults s ((s.setJob j).endStep x) :=
  (faults_setJob s j).trans (faults_endStep _ x)

theorem exec_reclaimPulse {r : Residue} {k : DataSeg} {n : Nat} (hd : s.due (.reclaim k (.pulse n)) = true) :
    exec (.reclaimErasePulse r) s = .next ((s.reclaimPulse r k n).evalPool s.available) := by
  simp only [exec, execReclaimErasePulse, (due_iff.1 hd).2.2, stepWhen_due hd]

theorem exec_reclaimFreeStage {p : Pulses} {k : DataSeg} {c : Nat} (hd : s.due (.reclaim k (.freeStage c)) = true) :
    exec (.reclaimFreeStageStep p) s = .next ((s.reclaimFreeStage p k c).evalPool s.available) := by
  simp only [exec, execReclaimFreeStageStep, (due_iff.1 hd).2.2, stepWhen_due hd]

theorem exec_reclaimRetire {p : Pulses} {k : DataSeg} {d : Byte} {b : Bool} (hd : s.due (.reclaim k (.retire d b)) = true) :
    exec (.reclaimRetireStep p) s = .next ((s.reclaimRetire p k d b).evalPool s.available) := by
  simp only [exec, execReclaimRetireStep, (due_iff.1 hd).2.2, stepWhen_due hd]

/-- The state in which the step of a pulse decides what follows. -/
def State.pulsed (r : Residue) (k : DataSeg) (s : State) : State :=
  State.takeForErase k { s with array := erasePulse s.array k.index r }

theorem State.pulsed_same (s : State) (r : Residue) (k : DataSeg) :
    ((s.pulsed r k).segments[k]'k.isLt) = { (s.segments[k]'k.isLt) with location := .erasing } :=
  State.updSegment_same { s with
    array := erasePulse s.array k.index r, reclaim := s.reclaim.filter (· != k) } k fun g => { g with location := .erasing }

theorem State.pulsed_eraseCount (s : State) (r : Residue) (k j : DataSeg) :
    ((s.pulsed r k).segments[j]'j.isLt).eraseCount = (s.segments[j]'j.isLt).eraseCount := by
  by_cases h : j = k
  · subst h
    rw [State.pulsed_same]
  · exact congrArg Segment.eraseCount (State.updSegment_other { s with
      array := erasePulse s.array k.index r, reclaim := s.reclaim.filter (· != k) } k j (fun g => { g with location := .erasing })
      (Ne.symm h))

/-- What a pulse leads to (R110, R123, R125). -/
theorem afterPulse_cases (s : State) (k : DataSeg) (n : Nat) :
    (segmentErased s.array k.index = true → s.afterPulse k n = .freeStage (s.nextCount k))
      ∧ (segmentErased s.array k.index = false → 11 ≤ n → s.afterPulse k n = .retire 0x02 false)
      ∧ (segmentErased s.array k.index = false → n < 11 → s.afterPulse k n = .pulse (n + 1)) := by
  have he : Config.erasePulses = 12 := rfl
  unfold State.afterPulse
  refine ⟨fun h => if_pos h, fun h hn => ?_, fun h hn => ?_⟩
  · rw [if_neg (by simp [h]), if_pos (by omega)]
    rfl
  · rw [if_neg (by simp [h]), if_neg (by omega)]

/-- One erase pulse of a RECLAIM job (R123, R125, R126). -/
theorem reclaimPulse_result {k : DataSeg} (r : Residue) (n : Nat) (hd : s.due (.reclaim k (.pulse n)) = true) :
    ∃ t, exec (.reclaimErasePulse r) s = .next t ∧ t.array = erasePulse s.array k.index r
        ∧ (t.segments[k]'k.isLt) = { (s.segments[k]'k.isLt) with location := .erasing } ∧ t.reclaim = s.reclaim.filter (· != k)
        ∧ t.pool = s.pool ∧ t.engine.resumeLock = false ∧ s.PoolEvaluated t
        ∧ (segmentErased t.array k.index = true → ∃ c, s.CountRaised k c
            ∧ t.engine = { s.engine with job := some (.reclaim k (.freeStage c)), resumeLock := false })
        ∧ (segmentErased t.array k.index = false → 11 ≤ n →
            t.engine = { s.engine with job := some (.reclaim k (.retire 0x02 false)), resumeLock := false })
        ∧ (segmentErased t.array k.index = false → n < 11 →
            (s.engine.state = .suspendPending → t.engine = { s.engine with
                state := .suspended, job := some (.reclaim k (.pulse (n + 1))), resumeLock := false })
            ∧ (s.engine.state = .running → s.engine.preempted = none → t.Selected (some (k, n + 1)))) := by
  have hstep : s.reclaimPulse r k n = ((s.pulsed r k).setJob (.reclaim k ((s.pulsed r k).afterPulse k n))).endStep
    ((s.pulsed r k).afterPulse k n).stepEnd := rfl
  have hf : Faults (s.pulsed r k) (s.reclaimPulse r k n) := hstep ▸ faults_setEnd _ _ _
  have hcount := (countRaised_nextCount (s.pulsed r k) k).congr (s.pulsed_eraseCount r k)
  have hkept : Kept (s.pulsed r k) ((s.reclaimPulse r k n).evalPool s.available) :=
    (hstep ▸ (kept_setJob _ _).trans (kept_endStep _ _)).trans (kept_evalPool _ _)
  have harray : ((s.reclaimPulse r k n).evalPool s.available).array = (s.pulsed r k).array := hkept.array
  obtain ⟨hpass, hlast, hnext⟩ := afterPulse_cases (s.pulsed r k) k n
  refine ⟨_, exec_reclaimPulse hd, harray, ?_, ?_, ?_, ?_, poolEvaluated_of_kept (r := false) (l := false) (jobKept_reclaimPulse s r k n),
    ?_⟩
  · rw [State.evalPool_segments, hf.leaves.segments, State.pulsed_same]
  · rw [State.evalPool_reclaim, hf.leaves.reclaim]
    rfl
  · rw [State.evalPool_pool, hf.leaves.pool]
    rfl
  · rw [State.evalPool_engine, hstep]
    exact endStep_resumeLock _ _
  · rw [harray, State.evalPool_engine, hstep]
    refine ⟨fun h => ⟨_, hcount, ?_⟩, fun h hn => ?_, fun h hn => ?_⟩
    · rw [hpass h]
      rfl
    · rw [hlast h hn]
      rfl
    · rw [hnext h hn]
      exact ⟨fun hs => boundary_reclaim_suspended hs,
        fun hs hp => selected_evalPool (boundary_reclaim_selected
          (s := (s.pulsed r k).setJob (.reclaim k (.pulse (n + 1)))) rfl hs hp) _⟩

/-- The state in which a free stage decides what follows. -/
def State.counted (m : Memory) (ok : Bool) (k : DataSeg) (c : Nat) (s : State) : State := State.enterCount k c ok { s with array := m }

theorem State.counted_same (s : State) (m : Memory) (ok : Bool) (k : DataSeg) (c : Nat) : ((s.counted m ok k c).segments[k]'k.isLt)
    = { (s.segments[k]'k.isLt) with eraseCount := some c, header := if ok then .free else (s.segments[k]'k.isLt).header } :=
  State.updSegment_same { s with array := m } k fun g => { g with eraseCount := some c, header := if ok then .free else g.header }

theorem State.toPool_same (s : State) (k : DataSeg) :
    ((s.toPool k).segments[k]'k.isLt) = { (s.segments[k]'k.isLt).erased with location := .pool, header := .free } :=
  State.updSegment_same s k fun g => { g.erased with location := .pool, header := .free }

theorem State.retire_same (s : State) (k : DataSeg) :
    ((s.retire k).segments[k]'k.isLt) = { (s.segments[k]'k.isLt) with location := .retired, release := none } :=
  State.updSegment_same s k fun g => { g with location := .retired, release := none }

theorem reclaimFreeStage_spec {p : Pulses} {k : DataSeg} {c : Nat} {m : Memory} {ok : Bool}
    (hp : program s.array (freeStageItem k (some c)) p = (m, ok)) :
    s.reclaimFreeStage p k c = if returnsToPool c ok then ((s.counted m ok k c).toPool k).endStep .completed
      else ((s.counted m ok k c).setJob (.reclaim k (.retire (retireCause ok) true))).endStep .inside := by
  obtain ⟨hprog, hok⟩ := programmed_eq (s := s) (w := ErasePhase.work k (.freeStage c)) rfl hp
  unfold State.reclaimFreeStage
  dsimp only
  rw [hprog, hok]
  rfl

theorem returnsToPool_iff {c : Nat} {ok : Bool} : returnsToPool c ok = true ↔ ok = true ∧ c < 120000 := by
  rw [returnsToPool, Bool.and_eq_true, decide_eq_true_eq]
  rfl

/-- The free stage of a RECLAIM job (R123, R124). -/
theorem reclaimFreeStage_result {k : DataSeg} (p : Pulses) (c : Nat) (m : Memory) (ok : Bool)
    (hd : s.due (.reclaim k (.freeStage c)) = true) (hp : program s.array (freeStageItem k (some c)) p = (m, ok)) :
    ∃ t, exec (.reclaimFreeStageStep p) s = .next t ∧ t.array = m ∧ (t.segments[k]'k.isLt).eraseCount = some c
        ∧ t.reclaim = s.reclaim ∧ t.engine.resumeLock = false ∧ s.PoolEvaluated t
        ∧ (ok = true → c < 120000 → (t.segments[k]'k.isLt).location = .pool ∧ (t.segments[k]'k.isLt).header = .free
            ∧ (t.segments[k]'k.isLt).poisoned = false ∧ (t.segments[k]'k.isLt).owner = none ∧ (t.segments[k]'k.isLt).bytesUsed = 0
            ∧ t.pool = s.pool ++ [k] ∧ t.Selected s.engine.preempted)
        ∧ (ok = true → 120000 ≤ c → t.pool = s.pool
            ∧ t.engine = { s.engine with job := some (.reclaim k (.retire 0x01 true)), resumeLock := false })
        ∧ (ok = false → t.pool = s.pool
            ∧ t.engine = { s.engine with job := some (.reclaim k (.retire 0x02 true)), resumeLock := false }) := by
  have hspec := reclaimFreeStage_spec (s := s) hp
  have hpool := poolEvaluated_of_kept (r := false) (l := false) (jobKept_reclaimFreeStage s p k c)
  have hcounted := s.counted_same m ok k c
  have hf : Faults ((s.counted m ok k c).toPool k) (((s.counted m ok k c).toPool k).endStep .completed) := faults_endStep _ _
  refine ⟨_, exec_reclaimFreeStage hd, ?_⟩
  by_cases hr : returnsToPool c ok = true
  · obtain ⟨ho, hc⟩ := returnsToPool_iff.1 hr
    rw [if_pos hr] at hspec
    rw [hspec] at hpool ⊢
    have hkept : Kept (s.counted m ok k c) ((((s.counted m ok k c).toPool k).endStep .completed).evalPool s.available) :=
      ((kept_toPool _ k).trans (kept_endStep _ _)).trans (kept_evalPool _ _)
    have hseg : (((((s.counted m ok k c).toPool k).endStep .completed).evalPool s.available).segments[k]'k.isLt)
        = { ((s.counted m ok k c).segments[k]'k.isLt).erased with location := .pool, header := .free } := by
      rw [State.evalPool_segments, hf.leaves.segments, State.toPool_same]
    rw [hcounted] at hseg
    refine ⟨hkept.array, by rw [hseg]; rfl, ?_, ?_, hpool, fun _ _ => ?_, fun _ h => absurd hc (by omega), fun h => by simp [ho] at h⟩
    · rw [State.evalPool_reclaim, hf.leaves.reclaim]
      rfl
    · rw [State.evalPool_engine]
      exact endStep_resumeLock _ _
    · rw [hseg]
      refine ⟨rfl, rfl, rfl, rfl, rfl, ?_, selected_evalPool (endStep_selected _) _⟩
      rw [State.evalPool_pool, hf.leaves.pool]
      rfl
  · rw [if_neg hr] at hspec
    rw [hspec] at hpool ⊢
    have hkept : Kept (s.counted m ok k c)
        ((((s.counted m ok k c).setJob (.reclaim k (.retire (retireCause ok) true))).endStep .inside).evalPool s.available) :=
      ((kept_setJob _ _).trans (kept_endStep _ _)).trans (kept_evalPool _ _)
    refine ⟨hkept.array, ?_, ?_, ?_, hpool, fun h hc => absurd (returnsToPool_iff.2 ⟨h, hc⟩) hr, fun h _ => ?_, fun h => ?_⟩
    · rw [State.evalPool_segments, endStep_inside]
      exact congrArg Segment.eraseCount hcounted
    · rw [State.evalPool_reclaim, endStep_inside]
      rfl
    · rw [State.evalPool_engine, endStep_inside]
    · rw [State.evalPool_pool, State.evalPool_engine, endStep_inside, h]
      exact ⟨rfl, rfl⟩
    · rw [State.evalPool_pool, State.evalPool_engine, endStep_inside, h]
      exact ⟨rfl, rfl⟩

theorem reclaimRetire_spec {p : Pulses} {k : DataSeg} {d : Byte} {b : Bool} {m : Memory} {ok : Bool}
    (hp : program s.array (retireItem k d) p = (m, ok)) :
    s.reclaimRetire p k d b = (State.endRetire k b ok { s with array := m }).endStep .completed := by
  obtain ⟨hprog, hok⟩ := programmed_eq (s := s) (w := ErasePhase.work k (.retire d b)) rfl hp
  unfold State.reclaimRetire
  dsimp only
  rw [hprog, hok]

/-- A segment once its retire write is done (R124, R125). -/
theorem endRetire_same (s : State) (k : DataSeg) (b ok : Bool) : ((s.endRetire k b ok).segments[k]'k.isLt)
    = { (if b then (s.segments[k]'k.isLt).erased else (s.segments[k]'k.isLt)) with
        header := if ok then .retired else (s.segments[k]'k.isLt).header, location := .retired, release := none } := by
  rw [State.endRetire, State.retire_same, State.updSegment_same]

/-- The retire write of a RECLAIM job (R124, R125). -/
theorem reclaimRetire_result {k : DataSeg} (p : Pulses) (d : Byte) (b : Bool) (m : Memory) (ok : Bool)
    (hd : s.due (.reclaim k (.retire d b)) = true) (hp : program s.array (retireItem k d) p = (m, ok)) :
    ∃ t, exec (.reclaimRetireStep p) s = .next t ∧ t.array = m ∧ (t.segments[k]'k.isLt).location = .retired
        ∧ (t.segments[k]'k.isLt).header = (if ok then .retired else (s.segments[k]'k.isLt).header) ∧ t.reclaim = s.reclaim
        ∧ (t.segments[k]'k.isLt).eraseCount = (s.segments[k]'k.isLt).eraseCount ∧ t.eventLatch.getLsbD 8 = true ∧ t.pool = s.pool
        ∧ t.engine.resumeLock = false ∧ s.PoolEvaluated t ∧ t.Selected s.engine.preempted := by
  have hpool := poolEvaluated_of_kept (r := false) (l := false) (jobKept_reclaimRetire s p k d b)
  have hseg := endRetire_same { s with array := m } k b ok
  have hbit : (State.endRetire k b ok { s with array := m }).eventLatch.getLsbD 8 = true := by
    rw [State.endRetire, State.retire, State.raise_getLsbD]
    simp [Event.bit]
  have hkept : Kept { s with array := m } ((s.reclaimRetire p k d b).evalPool s.available) := by
    rw [reclaimRetire_spec hp]
    exact ((kept_endRetire { s with array := m } k b ok).trans (kept_endStep _ _)).trans (kept_evalPool _ _)
  have hreclaim : (State.endRetire k b ok { s with array := m }).reclaim = s.reclaim := rfl
  have hp' : (State.endRetire k b ok { s with array := m }).pool = s.pool := rfl
  have heng : (State.endRetire k b ok { s with array := m }).engine = s.engine := rfl
  refine ⟨_, exec_reclaimRetire hd, hkept.array, ?_⟩
  rw [reclaimRetire_spec hp] at hpool ⊢
  generalize State.endRetire k b ok { s with array := m } = v at *
  have hf := faults_endStep v .completed
  rw [State.evalPool_segments, State.evalPool_reclaim, State.evalPool_pool, State.evalPool_engine, State.evalPool_getLsbD,
    hf.leaves.segments, hf.leaves.reclaim, hf.leaves.pool, hf.latched hbit (by decide), hseg]
  refine ⟨rfl, rfl, hreclaim, ?_, rfl, hp', endStep_resumeLock _ _, hpool, ?_⟩
  · cases b <;> rfl
  · rw [← heng]
    exact selected_evalPool (endStep_selected v) _

/-- Settles O54: the pulse, the free stage and the retire write of a RECLAIM job. -/
theorem reclaimStepsResult : Obligations.ReclaimStepsResult := fun _ _ =>
  ⟨fun r n hd => reclaimPulse_result r n hd, fun p c m ok hd hp => reclaimFreeStage_result p c m ok hd hp,
    fun p d b m ok hd hp => reclaimRetire_result p d b m ok hd hp⟩

end Sys2Proof.Machine
end

section
/-! What a completed ledger entry hands on (R66, R67, R101, R140), and the steps of the LEDGER job (R137 to R144). Settles O55, O56, O57. -/

namespace Sys2Proof.Machine

-- One proof after the other: the stacks of proofs elaborated side by side come near the memory that a check may take.
set_option Elab.async false

open Sys2Proof

variable {s t u : State}

/-! ### Segments that leave the release list (R101) -/

theorem State.Disposed.of_eq {f : Segment → Bool} (h : s.Disposed t f) (hg : u.segments = t.segments) (hr : u.reclaim = t.reclaim)
    (he : u.eventLatch.getLsbD 8 = t.eventLatch.getLsbD 8) : s.Disposed u f := by
  obtain ⟨h1, h2, h3, h4, h5⟩ := h
  rw [← hr] at h1
  rw [← hg] at h2 h3 h4
  rw [← he] at h5
  exact ⟨h1, h2, h3, h4, h5⟩

theorem State.Disposed.from_eq {f : Segment → Bool} (h : u.Disposed t f) (hg : u.segments = s.segments) (hr : u.reclaim = s.reclaim)
    (he : u.eventLatch.getLsbD 8 = s.eventLatch.getLsbD 8) : s.Disposed t f := by
  obtain ⟨h1, h2, h3, h4, h5⟩ := h
  rw [hg] at h1 h2 h3 h4 h5
  rw [hr] at h1
  rw [he] at h5
  exact ⟨h1, h2, h3, h4, h5⟩

/-- An entry frees a segment of the release list (R101, R140). -/
def Segment.freedBy (b : Bool) (r : Recorded) (g : Segment) : Bool := g.location == .release && g.releasedBy b r

theorem mem_satisfiedBy_iff {b : Bool} {r : Recorded} {k : DataSeg} :
    k ∈ s.satisfiedBy b r ↔ (s.segments[k]'k.isLt).freedBy b r = true := by
  rw [mem_satisfiedBy, Segment.freedBy, Bool.and_eq_true, beq_iff_eq]

theorem satisfiedBy_eq (s : State) (b : Bool) (r : Recorded) :
    s.satisfiedBy b r = (List.finRange 510).filter fun k => (s.segments[k]'k.isLt).freedBy b r := by
  rw [State.satisfiedBy, State.segmentsAt, List.filter_filter]
  exact List.filter_congr fun k _ => Bool.and_comm _ _

/-- The segments that an entry frees leave the release list together (R101). -/
theorem disposed_disposeAll (s : State) (b : Bool) (r : Recorded) :
    s.Disposed (s.disposeAll (s.satisfiedBy b r)) (Segment.freedBy b r) := by
  have hn := satisfiedBy_nodup s b r
  constructor
  · rw [State.disposeAll_reclaim _ _ hn, satisfiedBy_eq, List.filter_filter]
    exact congrArg _ (List.filter_congr fun k _ => Bool.and_comm _ _)
  · intro k hk hh
    rw [State.disposeAll_segments _ _ hn, if_pos (mem_satisfiedBy_iff.2 hk), Segment.disposed, if_neg hh]
  · intro k hk hh
    rw [State.disposeAll_segments _ _ hn, if_pos (mem_satisfiedBy_iff.2 hk), Segment.disposed, if_pos hh]
  · intro k hk
    rw [State.disposeAll_segments _ _ hn, if_neg (by rw [mem_satisfiedBy_iff, hk]; decide)]
  · rw [State.disposeAll_getLsbD _ _ hn, satisfiedBy_eq, List.any_filter, beq_self_eq_true, Bool.true_and]

/-- What a note frees (R101). -/
theorem freedBy_note (i : StreamId) (e f : Nat) :
    Segment.freedBy false (noteRecorded i e f) = fun g => g.waitsForFrontier i e f := by
  funext g
  unfold Segment.freedBy Segment.waitsForFrontier Segment.releasedBy
  rw [Bool.and_assoc, Bool.and_assoc]
  refine congrArg _ ?_
  cases hr : g.release with
  | none => simp
  | some c =>
    cases ho : g.owner with
    | none => cases c <;> simp
    | some o =>
      cases c with
      | image x => simp
      | frontier q =>
        by_cases hi : o = i
        · simp [noteRecorded, hi, Bool.beq_comm (a := e)]
        · simp [noteRecorded, hi]

/-- An image frees a segment whose owner's entry in it satisfies the condition (R101, R140). -/
theorem frees_iff (c : ImageContent) (g : Segment) : c.frees g = true ↔ ∃ i : StreamId,
    g.waitsForFrontier i (c.streams[i]'i.isLt).epoch (c.streams[i]'i.isLt).frontier = true
        ∨ g.waitsForEpoch i (c.streams[i]'i.isLt).epoch = true := by
  rw [ImageContent.frees, List.any_eq_true]
  exact exists_congr fun i => by rw [Bool.or_eq_true, and_iff_right (List.mem_finRange i)]

theorem waitsForFrontier_iff {g : Segment} {i : StreamId} {e f : Nat} : g.waitsForFrontier i e f = true ↔
    g.location = .release ∧ g.owner = some i ∧ g.epoch = e ∧ ∃ q, g.release = some (.frontier q) ∧ q ≤ f := by
  unfold Segment.waitsForFrontier
  rw [Bool.and_eq_true, Bool.and_eq_true, Bool.and_eq_true, beq_iff_eq, beq_iff_eq, beq_iff_eq, and_assoc, and_assoc]
  cases g.release with
  | none => simp
  | some c => cases c <;> simp

theorem waitsForEpoch_iff {g : Segment} {i : StreamId} {e : Nat} : g.waitsForEpoch i e = true ↔
    g.location = .release ∧ g.owner = some i ∧ g.release = some (.image e) := by
  unfold Segment.waitsForEpoch
  rw [Bool.and_eq_true, Bool.and_eq_true, beq_iff_eq, beq_iff_eq, beq_iff_eq, and_assoc]

theorem releasedBy_image_iff {g : Segment} {c : ImageContent} : g.releasedBy true c.recorded = true ↔ ∃ i : StreamId, g.owner = some i
    ∧ ((g.epoch = (c.streams[i]'i.isLt).epoch ∧ ∃ q, g.release = some (.frontier q) ∧ q ≤ (c.streams[i]'i.isLt).frontier)
      ∨ g.release = some (.image (c.streams[i]'i.isLt).epoch)) := by
  unfold Segment.releasedBy
  cases g.release with
  | none => simp
  | some x =>
    cases g.owner with
    | none => cases x <;> simp
    | some o =>
      cases x with
      | frontier q =>
        show ((c.streams[o]'o.isLt).epoch == g.epoch && decide (q ≤ (c.streams[o]'o.isLt).frontier)) = true ↔ _
        rw [Bool.and_eq_true, beq_iff_eq, decide_eq_true_eq]
        constructor
        · intro ⟨he, hq⟩
          exact ⟨o, rfl, .inl ⟨he.symm, q, rfl, hq⟩⟩
        · rintro ⟨i, hi, ⟨he, y, hy, hq⟩ | hy⟩
          · cases hi
            cases hy
            exact ⟨he.symm, hq⟩
          · cases hy
      | image q =>
        show (true && (c.streams[o]'o.isLt).epoch == q) = true ↔ _
        rw [Bool.true_and, beq_iff_eq]
        constructor
        · intro he
          exact ⟨o, rfl, .inr (by rw [he])⟩
        · rintro ⟨i, hi, ⟨-, y, hy, -⟩ | hy⟩
          · cases hy
          · cases hi
            cases hy
            rfl

/-- What an image frees (R101, R140). -/
theorem freedBy_image (c : ImageContent) : Segment.freedBy true c.recorded = c.frees := by
  funext g
  rw [Bool.eq_iff_iff, frees_iff, Segment.freedBy, Bool.and_eq_true, beq_iff_eq, releasedBy_image_iff, ← exists_and_left]
  refine exists_congr fun i => ?_
  rw [waitsForFrontier_iff, waitsForEpoch_iff, ← and_or_left, ← and_or_left]

/-! ### What a completed entry hands on (R140) -/

/-- The records of the streams once an entry has raised the durable frontiers (R140, 1). -/
def State.recordedIn (r : Recorded) (s : State) : State := { s with streams := tabulate fun i => (s.streams[i]'i.isLt).handedOn (r i) }

theorem State.recordedIn_streams (s : State) (r : Recorded) (i : StreamId) :
    ((s.recordedIn r).streams[i]'i.isLt) = (s.streams[i]'i.isLt).handedOn (r i) := tabulate_get _ i

/-- The durable frontiers and the release list after an entry (R140, 1 and 2). -/
def State.disposedBy (b : Bool) (r : Recorded) (s : State) : State := (s.recordedIn r).disposeAll ((s.recordedIn r).satisfiedBy b r)

theorem State.handOn_eq (s : State) (b : Bool) (r : Recorded) :
    s.handOn b r = ((s.disposedBy b r).satisfy ((s.disposedBy b r).syncedBy b r)).evalSync := rfl

theorem syncedBy_congr (b : Bool) (r : Recorded)
    (h : ∀ i : StreamId, (t.streams[i]'i.isLt).epoch = (s.streams[i]'i.isLt).epoch
        ∧ (t.streams[i]'i.isLt).durableFrontier = (s.streams[i]'i.isLt).durableFrontier) :
    t.syncedBy b r = s.syncedBy b r := by
  funext x
  cases x with
  | frontier i e q =>
    obtain ⟨he, hd⟩ := h i
    show (e == (t.streams[i]'i.isLt).epoch && decide (q ≤ (t.streams[i]'i.isLt).durableFrontier)) = _
    rw [he, hd]
    rfl
  | staged i e q => rfl
  | epochImage i e => rfl
  | nextImage => rfl
  | currentImage => rfl

theorem satisfy_sync (s : State) (f : SyncItem → Bool) :
    (s.satisfy f).sync = s.sync.map fun items => items.filter fun x => !f x := rfl

section HandOn

variable (s) (b : Bool) (r : Recorded)

theorem State.disposedBy_streams : (s.disposedBy b r).streams = (s.recordedIn r).streams := State.disposeAll_streams _ _

theorem State.disposedBy_sync : (s.disposedBy b r).sync = s.sync := State.disposeAll_sync _ _

theorem State.handOn_streams (i : StreamId) : (s.handOn b r).streams[i] = s.streams[i].handedOn (r i) := by
  rw [State.handOn_eq, State.evalSync_streams, State.satisfy_streams, State.disposedBy_streams, State.recordedIn_streams]

@[simp] theorem State.handOn_ledger : (s.handOn b r).ledger = s.ledger := by
  rw [State.handOn_eq, State.evalSync_ledger, State.satisfy_ledger]
  exact State.disposeAll_ledger _ _

@[simp] theorem State.handOn_pool : (s.handOn b r).pool = s.pool := by
  rw [State.handOn_eq, State.evalSync_pool, State.satisfy_pool]
  exact State.disposeAll_pool _ _

@[simp] theorem State.handOn_staging : (s.handOn b r).staging = s.staging := by
  rw [State.handOn_eq, State.evalSync_staging, State.satisfy_staging]
  exact State.disposeAll_staging _ _

theorem Stream.handedOn_reserved (x : Stream) (e : Option (Nat × Nat)) : (x.handedOn e).reserved = x.reserved := by
  unfold Stream.handedOn
  split
  · split <;> rfl
  · rfl

theorem Stream.handedOn_epoch (x : Stream) (e : Option (Nat × Nat)) : (x.handedOn e).epoch = x.epoch := by
  unfold Stream.handedOn
  split
  · split <;> rfl
  · rfl

theorem Stream.handedOn_volatileFrontier (x : Stream) (e : Option (Nat × Nat)) :
    (x.handedOn e).volatileFrontier = x.volatileFrontier := by
  unfold Stream.handedOn
  split
  · split <;> rfl
  · rfl

theorem State.handOn_available : (s.handOn b r).available = s.available := by
  refine available_congr (s.handOn_pool b r) fun i => ?_
  rw [State.handOn_streams, Stream.handedOn_reserved]

/-- The segments whose condition an entry satisfies leave the release list (R101, R140). -/
theorem handOn_disposed : s.Disposed (s.handOn b r) (Segment.freedBy b r) := by
  have h : s.Disposed (s.disposedBy b r) (Segment.freedBy b r) := (disposed_disposeAll (s.recordedIn r) b r).from_eq rfl rfl rfl
  rw [State.handOn_eq]
  refine h.of_eq ?_ ?_ ?_
  · rw [State.evalSync_segments, State.satisfy_segments]
  · rw [State.evalSync_reclaim, State.satisfy_reclaim]
  · rw [State.evalSync_getLsbD _ (by decide), State.satisfy_eventLatch]

/-- The sync point after an entry (R66, R67, R140). -/
theorem handOn_syncLeft : s.SyncLeft (s.handOn b r) (fun items => items.filter fun x => !(s.handOn b r).syncedBy b r x) := by
  have hsynced : (s.handOn b r).syncedBy b r = (s.disposedBy b r).syncedBy b r := by
    refine syncedBy_congr b r fun i => ?_
    rw [State.handOn_streams, State.disposedBy_streams, State.recordedIn_streams]
    exact ⟨rfl, rfl⟩
  rw [hsynced, State.handOn_eq]
  refine syncLeft_evalSync ?_ ?_
  · rw [satisfy_sync, State.disposedBy_sync]
  · rw [State.satisfy_eventLatch, State.disposedBy, State.disposeAll_getLsbD _ _ (satisfiedBy_nodup _ b r),
      show ((0 : Nat) == 8) = false from rfl, Bool.false_and, Bool.or_false,
      show (s.recordedIn r).eventLatch = s.eventLatch from rfl]

end HandOn

/-! ### The job chooses again (R137) -/

theorem chooseAgain_some {w : LedgerWork} (h : s.ledger.choose = some w) : s.chooseAgain = (s.setJob (.ledger w)).endStep .inside := by
  unfold State.chooseAgain
  simp only [h]

theorem chooseAgain_none (h : s.ledger.choose = none) : s.chooseAgain = s.endStep .completed := by
  unfold State.chooseAgain
  simp only [h]

theorem chooseAgain_of_proceeds (h : s.Proceeds s.staging) : s.chooseAgain = { s with engine := s.chooseAgain.engine } := by
  cases hc : s.ledger.choose with
  | some w =>
    rw [chooseAgain_some hc]
    rfl
  | none =>
    rw [chooseAgain_none hc]
    exact endStep_eq_of_proceeds h _

theorem chooseAgain_resumeLock (s : State) : s.chooseAgain.engine.resumeLock = false := by
  cases hc : s.ledger.choose with
  | some w =>
    rw [chooseAgain_some hc]
    rfl
  | none =>
    rw [chooseAgain_none hc]
    exact endStep_resumeLock _ _

/-- A step of the LEDGER job has completed an entry: what it hands on, and how the job goes on (R137, R140). -/
structure State.EntryCompleted (s t : State) (b : Bool) (r : Recorded) : Prop where
  pool : t.pool = s.pool
  streams : ∀ i : StreamId, (s.streams[i].handedOn (r i)).FaultKept t.streams[i]
  disposed : s.Disposed t (Segment.freedBy b r)
  syncLeft : s.Proceeds s.staging → s.SyncLeft t (fun items => items.filter fun x => !t.syncedBy b r x)
  resumeLock : t.engine.resumeLock = false
  goesOn : ∀ w, t.ledger.choose = some w → t.engine = { s.engine with job := some (.ledger w), resumeLock := false }
  ends : t.ledger.choose = none → t.Selected s.engine.preempted

/-- The state in which a step completes an entry: but for the array, the ledger and what is kept, as the step found it. -/
structure State.EntryWritten (s v : State) : Prop where
  streams : v.streams = s.streams
  segments : v.segments = s.segments
  reclaim : v.reclaim = s.reclaim
  sync : v.sync = s.sync
  latch : v.eventLatch = s.eventLatch
  engine : v.engine = s.engine
  staging : v.staging = s.staging
  pool : v.pool = s.pool

theorem entryCompleted {v : State} (h : s.EntryWritten v) (b : Bool) (r : Recorded) (n : Int) :
    s.EntryCompleted ((v.handOn b r).chooseAgain.evalPool n) b r := by
  have hstreams : ∀ i : StreamId, (v.handOn b r).streams[i] = s.streams[i].handedOn (r i) := fun i => by
    rw [State.handOn_streams, h.streams]
  have hdisposed := (handOn_disposed v b r).from_eq (s := s) h.segments h.reclaim (by rw [h.latch])
  have hsync := (handOn_syncLeft v b r).from_eq (s := s) h.sync (by rw [h.latch])
  have hpool := (v.handOn_pool b r).trans h.pool
  have hengine : (v.handOn b r).engine = s.engine := (State.handOn_engine v b r).trans h.engine
  have hproceeds : s.Proceeds s.staging → (v.handOn b r).Proceeds (v.handOn b r).staging := by
    intro hp
    have hav : v.available = s.available := available_congr h.pool fun i => by rw [h.streams]
    rw [State.handOn_staging, h.staging]
    intro e he
    rw [hpool, State.handOn_available, hav]
    exact hp e he
  generalize v.handOn b r = w at *
  have hf := faults_chooseAgain w
  constructor
  · rw [State.evalPool_pool, hf.leaves.pool, hpool]
  · intro i
    rw [State.evalPool_streams, ← hstreams]
    exact hf.kept i
  · refine hdisposed.of_eq ?_ ?_ ?_
    · rw [State.evalPool_segments, hf.leaves.segments]
    · rw [State.evalPool_reclaim, hf.leaves.reclaim]
    · rw [State.evalPool_getLsbD, hf.latch (by decide) (by decide) (by decide) (by decide)]
      simp
  · intro hp
    have halone := chooseAgain_of_proceeds (hproceeds hp)
    have hsynced : (w.chooseAgain.evalPool n).syncedBy b r = w.syncedBy b r := by
      refine syncedBy_congr b r fun i => ?_
      rw [State.evalPool_streams, halone]
      exact ⟨rfl, rfl⟩
    rw [hsynced]
    refine hsync.of_eq ?_ ?_
    · rw [State.evalPool_sync, halone]
    · rw [State.evalPool_getLsbD, halone]
      simp
  · rw [State.evalPool_engine]
    exact chooseAgain_resumeLock w
  · intro x hx
    rw [State.evalPool_ledger, hf.leaves.ledger] at hx
    rw [State.evalPool_engine, chooseAgain_some hx, ← hengine]
    rfl
  · intro hx
    rw [State.evalPool_ledger, hf.leaves.ledger] at hx
    rw [chooseAgain_none hx, ← hengine]
    exact selected_evalPool (endStep_selected w) n

theorem entryCompleted_ledger (v : State) (b : Bool) (r : Recorded) (n : Int) :
    ((v.handOn b r).chooseAgain.evalPool n).ledger = v.ledger := by
  rw [State.evalPool_ledger, (faults_chooseAgain _).leaves.ledger, State.handOn_ledger]

/-! ### The note step (R139, R141) -/

theorem Ledger.currentSeg_of {l : Ledger} {a : AnchorSeg} (h : l.current = some a) : l.currentSeg = a := by
  rw [Ledger.currentSeg, h]
  rfl

theorem Ledger.target_of {l : Ledger} {a : AnchorSeg} (h : l.current = some a) : l.target = if a = 0 then 1 else 0 := by
  rw [Ledger.target, h]
  fin_cases a <;> rfl

/-- Whether an entry fits the current segment decides between it and a compaction (R137, R142). -/
theorem Ledger.orCompact_of {l : Ledger} {a : AnchorSeg} (h : l.current = some a) (n : Nat) (w : LedgerWork) :
    l.orCompact n w = if l.nextFree + n ≤ 128 then w else .compactErase (if a = 0 then 1 else 0) 1 0 := by
  rw [Ledger.orCompact, Ledger.fits, h, Ledger.target_of h]
  simp only [Option.isSome_some, Bool.true_and, decide_eq_true_eq]
  rfl

theorem exec_note {p : Pulses} {i : StreamId} (hd : s.due (.ledger (.note i)) = true) :
    exec (.ledgerNoteStep p) s = .next ((s.noteUnitStep p i).evalPool s.available) := by
  simp only [exec, execLedgerNoteStep, (due_iff.1 hd).2.2, stepWhen_due hd]

/-- The state in which a note's unit has been programmed. -/
def State.noteWritten (m : Memory) (i : StreamId) (s : State) : State :=
  State.updLedger { s.setNote i false with array := m } fun l => { l with nextFree := l.nextFree + 1 }

theorem noteWritten_ledger (s : State) (m : Memory) (i : StreamId) : (s.noteWritten m i).ledger
    = { s.ledger with pendingNotes := s.ledger.pendingNotes.set i.val false, nextFree := s.ledger.nextFree + 1 } := rfl

theorem entryWritten_note (s : State) (m : Memory) (i : StreamId) : s.EntryWritten (s.noteWritten m i) :=
  ⟨rfl, rfl, rfl, rfl, rfl, rfl, rfl, rfl⟩

theorem noteUnitStep_spec {p : Pulses} {i : StreamId} {a : AnchorSeg} {m : Memory} {ok : Bool} (ha : s.ledger.current = some a)
    (hp : program s.array (unitItem a s.ledger.nextFree
      (noteUnit i (s.streams[i]'i.isLt).epoch (s.streams[i]'i.isLt).volatileFrontier s.ledger.generation)) p = (m, ok)) :
    s.noteUnitStep p i = if ok = true then
        ((s.noteWritten m i).handOn false (noteRecorded i (s.streams[i]'i.isLt).epoch (s.streams[i]'i.isLt).volatileFrontier)).chooseAgain
      else (((s.noteWritten m i).setNote i true).setJob
        (.ledger (((s.noteWritten m i).setNote i true).ledger.orCompact 1 (.note i)))).endStep .inside := by
  have hw : s.ledgerWork (.note i) = .program (unitItem a s.ledger.nextFree
      (noteUnit i (s.streams[i]'i.isLt).epoch (s.streams[i]'i.isLt).volatileFrontier s.ledger.generation)) := by
    rw [State.ledgerWork, Ledger.currentSeg_of ha]
  obtain ⟨hprog, -⟩ := programmed_eq (s := s.setNote i false) hw hp
  obtain ⟨-, hok⟩ := programmed_eq (s := s) hw hp
  unfold State.noteUnitStep
  dsimp only
  rw [hprog, hok]
  rfl

theorem handedOn_note_same (t : Stream) (i : StreamId) (f : Nat) : (t.handedOn (noteRecorded i t.epoch f i)).durableFrontier
    = max t.durableFrontier f := by
  simp [Stream.handedOn, noteRecorded]

theorem handedOn_note_other (t : Stream) {i j : StreamId} (h : j ≠ i) (e f : Nat) : t.handedOn (noteRecorded i e f j) = t := by
  simp [Stream.handedOn, noteRecorded, h]

/-- A note satisfies the frontier items that the durable frontiers have reached (R66). -/
theorem syncedBy_note (t : State) (r : Recorded) : t.syncedBy false r = t.reachedItem := by
  funext x
  cases x <;> rfl

/-- A note whose unit verifies (R139, R140). -/
theorem noteCompleted {m : Memory} {i : StreamId}
    (h : s.EntryCompleted t false (noteRecorded i (s.streams[i]'i.isLt).epoch (s.streams[i]'i.isLt).volatileFrontier))
    (hl : t.ledger = (s.noteWritten m i).ledger) :
    (t.ledger.pendingNotes[i]'i.isLt) = false
      ∧ (t.streams[i]'i.isLt).durableFrontier = max (s.streams[i]'i.isLt).durableFrontier (s.streams[i]'i.isLt).volatileFrontier
      ∧ s.Disposed t (fun g => g.waitsForFrontier i (s.streams[i]'i.isLt).epoch (s.streams[i]'i.isLt).volatileFrontier)
      ∧ (s.Proceeds s.staging → s.SyncLeft t (fun items => items.filter fun x => !t.reachedItem x))
      ∧ (∀ w, t.ledger.choose = some w → t.engine = { s.engine with job := some (.ledger w), resumeLock := false })
      ∧ (t.ledger.choose = none → t.Selected s.engine.preempted) := by
  have hdurable := congrArg Stream.durableFrontier (h.streams i).frame
  rw [handedOn_note_same] at hdurable
  refine ⟨?_, hdurable, freedBy_note i _ _ ▸ h.disposed, fun hp => syncedBy_note t _ ▸ h.syncLeft hp, h.goesOn, h.ends⟩
  rw [hl, noteWritten_ledger]
  simp

/-- A note whose unit fails is pending again, and is written again where a unit is left (R141). -/
theorem noteFailed {i : StreamId} {a : AnchorSeg} (ha : s.ledger.current = some a) (m : Memory) (t : State)
    (ht : t = ((((s.noteWritten m i).setNote i true).setJob
        (.ledger (((s.noteWritten m i).setNote i true).ledger.orCompact 1 (.note i)))).endStep .inside).evalPool s.available) :
    (t.ledger.pendingNotes[i]'i.isLt) = true ∧ t.streams = s.streams ∧ t.segments = s.segments
      ∧ t.reclaim = s.reclaim ∧ t.sync = s.sync ∧ t.engine = { s.engine with
        job := some (.ledger (if s.ledger.nextFree + 2 ≤ 128 then .note i else .compactErase (if a = 0 then 1 else 0) 1 0))
        resumeLock := false } := by
  have horCompact := Ledger.orCompact_of (l := ((s.noteWritten m i).setNote i true).ledger) ha 1 (.note i)
  subst ht
  rw [State.evalPool_ledger, State.evalPool_streams, State.evalPool_segments, State.evalPool_reclaim, State.evalPool_sync,
    State.evalPool_engine, endStep_inside, horCompact]
  refine ⟨?_, rfl, rfl, rfl, rfl, rfl⟩
  simp [State.setNote, State.setJob]

/-- Settles O55: the note is written and handed on, or is pending again. -/
theorem ledgerNoteStepResult : Obligations.LedgerNoteStepResult := by
  intro s p i a m ok hd ha hp
  have hspec := noteUnitStep_spec ha hp
  have hkept := (kept_noteUnitStep s p i).trans (kept_evalPool _ s.available)
  have hm : (s.programmed (s.ledgerWork (.note i)) p).array = m := by
    rw [(programmed_eq (by rw [State.ledgerWork, Ledger.currentSeg_of ha]) hp).1]
  refine ⟨_, exec_note hd, hkept.array.trans hm, ?_⟩
  rw [hspec]
  cases ok with
  | true =>
    rw [if_pos rfl]
    have h := entryCompleted (entryWritten_note s m i) false
      (noteRecorded i (s.streams[i]'i.isLt).epoch (s.streams[i]'i.isLt).volatileFrontier) s.available
    have hl := entryCompleted_ledger (s.noteWritten m i) false
      (noteRecorded i (s.streams[i]'i.isLt).epoch (s.streams[i]'i.isLt).volatileFrontier) s.available
    generalize State.evalPool s.available _ = t at h hl ⊢
    have hdone := noteCompleted h hl
    rw [noteWritten_ledger] at hl
    refine ⟨by rw [hl], by rw [hl], by rw [hl], by rw [hl], fun j hj => ?_, h.resumeLock, h.pool, fun _ => hdone,
      fun ho => by simp at ho, fun j => ⟨?_, fun hj => ?_⟩⟩
    · have hne : i.val ≠ j.val := fun e => hj (Fin.ext e.symm)
      rw [hl]
      simp [hne]
    · have hv := congrArg Stream.volatileFrontier (h.streams j).frame
      rw [Stream.handedOn_volatileFrontier] at hv
      exact hv
    · have hv := congrArg Stream.durableFrontier (h.streams j).frame
      rw [handedOn_note_other _ hj] at hv
      exact hv
  | false =>
    have hfailed := noteFailed (i := i) ha m _ rfl
    rw [if_neg (by simp)]
    refine ⟨?_, ?_, ?_, ?_, fun j hj => ?_, ?_, ?_, fun ho => by simp at ho, fun _ => hfailed, fun j => ?_⟩
    · rw [State.evalPool_ledger]
      rfl
    · rw [State.evalPool_ledger]
      rfl
    · rw [State.evalPool_ledger]
      rfl
    · rw [State.evalPool_ledger]
      rfl
    · have hne : i.val ≠ j.val := fun e => hj (Fin.ext e.symm)
      rw [State.evalPool_ledger]
      simp [State.setNote, State.setJob, State.endStep, noteWritten_ledger, hne]
    · rw [State.evalPool_engine]
      rfl
    · rw [State.evalPool_pool]
      rfl
    · rw [hfailed.2.1]
      exact ⟨rfl, fun _ => rfl⟩

end Sys2Proof.Machine
end

section
/-! The image units of the LEDGER job, outside compaction and in it (R132, R138, R140 to R144). Settles O56, O57. -/

namespace Sys2Proof.Machine

-- One proof after the other: the stacks of proofs elaborated side by side come near the memory that a check may take.
set_option Elab.async false

open Sys2Proof

variable {s t u : State}

/-! ### Images complete (R138, R140) -/

theorem handedOn_image (t : Stream) (c : ImageContent) (i : StreamId) :
    ((c.streams[i]'i.isLt).epoch = t.epoch → (t.handedOn (c.recorded i)).durableFrontier
        = max t.durableFrontier (c.streams[i]'i.isLt).frontier)
      ∧ ((c.streams[i]'i.isLt).epoch ≠ t.epoch → (t.handedOn (c.recorded i)).durableFrontier = t.durableFrontier) := by
  constructor
  · intro h
    show (if (c.streams[i]'i.isLt).epoch = t.epoch then
        ({ t with durableFrontier := max t.durableFrontier (c.streams[i]'i.isLt).frontier } : Stream)
      else t).durableFrontier = _
    rw [if_pos h]
  · intro h
    show (if (c.streams[i]'i.isLt).epoch = t.epoch then
        ({ t with durableFrontier := max t.durableFrontier (c.streams[i]'i.isLt).frontier } : Stream)
      else t).durableFrontier = _
    rw [if_neg h]

/-- An image satisfies its own items of the sync point, and the frontier items that the durable frontiers have reached (R66). -/
theorem syncedBy_image (t : State) (c : ImageContent) : t.syncedBy true c.recorded = t.imagedItem c := by
  funext x
  cases x <;> rfl

/-- A complete image: what it hands on (R140). -/
theorem imageCompleted {c : Captured} (h : s.EntryCompleted t true c.content.recorded) :
    s.Disposed t c.content.frees
      ∧ (s.Proceeds s.staging → s.SyncLeft t (fun items => items.filter fun x => !t.imagedItem c.content x))
      ∧ (∀ w, t.ledger.choose = some w → t.engine = { s.engine with job := some (.ledger w), resumeLock := false })
      ∧ (t.ledger.choose = none → t.Selected s.engine.preempted)
      ∧ ∀ i : StreamId, ((c.content.streams[i]'i.isLt).epoch = (s.streams[i]'i.isLt).epoch → (t.streams[i]'i.isLt).durableFrontier
            = max (s.streams[i]'i.isLt).durableFrontier (c.content.streams[i]'i.isLt).frontier)
          ∧ ((c.content.streams[i]'i.isLt).epoch ≠ (s.streams[i]'i.isLt).epoch →
            (t.streams[i]'i.isLt).durableFrontier = (s.streams[i]'i.isLt).durableFrontier) := by
  refine ⟨freedBy_image c.content ▸ h.disposed, fun hp => syncedBy_image t c.content ▸ h.syncLeft hp, h.goesOn, h.ends, fun i => ?_⟩
  have hd := congrArg Stream.durableFrontier (h.streams i).frame
  obtain ⟨h1, h2⟩ := handedOn_image (s.streams[i]'i.isLt) c.content i
  exact ⟨fun he => hd.trans (h1 he), fun he => hd.trans (h2 he)⟩

/-! ### What an image captures (R132, R138) -/

theorem imageContent_stream (s : State) (i : StreamId) : (s.imageContent.streams[i]'i.isLt) = {
      state := if (s.streams[i]'i.isLt).state = .faulted then (s.streams[i]'i.isLt).preFault else (s.streams[i]'i.isLt).state
      policy := (s.streams[i]'i.isLt).policy, quota := (s.streams[i]'i.isLt).quota, highWater := (s.streams[i]'i.isLt).highWater
      backlog := (s.streams[i]'i.isLt).backlog, epoch := (s.streams[i]'i.isLt).epoch,
      frontier := (s.streams[i]'i.isLt).volatileFrontier } := by
  rw [State.imageContent, tabulate_get]
  rfl

/-- A sync point that waits for the next image begun waits for the image that begins (R65). -/
theorem begun_eq : (fun x => if x = SyncItem.nextImage then SyncItem.currentImage else x) = SyncItem.begun := by
  funext x
  cases x <;> rfl

/-- The state in which an image is captured, seen from the state before (R138). -/
theorem captureImage_eq (s : State) (c : Captured) : s.captureImage c = { s with
    ledger := { s.ledger with captured := some c, imageNeeded := false, pendingNotes := Vector.replicate 8 false }
    sync := s.sync.map (·.map SyncItem.begun) } := by
  rw [← begun_eq]
  rfl

theorem beginImage_some {c : Captured} (h : s.ledger.captured = some c) : s.beginImage = s := by
  unfold State.beginImage
  rw [h]

theorem beginImage_none (h : s.ledger.captured = none) : s.beginImage = s.captureImage s.freshCapture := by
  unfold State.beginImage
  rw [h]

theorem capturedOr_some {c : Captured} (h : s.ledger.captured = some c) (d : Captured) : s.capturedOr d = c := by
  rw [State.capturedOr, h]
  rfl

theorem capturedOr_none (h : s.ledger.captured = none) (d : Captured) : s.capturedOr d = d := by
  rw [State.capturedOr, h]
  rfl

/-! ### The image units (R138, R141) -/

theorem exec_imageUnit {p : Pulses} {w : LedgerWork} (hw : w.isImage = true) (hd : s.due (.ledger w) = true) :
    exec (.ledgerImageUnitStep p) s = .next ((s.ledgerUnit p w).evalPool s.available) := by
  simp only [exec, execLedgerImageUnitStep, (due_iff.1 hd).2.2, hw, Bool.true_and, stepWhen_due hd]

/-- The next free unit advances, whether or not the unit verifies (R138, R141). -/
def State.unitWritten (m : Memory) (s : State) : State :=
  State.updLedger { s with array := m } fun l => { l with nextFree := l.nextFree + 1 }

/-- The image starts again from part 0 (R141). -/
def State.imageAgain (s : State) : State := s.updLedger fun l => l.atPart 0

/-- What a unit of an image outside compaction leads to (R138, R140, R141). -/
def State.imageUnitEnd (ok : Bool) (c : Captured) (s : State) : State :=
  if ok = true then
    if c.part < 7 then (s.updLedger fun l => l.atPart (c.part + 1)).endStep .inside
    else (s.completeImage c).chooseAgain
  else (s.imageAgain.setJob (.ledger (s.imageAgain.ledger.orCompact 8 .image))).endStep .inside

theorem imageUnit_spec {p : Pulses} {a : AnchorSeg} {m : Memory} {ok : Bool} (ha : s.ledger.current = some a)
    (hp : program s.array (unitItem a s.ledger.nextFree (s.capturedOr s.freshCapture).fields) p = (m, ok)) :
    s.imageUnit p = (s.beginImage.unitWritten m).imageUnitEnd ok (s.capturedOr s.freshCapture) := by
  have hw : s.ledgerWork .image = .program (unitItem a s.ledger.nextFree (s.capturedOr s.freshCapture).fields) := by
    rw [State.ledgerWork, Ledger.currentSeg_of ha]
  have harray : s.beginImage.array = s.array := (kept_beginImage s).array
  obtain ⟨hprog, -⟩ := programmed_eq (s := s.beginImage) hw (harray.symm ▸ hp)
  obtain ⟨-, hok⟩ := programmed_eq (s := s) hw hp
  unfold State.imageUnit
  dsimp only
  rw [hprog, hok]
  rfl

/-- A unit of an image outside compaction: the step, by what the unit leads to. -/
theorem exec_image {p : Pulses} {a : AnchorSeg} {m : Memory} {ok : Bool} {c : Captured} (hd : s.due (.ledger .image) = true)
    (ha : s.ledger.current = some a) (hc : s.capturedOr s.freshCapture = c)
    (hp : program s.array (unitItem a s.ledger.nextFree c.fields) p = (m, ok)) :
    exec (.ledgerImageUnitStep p) s = .next (((s.beginImage.unitWritten m).imageUnitEnd ok c).evalPool s.available) := by
  subst hc
  rw [exec_imageUnit rfl hd, ← imageUnit_spec ha hp]
  rfl

theorem available_unitWritten (s : State) (m : Memory) : (s.beginImage.unitWritten m).available = s.available := by
  cases hc : s.ledger.captured with
  | none => rw [beginImage_none hc]; rfl
  | some c => rw [beginImage_some hc]; rfl

/-- A unit that verifies before part 7 leads to the next part (R138). -/
theorem imageUnit_next {c : Captured} {v : State} (hc : c.part < 7) (hv : v.available = s.available) :
    (v.imageUnitEnd true c).evalPool s.available
      = { v with ledger := v.ledger.atPart (c.part + 1), engine := { v.engine with resumeLock := false } } := by
  rw [State.imageUnitEnd, if_pos rfl, if_pos hc, endStep_inside]
  exact evalPool_of_available hv

/-- A unit that fails is spent (R141). -/
theorem imageUnit_failed {a : AnchorSeg} {c : Captured} {v : State} (ha : v.ledger.current = some a) (hv : v.available = s.available) :
    (v.imageUnitEnd false c).evalPool s.available = { v with
      ledger := v.ledger.atPart 0
      engine := { v.engine with
        job := some (.ledger (if v.ledger.nextFree + 8 ≤ 128 then .image else .compactErase (if a = 0 then 1 else 0) 1 0))
        resumeLock := false } } := by
  have horCompact := Ledger.orCompact_of (l := v.imageAgain.ledger) ha 8 .image
  rw [State.imageUnitEnd, if_neg (by simp), endStep_inside, horCompact]
  exact evalPool_of_available hv

/-- The first unit of an image that verifies (R65, R138). -/
theorem imageUnit_first (s : State) (m : Memory) (h : s.ledger.captured = none) :
    ((s.beginImage.unitWritten m).imageUnitEnd true s.freshCapture).evalPool s.available = { s with
      array := m
      ledger := { s.ledger with
        captured := some { s.freshCapture with part := 1 }, imageNeeded := false
        pendingNotes := Vector.replicate 8 false, nextFree := s.ledger.nextFree + 1 }
      sync := s.sync.map (·.map SyncItem.begun)
      engine := { s.engine with resumeLock := false } } := by
  rw [imageUnit_next (show s.freshCapture.part < 7 from Nat.zero_lt_succ 6) (available_unitWritten s m), beginImage_none h, captureImage_eq]
  rfl

/-- The first unit of an image that fails (R65, R138, R141). -/
theorem imageUnit_first_failed {a : AnchorSeg} (m : Memory) (h : s.ledger.captured = none) (ha : s.ledger.current = some a) :
    ((s.beginImage.unitWritten m).imageUnitEnd false s.freshCapture).evalPool s.available = { s with
      array := m
      ledger := { s.ledger with
        captured := some s.freshCapture, imageNeeded := false
        pendingNotes := Vector.replicate 8 false, nextFree := s.ledger.nextFree + 1 }
      sync := s.sync.map (·.map SyncItem.begun)
      engine := { s.engine with
        job := some (.ledger (if s.ledger.nextFree + 9 ≤ 128 then .image else .compactErase (if a = 0 then 1 else 0) 1 0))
        resumeLock := false } } := by
  have ha' : (s.beginImage.unitWritten m).ledger.current = some a := by
    rw [beginImage_none h]
    exact ha
  rw [imageUnit_failed ha' (available_unitWritten s m), beginImage_none h, captureImage_eq]
  rfl

/-- A later unit that verifies before part 7 (R138). -/
theorem imageUnit_later {c : Captured} (m : Memory) (h : s.ledger.captured = some c) (hc : c.part < 7) :
    ((s.beginImage.unitWritten m).imageUnitEnd true c).evalPool s.available = { s with
      array := m
      ledger := { s.ledger with captured := some { c with part := c.part + 1 }, nextFree := s.ledger.nextFree + 1 }
      engine := { s.engine with resumeLock := false } } := by
  rw [imageUnit_next hc (available_unitWritten s m), beginImage_some h]
  simp only [State.unitWritten, State.updLedger, Ledger.atPart, h, Option.map_some]

/-- A later unit that fails (R141). -/
theorem imageUnit_later_failed {a : AnchorSeg} {c : Captured} (m : Memory) (h : s.ledger.captured = some c)
    (ha : s.ledger.current = some a) :
    ((s.beginImage.unitWritten m).imageUnitEnd false c).evalPool s.available = { s with
      array := m
      ledger := { s.ledger with captured := some { c with part := 0 }, nextFree := s.ledger.nextFree + 1 }
      engine := { s.engine with
        job := some (.ledger (if s.ledger.nextFree + 9 ≤ 128 then .image else .compactErase (if a = 0 then 1 else 0) 1 0))
        resumeLock := false } } := by
  rw [beginImage_some h, imageUnit_failed (s := s) (v := s.unitWritten m) ha rfl]
  simp only [State.unitWritten, State.updLedger, Ledger.atPart, h, Option.map_some]

/-- The state in which a complete image hands on. -/
def State.imageWritten (c : Captured) (s : State) : State :=
  s.updLedger fun l => { l with generation := c.generation, captured := none }

theorem State.completeImage_eq (s : State) (c : Captured) :
    s.completeImage c = (s.imageWritten c).handOn true c.content.recorded := rfl

/-- Part 7 of an image outside compaction (R138, R140). -/
theorem imageUnit_last {c : Captured} (m : Memory) (h : s.ledger.captured = some c) (hc : c.part = 7) :
    ((s.beginImage.unitWritten m).imageUnitEnd true c).evalPool s.available
      = (((s.unitWritten m).imageWritten c).handOn true c.content.recorded).chooseAgain.evalPool s.available := by
  rw [State.imageUnitEnd, if_pos rfl, if_neg (by omega), beginImage_some h, State.completeImage_eq]

theorem entryWritten_image (s : State) (m : Memory) (c : Captured) : s.EntryWritten ((s.unitWritten m).imageWritten c) :=
  ⟨rfl, rfl, rfl, rfl, rfl, rfl, rfl, rfl⟩

theorem imageWritten_ledger (s : State) (m : Memory) (c : Captured) : ((s.unitWritten m).imageWritten c).ledger
    = { s.ledger with nextFree := s.ledger.nextFree + 1, generation := c.generation, captured := none } := rfl

/-- The array once an image has handed on. -/
theorem handOn_array (v : State) (b : Bool) (r : Recorded) (n : Int) : ((v.handOn b r).chooseAgain.evalPool n).array = v.array :=
  (((kept_handOn v b r).trans (kept_chooseAgain _)).trans (kept_evalPool _ n)).array

/-- Part 7 of an image outside compaction: what the step leaves. -/
theorem image_result {p : Pulses} {a : AnchorSeg} {m : Memory} {c : Captured} (hd : s.due (.ledger .image) = true)
    (ha : s.ledger.current = some a) (h : s.ledger.captured = some c) (hc : c.part = 7)
    (hp : program s.array (unitItem a s.ledger.nextFree c.fields) p = (m, true)) :
    ∃ t, exec (.ledgerImageUnitStep p) s = .next t ∧ t.array = m ∧ t.ledger.generation = c.generation
          ∧ t.ledger.captured = none ∧ t.ledger.current = some a ∧ t.ledger.nextFree = s.ledger.nextFree + 1
          ∧ t.ledger.imageNeeded = s.ledger.imageNeeded ∧ t.ledger.pendingNotes = s.ledger.pendingNotes
          ∧ s.Disposed t c.content.frees
          ∧ (s.Proceeds s.staging → s.SyncLeft t (fun items => items.filter fun x => !t.imagedItem c.content x))
          ∧ (∀ w, t.ledger.choose = some w → t.engine = { s.engine with job := some (.ledger w), resumeLock := false })
          ∧ (t.ledger.choose = none → t.Selected s.engine.preempted)
          ∧ ∀ i : StreamId, ((c.content.streams[i]'i.isLt).epoch = (s.streams[i]'i.isLt).epoch → (t.streams[i]'i.isLt).durableFrontier
                = max (s.streams[i]'i.isLt).durableFrontier (c.content.streams[i]'i.isLt).frontier)
              ∧ ((c.content.streams[i]'i.isLt).epoch ≠ (s.streams[i]'i.isLt).epoch →
                (t.streams[i]'i.isLt).durableFrontier = (s.streams[i]'i.isLt).durableFrontier) := by
  have hor := capturedOr_some h s.freshCapture
  have hexec := exec_image hd ha hor hp
  rw [imageUnit_last m h hc] at hexec
  have hdone := imageCompleted (entryCompleted (entryWritten_image s m c) true c.content.recorded s.available)
  have hl := entryCompleted_ledger ((s.unitWritten m).imageWritten c) true c.content.recorded s.available
  have hm := handOn_array ((s.unitWritten m).imageWritten c) true c.content.recorded s.available
  rw [imageWritten_ledger] at hl
  refine ⟨_, hexec, hm, ?_⟩
  generalize State.evalPool s.available _ = t at hdone hl ⊢
  exact ⟨by rw [hl], by rw [hl], by rw [hl]; exact ha, by rw [hl], by rw [hl], by rw [hl], hdone⟩

/-- Settles O56: the first unit captures the image, part 7 hands it on, and a failed unit is spent. -/
theorem ledgerImageStepsResult : Obligations.LedgerImageStepsResult := by
  refine ⟨fun s => ⟨rfl, rfl, rfl, rfl, rfl, rfl, rfl, imageContent_stream s⟩, fun s p m a hd ha => ⟨fun h => ?_, fun c h => ?_⟩⟩
  · have hor := capturedOr_none h s.freshCapture
    refine ⟨fun hp => ?_, fun hp => ?_⟩
    · have hexec := exec_image hd ha hor hp
      rw [imageUnit_first s m h] at hexec
      exact ⟨_, hexec, rfl, rfl, rfl, rfl, rfl, rfl⟩
    · have hexec := exec_image hd ha hor hp
      rw [imageUnit_first_failed m h ha] at hexec
      exact ⟨_, hexec, rfl, rfl, rfl, rfl, rfl, rfl⟩
  · have hor := capturedOr_some h s.freshCapture
    refine ⟨fun hc hp => ?_, fun hc hp => image_result hd ha h hc hp, fun hp => ?_⟩
    · have hexec := exec_image hd ha hor hp
      rw [imageUnit_later m h hc] at hexec
      exact ⟨_, hexec, rfl, (due_iff.1 hd).2.2, rfl, rfl, rfl, rfl, rfl⟩
    · have hexec := exec_image hd ha hor hp
      rw [imageUnit_later_failed m h ha] at hexec
      exact ⟨_, hexec, rfl, rfl, rfl, rfl, rfl, fun hn => by rw [if_pos hn], fun hn => by rw [if_neg (by omega)]⟩

/-! ### Compaction (R142 to R144) -/

/-- A step that goes on with a job of its own choice changes the engine alone. -/
theorem evalPool_setJob {n : Int} (h : s.available = n) (j : Job) : ((s.setJob j).endStep .inside).evalPool n
    = { s with engine := { s.engine with job := some j, resumeLock := false } } := evalPool_of_available h

theorem exec_compactPulse {r : Residue} {a : AnchorSeg} {v n : Nat} (hd : s.due (.ledger (.compactErase a v n)) = true) :
    exec (.ledgerAnchorErasePulse r) s = .next ((s.compactPulse r a v n).evalPool s.available) := by
  simp only [exec, execLedgerAnchorErasePulse, (due_iff.1 hd).2.2, stepWhen_due hd]

/-- What the halt of the ledger leaves once its step has ended and the engine has selected (R111, R144). -/
theorem halted_completed (s : State) (n : Int) (t : State) (ht : t = (s.haltLedger.endStep .completed).evalPool n) :
    t.array = s.array ∧ t.ledger = { s.ledger with halted := true, captured := none, imageNeeded := true }
      ∧ t.eventLatch.getLsbD 15 = true ∧ t.Selected s.engine.preempted := by
  subst ht
  have hf := faults_endStep s.haltLedger .completed
  have hbit : s.haltLedger.eventLatch.getLsbD 15 = true := by
    rw [State.haltLedger, State.raise_getLsbD]
    simp [Event.bit]
  refine ⟨(((kept_haltLedger s).trans (kept_endStep _ _)).trans (kept_evalPool _ n)).array, ?_, ?_,
    selected_evalPool (endStep_selected s.haltLedger) n⟩
  · rw [State.evalPool_ledger, hf.leaves.ledger]
    rfl
  · rw [State.evalPool_getLsbD, hf.latched hbit (by decide)]
    rfl

/-- An erase pulse on the target of a compaction (R142, R144). -/
theorem compactPulse_result {a : AnchorSeg} {v : Nat} (r : Residue) (n : Nat) (hd : s.due (.ledger (.compactErase a v n)) = true) :
    ∃ t, exec (.ledgerAnchorErasePulse r) s = .next t ∧ t.array = erasePulse s.array a.val r
        ∧ t.ledger.current = s.ledger.current ∧ t.ledger.nextFree = s.ledger.nextFree
        ∧ t.ledger.generation = s.ledger.generation
        ∧ (segmentErased t.array a.val = true → t.engine.job = some (.ledger (.compactCapture a v))
            ∧ (t.ledger.anchorErases[a]'a.isLt) = min ((s.ledger.anchorErases[a]'a.isLt) + 1) 0xFFFFFE)
        ∧ (segmentErased t.array a.val = false → n < 11 → t.engine.job = some (.ledger (.compactErase a v (n + 1)))
            ∧ t.ledger = s.ledger)
        ∧ (segmentErased t.array a.val = false → 11 ≤ n → t.ledger.halted = true ∧ t.ledger.imageNeeded = true
            ∧ t.ledger.captured = none ∧ t.eventLatch.getLsbD 15 = true ∧ t.Selected s.engine.preempted) := by
  have he : Config.erasePulses = 12 := rfl
  refine ⟨_, exec_compactPulse hd, ?_⟩
  unfold State.compactPulse
  dsimp only
  by_cases hpass : segmentErased (erasePulse s.array a.val r) a.val = true
  · rw [if_pos hpass, evalPool_setJob]
    case h => rfl
    have hno : segmentErased (erasePulse s.array a.val r) a.val ≠ false := by rw [hpass]; decide
    refine ⟨rfl, rfl, rfl, rfl, fun _ => ⟨rfl, ?_⟩, fun h => absurd h hno, fun h => absurd h hno⟩
    exact Vector.getElem_set_self _
  · rw [if_neg hpass]
    by_cases hn : Config.erasePulses ≤ n + 1
    · rw [if_pos hn]
      obtain ⟨h1, h2, h3, h4⟩ := halted_completed { s with array := erasePulse s.array a.val r } s.available _ rfl
      generalize State.evalPool s.available _ = t at h1 h2 h3 h4 ⊢
      rw [h1, h2]
      exact ⟨rfl, rfl, rfl, rfl, fun h => absurd h hpass, fun _ h => by omega, fun _ _ => ⟨rfl, rfl, rfl, h3, h4⟩⟩
    · rw [if_neg hn, evalPool_setJob]
      case h => rfl
      exact ⟨rfl, rfl, rfl, rfl, fun h => absurd h hpass, fun _ _ => ⟨rfl, rfl⟩, fun _ h => by omega⟩

/-- What a unit of a compaction's image leads to (R142, R143). -/
def State.compactUnitEnd (ok : Bool) (c : Captured) (a : AnchorSeg) (v : Nat) (s : State) : State :=
  if ok = true then
    if c.part < 7 then
      ((s.updLedger fun l => l.atPart (c.part + 1)).setJob (.ledger (.compactImage a v))).endStep .inside
    else ((s.moveTo a).completeImage c).chooseAgain
  else s.attemptFailed a v

theorem compactUnit_spec {p : Pulses} {m : Memory} {ok : Bool} {w : ArrayWork} {item : Item} (a : AnchorSeg) (v : Nat)
    (hw : w = .program item) (hp : program s.array item p = (m, ok)) :
    s.compactUnit w p a v = State.compactUnitEnd ok (s.capturedOr s.freshCapture) a v { s with array := m } := by
  obtain ⟨hprog, hok⟩ := programmed_eq hw hp
  unfold State.compactUnit
  dsimp only
  rw [hprog, hok]
  rfl

/-- The first unit of a compaction's image. -/
theorem exec_compactCapture {p : Pulses} {m : Memory} {ok : Bool} {a : AnchorSeg} {v : Nat}
    (hd : s.due (.ledger (.compactCapture a v)) = true)
    (hp : program s.array (unitItem a 0 s.freshCapture.fields) p = (m, ok)) :
    exec (.ledgerImageUnitStep p) s
      = .next ((State.compactUnitEnd ok s.freshCapture a v { s.captureImage s.freshCapture with array := m }).evalPool s.available) := by
  rw [exec_imageUnit rfl hd]
  refine congrArg (fun x => Host.Outcome.next (State.evalPool s.available x)) ?_
  exact compactUnit_spec (s := s.captureImage s.freshCapture) a v rfl hp

/-- A later unit of a compaction's image. -/
theorem exec_compactImage {p : Pulses} {m : Memory} {ok : Bool} {a : AnchorSeg} {v : Nat} {c : Captured}
    (hd : s.due (.ledger (.compactImage a v)) = true) (hc : s.ledger.captured = some c)
    (hp : program s.array (unitItem a c.part c.fields) p = (m, ok)) :
    exec (.ledgerImageUnitStep p) s = .next ((State.compactUnitEnd ok c a v { s with array := m }).evalPool s.available) := by
  have hor := capturedOr_some hc s.freshCapture
  have hw : s.ledgerWork (.compactImage a v) = .program (unitItem a c.part c.fields) := by rw [State.ledgerWork, hor]
  have hspec := compactUnit_spec a v hw hp
  rw [hor] at hspec
  rw [exec_imageUnit rfl hd, ← hspec]
  rfl

/-- A failed unit leads from the first attempt to the second, and from the second to the halt (R143, R144). -/
theorem attemptFailed_result {a : AnchorSeg} {v : Nat} {c : Captured} (u : State) (n : Int) (hn : u.available = n) (t : State)
    (ht : t = (u.compactUnitEnd false c a v).evalPool n) :
    t.array = u.array ∧ t.ledger.imageNeeded = true
      ∧ t.ledger.captured = none ∧ t.ledger.current = u.ledger.current ∧ t.ledger.generation = u.ledger.generation
      ∧ (v = 1 → t.engine.job = some (.ledger (.compactErase a 2 0)) ∧ t.ledger.halted = u.ledger.halted)
      ∧ (v ≠ 1 → t.ledger.halted = true ∧ t.eventLatch.getLsbD 15 = true ∧ t.Selected u.engine.preempted) := by
  rw [State.compactUnitEnd, if_neg (by simp), State.attemptFailed] at ht
  by_cases hv : v = 1
  · rw [if_pos hv, evalPool_setJob] at ht
    case h => exact hn
    subst ht
    exact ⟨rfl, rfl, rfl, rfl, rfl, fun _ => ⟨rfl, rfl⟩, fun h => absurd hv h⟩
  · rw [if_neg hv] at ht
    obtain ⟨h1, h2, h3, h4⟩ := halted_completed u n t ht
    rw [h1, h2]
    exact ⟨rfl, rfl, rfl, rfl, rfl, fun h => absurd h hv, fun _ => ⟨rfl, h3, h4⟩⟩

/-- The capture of a compaction (R65, R142, R143). -/
theorem compactCapture_result {a : AnchorSeg} {v : Nat} (p : Pulses) (m : Memory) (hd : s.due (.ledger (.compactCapture a v)) = true) :
    (program s.array (unitItem a 0 s.freshCapture.fields) p = (m, true) →
        ∃ t, exec (.ledgerImageUnitStep p) s = .next t ∧ t.array = m
          ∧ t.engine.job = some (.ledger (.compactImage a v)) ∧ t.streams = s.streams ∧ t.segments = s.segments
          ∧ t.sync = s.sync.map (·.map SyncItem.begun)
          ∧ t.ledger = { s.ledger with
              captured := some { s.freshCapture with part := 1 }, imageNeeded := false
              pendingNotes := Vector.replicate 8 false })
      ∧ (program s.array (unitItem a 0 s.freshCapture.fields) p = (m, false) →
        ∃ t, exec (.ledgerImageUnitStep p) s = .next t ∧ t.array = m ∧ t.ledger.imageNeeded = true
          ∧ t.ledger.captured = none ∧ t.ledger.current = s.ledger.current ∧ t.ledger.generation = s.ledger.generation
          ∧ (v = 1 → t.engine.job = some (.ledger (.compactErase a 2 0)) ∧ t.ledger.halted = s.ledger.halted)
          ∧ (v ≠ 1 → t.ledger.halted = true ∧ t.eventLatch.getLsbD 15 = true ∧ t.Selected s.engine.preempted)) := by
  refine ⟨fun hp => ?_, fun hp => ?_⟩
  · refine ⟨_, exec_compactCapture hd hp, ?_⟩
    rw [State.compactUnitEnd, if_pos rfl, if_pos (show s.freshCapture.part < 7 from Nat.zero_lt_succ 6),
      evalPool_setJob, captureImage_eq]
    case h => rfl
    exact ⟨rfl, rfl, rfl, rfl, rfl, rfl⟩
  · exact ⟨_, exec_compactCapture hd hp, attemptFailed_result { s.captureImage s.freshCapture with array := m } _ rfl _ rfl⟩

theorem entryWritten_compaction (s : State) (m : Memory) (a : AnchorSeg) (c : Captured) :
    s.EntryWritten ((State.moveTo a { s with array := m }).imageWritten c) :=
  ⟨rfl, rfl, rfl, rfl, rfl, rfl, rfl, rfl⟩

/-- Part 7 of a compaction's image (R140, R142). -/
theorem compactImage_last {a : AnchorSeg} {v : Nat} {p : Pulses} {m : Memory} {c : Captured}
    (hd : s.due (.ledger (.compactImage a v)) = true) (h : s.ledger.captured = some c) (hc : c.part = 7)
    (hp : program s.array (unitItem a 7 c.fields) p = (m, true)) :
    ∃ t, exec (.ledgerImageUnitStep p) s = .next t ∧ t.array = m ∧ t.ledger.current = some a
          ∧ t.ledger.nextFree = 8 ∧ t.ledger.generation = c.generation ∧ t.ledger.captured = none
          ∧ s.Disposed t c.content.frees
          ∧ (s.Proceeds s.staging → s.SyncLeft t (fun items => items.filter fun x => !t.imagedItem c.content x))
          ∧ (∀ w, t.ledger.choose = some w → t.engine = { s.engine with job := some (.ledger w), resumeLock := false })
          ∧ (t.ledger.choose = none → t.Selected s.engine.preempted)
          ∧ ∀ i : StreamId, ((c.content.streams[i]'i.isLt).epoch = (s.streams[i]'i.isLt).epoch → (t.streams[i]'i.isLt).durableFrontier
                = max (s.streams[i]'i.isLt).durableFrontier (c.content.streams[i]'i.isLt).frontier)
              ∧ ((c.content.streams[i]'i.isLt).epoch ≠ (s.streams[i]'i.isLt).epoch →
                (t.streams[i]'i.isLt).durableFrontier = (s.streams[i]'i.isLt).durableFrontier) := by
  have hexec := exec_compactImage hd h (hc.symm ▸ hp)
  rw [State.compactUnitEnd, if_pos rfl, if_neg (by omega), State.completeImage_eq] at hexec
  have hdone := imageCompleted (entryCompleted (entryWritten_compaction s m a c) true c.content.recorded s.available)
  have hl := entryCompleted_ledger ((State.moveTo a { s with array := m }).imageWritten c) true c.content.recorded s.available
  have hm := handOn_array ((State.moveTo a { s with array := m }).imageWritten c) true c.content.recorded s.available
  refine ⟨_, hexec, hm, ?_⟩
  generalize State.evalPool s.available _ = t at hdone hl ⊢
  exact ⟨by rw [hl]; rfl, by rw [hl]; rfl, by rw [hl]; rfl, by rw [hl]; rfl, hdone⟩

/-- Settles O57: the pulses on the target, its capture, its later parts and its two attempts. -/
theorem ledgerCompactionStepsResult : Obligations.LedgerCompactionStepsResult := by
  intro s a v
  refine ⟨fun r n hd => compactPulse_result r n hd, fun p m hd => compactCapture_result p m hd, fun p m c hd h =>
    ⟨fun hc hp => ?_, fun hc hp => compactImage_last hd h hc hp, fun hp => ?_⟩⟩
  · refine ⟨_, exec_compactImage hd h hp, ?_⟩
    rw [State.compactUnitEnd, if_pos rfl, if_pos hc, evalPool_setJob]
    case h => rfl
    refine ⟨rfl, rfl, ?_, rfl, rfl, rfl⟩
    simp only [State.updLedger, Ledger.atPart, h, Option.map_some]
  · exact ⟨_, exec_compactImage hd h hp, attemptFailed_result { s with array := m } _ rfl _ rfl⟩

end Sys2Proof.Machine
end

section
/-! APPEND: placement, acceptance into the current or a new segment, the WRAP drop and the last sequence (R36, R49 to R63). Settles
O32, O33, O34, O35. -/

namespace Sys2Proof.Machine

-- One proof after the other: the stacks of proofs elaborated side by side come near the memory that a check may take.
set_option Elab.async false

open Sys2Proof

variable {s t u : State}

/-! ### Selection, seen through the records (R111) -/

/-- The decision of a COMMIT job depends on pool, segment table, staging buffer, chains, reservations and job alone (R114). -/
theorem State.CommitDecided.congr (h : s.CommitDecided) (hp : t.pool = s.pool) (hg : t.segments = s.segments)
    (hs : t.staging = s.staging) (he : t.engine = s.engine)
    (hr : ∀ j : StreamId, (t.streams[j]'j.isLt).chain = (s.streams[j]'j.isLt).chain
        ∧ (t.streams[j]'j.isLt).reserved = (s.streams[j]'j.isLt).reserved) :
    t.CommitDecided := by
  obtain ⟨e, rest, hes, hc, ha, hn⟩ := h
  have hav : t.available = s.available := available_congr hp fun j => (hr j).2
  have hopen : t.openSegment e.stream = s.openSegment e.stream := by
    unfold State.openSegment
    rw [hg, (hr e.stream).1]
  refine ⟨e, rest, hs.trans hes, ?_, ?_, ?_⟩
  · rw [he]
    exact hc
  · rw [he, hav, State.openingStep_congr hp hg]
    exact ha
  · rw [he, hp, hopen, State.openingStep_congr hp hg]
    exact hn

/-- What was selected depends on the same and on ledger and reclaim queue alone (R111). -/
theorem State.Selected.congr {slot : Option (DataSeg × Nat)} (h : s.Selected slot) (hp : t.pool = s.pool) (hg : t.segments = s.segments)
    (hs : t.staging = s.staging) (he : t.engine = s.engine) (hl : t.ledger = s.ledger) (hq : t.reclaim = s.reclaim)
    (hr : ∀ j : StreamId, (t.streams[j]'j.isLt).chain = (s.streams[j]'j.isLt).chain
        ∧ (t.streams[j]'j.isLt).reserved = (s.streams[j]'j.isLt).reserved) :
    t.Selected slot := by
  have hc : s.CommitDecided → t.CommitDecided := fun h => h.congr hp hg hs he hr
  obtain ⟨h1, h2, h3, h4, h5⟩ := h
  constructor
  · rw [hl, he]
    exact h1
  · rw [hl, he, hs]
    intro ht hn
    obtain ⟨ha, hb, hd⟩ := h2 ht hn
    exact ⟨ha, hb, hc hd⟩
  · rw [hl, he, hs]
    exact h3
  · rw [hl, he, hs, hq]
    exact h4
  · rw [hl, he, hs, hq]
    exact h5

/-- A selection with ledger or staged work waiting leaves the engine RUNNING (R111). -/
theorem State.Selected.running {slot : Option (DataSeg × Nat)} (h : t.Selected slot) (hs : t.staging ≠ []) : t.engine.state = .running := by
  cases ht : t.ledger.trigger with
  | true => exact (h.ledger ht).1
  | false => exact (h.commit ht hs).1

/-- Where the head entry proceeds, the selection of an IDLE engine changes the engine alone. -/
theorem selectIfIdle_of_proceeds (h : s.engine.state = .idle → s.Proceeds s.staging) :
    s.selectIfIdle = { s with engine := s.selectIfIdle.engine } := by
  unfold State.selectIfIdle
  split
  next hi => exact select_of_proceeds (h hi)
  next => rfl

theorem selectIfIdle_busy (h : s.engine.state ≠ .idle) : s.selectIfIdle = s := if_neg h

theorem selectIfIdle_selected (h : s.engine.state = .idle) : s.selectIfIdle.Selected s.engine.preempted := by
  rw [State.selectIfIdle, if_pos h]
  exact select_selected s

/-! ### Staging (R36, R58) -/

/-- A stream's record once it has given out its next sequence: the last one seals it (R36, R58). -/
def Stream.numbered (t : Stream) : Stream :=
  if t.nextSeq = Config.lastSequence then { t with nextSeq := t.nextSeq + 1, state := .sealed, notices := t.notices ||| 0x20 }
  else { t with nextSeq := t.nextSeq + 1 }

/-- The entry of a record that is staged. -/
def State.stagedEntry (s : State) (i : StreamId) (tag : Byte) (payload : List Byte) (p : Placement) : Entry :=
  { stream := i, seq := (s.streams[i]'i.isLt).nextSeq, tag := tag, payload := payload, placement := p }

/-- A record is staged, and the last sequence seals the stream (R36, R58). -/
def State.numbered (i : StreamId) (tag : Byte) (payload : List Byte) (p : Placement) (s : State) : State :=
  (s.stage i tag payload p).sealIf i (s.streams[i]'i.isLt).nextSeq

theorem State.numbered_eq (s : State) (i : StreamId) (tag : Byte) (payload : List Byte) (p : Placement) :
    s.numbered i tag payload p = { s with
      streams := s.streams.set i.val (s.streams[i]'i.isLt).numbered
      staging := s.staging ++ [s.stagedEntry i tag payload p]
      port := { s.port with receipt := some (i, (s.streams[i]'i.isLt).nextSeq) }
      ledger := if (s.streams[i]'i.isLt).nextSeq = Config.lastSequence then { s.ledger with imageNeeded := true } else s.ledger
      eventLatch := if (s.streams[i]'i.isLt).nextSeq = Config.lastSequence then s.eventLatch ||| 0x0400 else s.eventLatch } := by
  unfold State.numbered State.sealIf Stream.numbered
  by_cases h : (s.streams[i]'i.isLt).nextSeq = Config.lastSequence
  · rw [if_pos h, if_pos h, if_pos h, if_pos h]
    simp [State.stage, State.notify, State.raise, State.updStream, State.needImage, Notice.bit, Event.bit, State.stagedEntry]
  · rw [if_neg h, if_neg h, if_neg h, if_neg h]
    rfl

/-! ### The WRAP drop (R59) -/

/-- A stream's record once its oldest segment has been dropped (R59). -/
def Stream.dropped (g : Segment) (t : Stream) : Stream :=
  { t with
    chain := t.chain.tail, volatileFrontier := max t.volatileFrontier g.last
    cursor := max t.cursor (max t.volatileFrontier g.last + 1)
    overrun := min Config.max32 (t.overrun + g.overrunBy t.volatileFrontier)
    notices := if 0 < g.overrunBy t.volatileFrontier then t.notices ||| 0x08 else t.notices }

theorem State.dropSegment_eq (s : State) (i : StreamId) (d : DataSeg) : s.dropSegment i d = { s with
    streams := s.streams.set i.val ((s.streams[i]'i.isLt).dropped (s.segments[d]'d.isLt))
    segments := s.segments.set d.val { (s.segments[d]'d.isLt) with
      location := .release, release := some (.frontier (s.segments[d]'d.isLt).last) }
    ledger := { s.ledger with pendingNotes := s.ledger.pendingNotes.set i.val true }
    eventLatch := if 0 < (s.segments[d]'d.isLt).overrunBy (s.streams[i]'i.isLt).volatileFrontier then s.eventLatch ||| 0x0010
        else s.eventLatch } := by
  unfold State.dropSegment Stream.dropped
  dsimp only
  by_cases h : 0 < (s.segments[d]'d.isLt).overrunBy (s.streams[i]'i.isLt).volatileFrontier
  · rw [if_pos h, if_pos h, if_pos h]
    simp [State.setNote, State.release, State.updSegment, State.notify, State.raise, State.updStream, Notice.bit, Event.bit]
  · rw [if_neg h, if_neg h, if_neg h]
    rfl

/-! ### The end of an acceptance (R58, R168 to R170) -/

/-- The end of an acceptance: selection, held side, unread side where the cursor has moved, pool side. -/
def State.acceptEnd (i : StreamId) (moved : Bool) (n : Int) (s : State) : State :=
  (if moved then (s.selectIfIdle.evalHeld i).evalUnread i else s.selectIfIdle.evalHeld i).evalPool n

/-- A stream's record once the sides that an acceptance evaluates have been. -/
def Stream.judged (moved : Bool) (t : Stream) : Stream := if moved then t.heldEvaluated.unreadEvaluated else t.heldEvaluated

theorem Stream.judged_frame (moved : Bool) (t : Stream) : { t.judged moved with
    notices := t.notices, heldAtOrAbove := t.heldAtOrAbove, unreadAbove := t.unreadAbove } = t := by
  cases moved <;> rfl

theorem Stream.judged_getLsbD (moved : Bool) (t : Stream) (n : Nat) : (t.judged moved).notices.getLsbD n
    = (t.notices.getLsbD n || (n == 0 && t.heldArrives) || (n == 1 && (moved && t.heldEvaluated.unreadArrives))) := by
  cases moved with
  | true =>
    rw [Stream.judged, if_pos rfl, Stream.unreadEvaluated_getLsbD, Stream.heldEvaluated_getLsbD]
    simp
  | false =>
    rw [Stream.judged, if_neg (by simp), Stream.heldEvaluated_getLsbD]
    simp

/-- What the end of an acceptance leaves of the state that it finds. -/
structure State.AcceptEnds (s t : State) (i : StreamId) (moved : Bool) : Prop where
  kept : Kept s t
  same : (t.streams[i]'i.isLt) = (s.streams[i]'i.isLt).judged moved
  others : ∀ j : StreamId, j ≠ i → (t.streams[j]'j.isLt) = (s.streams[j]'j.isLt)
  segments : t.segments = s.segments
  pool : t.pool = s.pool
  reclaim : t.reclaim = s.reclaim
  ledger : t.ledger = s.ledger
  staging : t.staging = s.staging
  sync : t.sync = s.sync
  latch : ∀ n : Nat, n ≠ 5 → t.eventLatch.getLsbD n = (s.eventLatch.getLsbD n || (n == 1 && (s.streams[i]'i.isLt).heldArrives)
    || (n == 2 && (moved && (s.streams[i]'i.isLt).heldEvaluated.unreadArrives)))
  engine : s.engine.state ≠ .idle → t.engine = s.engine
  selected : s.engine.state = .idle → t.Selected s.engine.preempted

/-- Of the records an acceptance's end changes the sides and the notices of one. -/
theorem acceptEnd_frame {i j : StreamId} {moved : Bool} (h : (t.streams[i]'i.isLt) = (s.streams[i]'i.isLt).judged moved)
    (ho : ∀ j : StreamId, j ≠ i → (t.streams[j]'j.isLt) = (s.streams[j]'j.isLt)) :
    (t.streams[j]'j.isLt).chain = (s.streams[j]'j.isLt).chain ∧ (t.streams[j]'j.isLt).reserved = (s.streams[j]'j.isLt).reserved := by
  by_cases hj : j = i
  · subst hj
    have hf := Stream.judged_frame moved (s.streams[j]'j.isLt)
    rw [← h] at hf
    have hc := congrArg Stream.chain hf
    have hr := congrArg Stream.reserved hf
    exact ⟨hc, hr⟩
  · rw [ho j hj]
    exact ⟨rfl, rfl⟩

theorem State.AcceptEnds.available {i : StreamId} {moved : Bool} (h : s.AcceptEnds t i moved) : t.available = s.available :=
  available_congr h.pool fun j => (acceptEnd_frame (j := j) h.same h.others).2

theorem acceptEnds (i : StreamId) (moved : Bool) (n : Int) (h : s.engine.state = .idle → s.Proceeds s.staging) :
    s.AcceptEnds (s.acceptEnd i moved n) i moved := by
  have hsel := selectIfIdle_of_proceeds h
  have hselected := selectIfIdle_selected (s := s)
  have hbusy := selectIfIdle_busy (s := s)
  have hkept := kept_selectIfIdle s
  unfold State.acceptEnd
  generalize s.selectIfIdle = v at *
  have hstreams : v.streams = s.streams := by rw [hsel]
  have hlatch : v.eventLatch = s.eventLatch := by rw [hsel]
  have hsame : ((if moved then (v.evalHeld i).evalUnread i else v.evalHeld i).streams[i]'i.isLt) = (s.streams[i]'i.isLt).judged moved := by
    cases moved with
    | true => rw [if_pos rfl, State.evalUnread_same, State.evalHeld_same, hstreams]; rfl
    | false => rw [if_neg (by simp), State.evalHeld_same, hstreams]; rfl
  have hothers : ∀ j : StreamId, j ≠ i → ((if moved then (v.evalHeld i).evalUnread i else v.evalHeld i).streams[j]'j.isLt)
      = (s.streams[j]'j.isLt) := by
    intro j hj
    cases moved with
    | true => rw [if_pos rfl, State.evalUnread_other _ _ _ hj, State.evalHeld_other _ _ _ hj, hstreams]
    | false => rw [if_neg (by simp), State.evalHeld_other _ _ _ hj, hstreams]
  have hkept' : Kept v (if moved then (v.evalHeld i).evalUnread i else v.evalHeld i) := by
    cases moved with
    | true => exact (kept_evalHeld v i).trans (kept_evalUnread _ i)
    | false => exact kept_evalHeld v i
  have hrest : (if moved then (v.evalHeld i).evalUnread i else v.evalHeld i).segments = v.segments
      ∧ (if moved then (v.evalHeld i).evalUnread i else v.evalHeld i).pool = v.pool
      ∧ (if moved then (v.evalHeld i).evalUnread i else v.evalHeld i).reclaim = v.reclaim
      ∧ (if moved then (v.evalHeld i).evalUnread i else v.evalHeld i).ledger = v.ledger
      ∧ (if moved then (v.evalHeld i).evalUnread i else v.evalHeld i).staging = v.staging
      ∧ (if moved then (v.evalHeld i).evalUnread i else v.evalHeld i).sync = v.sync
      ∧ (if moved then (v.evalHeld i).evalUnread i else v.evalHeld i).engine = v.engine := by
    cases moved <;> simp
  have hbits : ∀ m : Nat, (if moved then (v.evalHeld i).evalUnread i else v.evalHeld i).eventLatch.getLsbD m
      = (s.eventLatch.getLsbD m || (m == 1 && (s.streams[i]'i.isLt).heldArrives)
        || (m == 2 && (moved && (s.streams[i]'i.isLt).heldEvaluated.unreadArrives))) := by
    intro m
    cases moved with
    | true =>
      rw [if_pos rfl, State.evalUnread_getLsbD, State.evalHeld_getLsbD, State.evalHeld_same, hstreams, hlatch]
      simp
    | false =>
      rw [if_neg (by simp), State.evalHeld_getLsbD, hstreams, hlatch]
      simp
  generalize (if moved then (v.evalHeld i).evalUnread i else v.evalHeld i) = w at *
  obtain ⟨h1, h2, h3, h4, h5, h6, h7⟩ := hrest
  constructor
  · exact (hkept.trans hkept').trans (kept_evalPool w n)
  · rw [State.evalPool_streams]
    exact hsame
  · intro j hj
    rw [State.evalPool_streams]
    exact hothers j hj
  · rw [State.evalPool_segments, h1, hsel]
  · rw [State.evalPool_pool, h2, hsel]
  · rw [State.evalPool_reclaim, h3, hsel]
  · rw [State.evalPool_ledger, h4, hsel]
  · rw [State.evalPool_staging, h5, hsel]
  · rw [State.evalPool_sync, h6, hsel]
  · intro m hm
    rw [State.evalPool_getLsbD, hbits, beq_false_of_ne hm]
    simp
  · intro hi
    rw [State.evalPool_engine, h7, hbusy hi]
  · intro hi
    refine selected_evalPool ((hselected hi).congr h2 h1 h5 h7 h4 h3 fun j => ?_) n
    rw [hstreams]
    exact acceptEnd_frame hsame hothers

/-! ### Acceptance with a new segment (R55 to R59) -/

/-- A stream's record once it has taken a reservation (R58). -/
def Stream.reserving (t : Stream) : Stream := { t with reserved := t.reserved + 1 }

/-- A reservation is taken, and the oldest segment goes where it is to be dropped (R58, R59). -/
def State.makeRoom (i : StreamId) (drop : Option DataSeg) (s : State) : State :=
  (s.updStream i fun t => { t with reserved := t.reserved + 1 }).dropIf i drop

/-- The record that makes room (R58, R59). -/
def State.roomRecord (s : State) (i : StreamId) : Option DataSeg → Stream
  | none => (s.streams[i]'i.isLt).reserving
  | some d => (s.streams[i]'i.isLt).reserving.dropped (s.segments[d]'d.isLt)

theorem State.makeRoom_none (s : State) (i : StreamId) :
    s.makeRoom i none = { s with streams := s.streams.set i.val (s.roomRecord i none) } := rfl

theorem State.makeRoom_some (s : State) (i : StreamId) (d : DataSeg) : s.makeRoom i (some d) = { s with
    streams := s.streams.set i.val (s.roomRecord i (some d))
    segments := s.segments.set d.val { (s.segments[d]'d.isLt) with
      location := .release, release := some (.frontier (s.segments[d]'d.isLt).last) }
    ledger := { s.ledger with pendingNotes := s.ledger.pendingNotes.set i.val true }
    eventLatch := if 0 < (s.segments[d]'d.isLt).overrunBy (s.streams[i]'i.isLt).volatileFrontier then s.eventLatch ||| 0x0010
        else s.eventLatch } := by
  show (s.updStream i fun t => { t with reserved := t.reserved + 1 }).dropSegment i d = _
  rw [State.dropSegment_eq, State.updStream_same]
  simp [State.updStream, State.roomRecord, Stream.reserving, -Fin.getElem_fin]
  rfl

theorem State.makeRoom_same (s : State) (i : StreamId) (drop : Option DataSeg) :
    ((s.makeRoom i drop).streams[i]'i.isLt) = s.roomRecord i drop := by
  cases drop with
  | none =>
    rw [State.makeRoom_none]
    simp
  | some d =>
    rw [State.makeRoom_some]
    simp

theorem State.makeRoom_other (s : State) (i : StreamId) (drop : Option DataSeg) {j : StreamId} (h : j ≠ i) :
    ((s.makeRoom i drop).streams[j]'j.isLt) = (s.streams[j]'j.isLt) := by
  have h' : i.val ≠ j.val := fun e => h (Fin.ext e.symm)
  cases drop with
  | none =>
    rw [State.makeRoom_none]
    simp [h']
  | some d =>
    rw [State.makeRoom_some]
    simp [h']

/-- Making room leaves the record's counts but for reservation, chain, frontier, cursor and overrun. -/
theorem State.roomRecord_frame (s : State) (i : StreamId) (drop : Option DataSeg) : { s.roomRecord i drop with
    reserved := (s.streams[i]'i.isLt).reserved, chain := (s.streams[i]'i.isLt).chain,
    volatileFrontier := (s.streams[i]'i.isLt).volatileFrontier
    cursor := (s.streams[i]'i.isLt).cursor, overrun := (s.streams[i]'i.isLt).overrun, notices := (s.streams[i]'i.isLt).notices }
        = (s.streams[i]'i.isLt) := by
  cases drop <;> rfl

theorem State.roomRecord_reserved (s : State) (i : StreamId) (drop : Option DataSeg) :
    (s.roomRecord i drop).reserved = (s.streams[i]'i.isLt).reserved + 1 := by
  cases drop <;> rfl

/-- The state in which an APPEND that needs a new segment has been accepted, before the engine selects (R58). -/
def State.admitted (i : StreamId) (tag : Byte) (payload : List Byte) (drop : Option DataSeg) (s : State) : State :=
  (s.makeRoom i drop).numbered i tag payload .new

theorem State.acceptNew_eq (s : State) (i : StreamId) (tag : Byte) (payload : List Byte) (drop : Option DataSeg) :
    s.acceptNew i tag payload drop
      = (s.admitted i tag payload drop).acceptEnd i (decide ((s.roomRecord i drop).cursor ≠ (s.streams[i]'i.isLt).cursor)) s.available := by
  have hq : ((s.makeRoom i drop).streams[i]'i.isLt).nextSeq = (s.streams[i]'i.isLt).nextSeq := by
    have hq := congrArg Stream.nextSeq (s.roomRecord_frame i drop)
    rw [State.makeRoom_same]
    exact hq
  unfold State.acceptNew State.acceptEnd State.admitted State.numbered
  dsimp only
  rw [hq, ← State.makeRoom_same]
  change State.evalPool s.available (if ((s.makeRoom i drop).streams[i]'i.isLt).cursor = (s.streams[i]'i.isLt).cursor then _ else _) = _
  by_cases h : ((s.makeRoom i drop).streams[i]'i.isLt).cursor = (s.streams[i]'i.isLt).cursor
  · rw [if_pos h, if_neg (by simpa using h)]
    rfl
  · rw [if_neg h, if_pos (by simpa using h)]
    rfl

section Admitted

variable (s) (i : StreamId) (tag : Byte) (payload : List Byte) (drop : Option DataSeg)

theorem State.admitted_same : ((s.admitted i tag payload drop).streams[i]'i.isLt) = (s.roomRecord i drop).numbered := by
  rw [State.admitted, State.numbered_eq, State.makeRoom_same]
  simp

theorem State.admitted_other {j : StreamId} (h : j ≠ i) : ((s.admitted i tag payload drop).streams[j]'j.isLt) = (s.streams[j]'j.isLt) := by
  have h' : i.val ≠ j.val := fun e => h (Fin.ext e.symm)
  rw [← State.makeRoom_other s i drop h, State.admitted, State.numbered_eq]
  simp [h']

theorem State.roomRecord_nextSeq : (s.roomRecord i drop).nextSeq = (s.streams[i]'i.isLt).nextSeq := by
  have h := congrArg Stream.nextSeq (s.roomRecord_frame i drop)
  exact h

/-- What an acceptance leaves of the rest of the state, before its end. -/
theorem State.admitted_rest : (s.admitted i tag payload drop).pool = s.pool ∧ (s.admitted i tag payload drop).reclaim = s.reclaim
    ∧ (s.admitted i tag payload drop).array = s.array ∧ (s.admitted i tag payload drop).guard = s.guard
    ∧ (s.admitted i tag payload drop).engine = s.engine ∧ (s.admitted i tag payload drop).poolBelow = s.poolBelow
    ∧ (s.admitted i tag payload drop).staging = s.staging ++ [s.stagedEntry i tag payload .new]
    ∧ (s.admitted i tag payload drop).port = { s.port with receipt := some (i, (s.streams[i]'i.isLt).nextSeq) } := by
  have hq := s.roomRecord_nextSeq i drop
  rw [State.admitted, State.numbered_eq, State.stagedEntry, State.makeRoom_same, hq]
  cases drop with
  | none => exact ⟨rfl, rfl, rfl, rfl, rfl, rfl, rfl, rfl⟩
  | some d =>
    rw [State.makeRoom_some]
    exact ⟨rfl, rfl, rfl, rfl, rfl, rfl, rfl, rfl⟩

/-- The room that an acceptance makes shows in the available count (R57). -/
theorem State.admitted_available : (s.admitted i tag payload drop).available = s.available - 1 := by
  have htotal := totalReserved_change (s := s) (t := s.admitted i tag payload drop) i fun j hj => by rw [State.admitted_other _ _ _ _ _ hj]
  have hr : ((s.admitted i tag payload drop).streams[i]'i.isLt).reserved = (s.streams[i]'i.isLt).reserved + 1 := by
    rw [State.admitted_same, ← State.roomRecord_reserved s i drop]
    unfold Stream.numbered
    split <;> rfl
  rw [hr] at htotal
  rw [State.available, State.available, (s.admitted_rest i tag payload drop).1]
  omega

/-- An IDLE engine finds the accepted record's entry at the head, with a pool segment for it (R108, R114). -/
theorem admitted_proceeds (hs : s.engineSound = true) (hp : s.power = .active) (hav : 1 ≤ s.available) :
    (s.admitted i tag payload drop).engine.state = .idle →
      (s.admitted i tag payload drop).Proceeds (s.admitted i tag payload drop).staging := by
  obtain ⟨hpool, -, -, -, hengine, -, hstaging, -⟩ := s.admitted_rest i tag payload drop
  rw [hengine, hstaging]
  intro hi e he
  rw [(noWork_of_idle hs hp hi).1] at he
  obtain rfl : s.stagedEntry i tag payload .new = e := by simpa using he
  refine ⟨fun _ hn => ?_, fun h => by cases h⟩
  rw [hpool] at hn
  rw [State.available, hn] at hav
  simp only [List.length_nil] at hav
  omega

/-- What an accepted APPEND with a new segment leaves (R58). -/
theorem acceptNew_ends (hs : s.engineSound = true) (hp : s.power = .active) (hav : 1 ≤ s.available) :
    (s.admitted i tag payload drop).AcceptEnds (s.acceptNew i tag payload drop) i
      (decide ((s.roomRecord i drop).cursor ≠ (s.streams[i]'i.isLt).cursor)) := by
  rw [State.acceptNew_eq]
  exact acceptEnds i _ _ (admitted_proceeds s i tag payload drop hs hp hav)

end Admitted

/-! ### The frame of an APPEND (R12, R50) -/

/-- The port after the frame of an accepted APPEND (R12, R18). -/
def State.receiptPort (s : State) (n : Nat) (i : StreamId) (q : Nat) : Port :=
  { s.framePort n .done false false with receipt := some (i, q) }

/-- A plain action frame whose body stages a record (R12, R58). -/
theorem actionFrame_stages {n : Nat} {i : StreamId} {q : Nat} {body : State → State × OutcomeCode} (h : Serving s)
    (hb : body s.beginFrame = (u, .done)) (hu : u.port = { s.beginFrame.port with receipt := some (i, q) }) :
    actionFrame .plain n body s = .next { u with port := s.receiptPort n i q } := by
  rw [actionFrame_serving h, hb, State.receiptPort, State.framePort]
  show Host.Outcome.next ({ u with port := { u.port with
    frameState := .idle, byteCounter := n, snapshot := none, outcome := .done, armLatch := false, resetEnable := false
    sout := u.port.frameOutput n } } : State) = _
  rw [hu]
  rfl

theorem exec_append {b tag : Byte} {l : Word16} {payload : List Byte} (h : payload.length = l.toNat) :
    exec (.append b tag l payload) s = actionFrame .plain (5 + payload.length) (State.appendBody b tag l payload) s := if_pos h

section Checks

variable {b tag : Byte} {l : Word16} {payload : List Byte} {i : StreamId}

/-- An APPEND passes the checks before placement (R50). -/
structure State.Appendable (s : State) (b : Byte) (l : Word16) (i : StreamId) : Prop where
  stream : b.toNat = i.val
  pos : 1 ≤ l.toNat
  le : l.toNat ≤ 1012
  unlocked : s.guard.appendLocks.getLsbD i.val = false
  noFormat : s.engine.formatRuns = false
  opened : (s.streams[i]'i.isLt).state = .opened
  fits : footprint l.toNat ≤ s.freeStaging
  room : s.staging.length < 16

/-- An APPEND that comes to placement ends as placement does (R50, R54 to R58). -/
theorem appendBody_placed (h : s.Appendable b l i) (p : Port) : State.appendBody b tag l payload { s with port := p } =
    match s.place i (footprint l.toNat) with
    | .current => (State.acceptCurrent i tag payload { s with port := p }, .done)
    | .new drop => (State.acceptNew i tag payload drop { s with port := p }, .done)
    | .quotaFull => ((State.notify i .quotaHit { s with port := p }).raise .quotaHit, .quotaFull)
    | .poolEmpty => (State.raise .poolEmpty { s with port := p }, .poolEmpty) := by
  obtain ⟨hb, h1, h2, hlock, hf, ho, hfit, hroom⟩ := h
  have hlen : ¬ (l.toNat = 0 ∨ Config.maxPayload < l.toNat) := by
    rw [show Config.maxPayload = 1012 from rfl]
    omega
  have hfull : ¬ (s.freeStaging < footprint l.toNat ∨ Config.stagingEntries ≤ s.staging.length) := by
    rw [show Config.stagingEntries = 16 from rfl]
    omega
  unfold State.appendBody
  simp only [streamOf_of_toNat hb]
  rw [if_neg hlen, if_neg (show ¬ s.guard.appendLocks.getLsbD i.val = true by rw [hlock]; decide),
    if_neg (show ¬ s.engine.formatRuns = true by rw [hf]; decide),
        if_neg (show ¬ (s.streams[i]'i.isLt).state ≠ .opened by simp [-Fin.getElem_fin, ho])]
  rw [if_neg (show ¬ (State.freeStaging { s with port := p } < _ ∨ _) from hfull)]
  rfl

end Checks

/-! ### Placement (R54 to R57) -/

theorem place_current {i : StreamId} {fp free : Nat} (h : s.projectedFree i = some free) (hf : fp ≤ free) : s.place i fp = .current := by
  unfold State.place
  simp only [h]
  exact if_pos hf

theorem place_needsNew {i : StreamId} {fp : Nat} (h : ∀ free, s.projectedFree i = some free → free < fp) : s.place i fp = s.placeNew i := by
  unfold State.place
  cases hp : s.projectedFree i with
  | none => rfl
  | some free => exact if_neg (Nat.not_le.2 (h free hp))

theorem placeNew_below {i : StreamId} (h : (s.streams[i]'i.isLt).held < (s.streams[i]'i.isLt).quota) :
    s.placeNew i = s.ifAvailable none := if_pos h

theorem placeNew_block {i : StreamId} (h : (s.streams[i]'i.isLt).quota ≤ (s.streams[i]'i.isLt).held)
    (hp : (s.streams[i]'i.isLt).policy = .block) :
    s.placeNew i = .quotaFull := by
  unfold State.placeNew
  rw [if_neg (Nat.not_lt.2 h)]
  simp only [hp]

theorem placeNew_wrap {i : StreamId} (h : (s.streams[i]'i.isLt).quota ≤ (s.streams[i]'i.isLt).held)
    (hp : (s.streams[i]'i.isLt).policy = .wrap) :
    (s.dropCandidate i = none → s.placeNew i = .quotaFull)
      ∧ ∀ d, s.dropCandidate i = some d → s.placeNew i = s.ifAvailable (some d) := by
  unfold State.placeNew
  rw [if_neg (Nat.not_lt.2 h)]
  simp only [hp]
  exact ⟨fun hd => by rw [hd], fun d hd => by rw [hd]⟩

theorem ifAvailable_some (h : 1 ≤ s.available) (drop : Option DataSeg) : s.ifAvailable drop = .new drop := if_pos h

theorem ifAvailable_none (h : s.available < 1) (drop : Option DataSeg) : s.ifAvailable drop = .poolEmpty := if_neg (by omega)

/-- A new segment is taken only where one is available (R57). -/
theorem available_of_place {i : StreamId} {fp : Nat} {drop : Option DataSeg} (h : s.place i fp = .new drop) : 1 ≤ s.available := by
  have hav : ∀ x, s.ifAvailable x = .new drop → 1 ≤ s.available := fun x hx => by
    by_contra hn
    rw [ifAvailable_none (by omega)] at hx
    cases hx
  have hnew : s.placeNew i = .new drop → 1 ≤ s.available := by
    unfold State.placeNew
    split
    · exact hav _
    · split
      · intro hx
        cases hx
      · split
        · exact hav _
        · intro hx
          cases hx
  unfold State.place at h
  split at h
  · split at h
    · cases h
    · exact hnew h
  · exact hnew h

/-! ### How an APPEND ends (R50, R54 to R58) -/

section Ends

variable {b tag : Byte} {l : Word16} {payload : List Byte} {i : StreamId}

theorem State.acceptCurrent_eq (s : State) (i : StreamId) (tag : Byte) (payload : List Byte) :
    s.acceptCurrent i tag payload = (s.numbered i tag payload .current).selectIfIdle := rfl

/-- An APPEND that placement puts into the current segment. -/
theorem exec_append_current (h : Serving s) (hl : payload.length = l.toNat) (ha : s.Appendable b l i)
    (hp : s.place i (footprint l.toNat) = .current) :
    ∃ p : Port, exec (.append b tag l payload) s = .next { State.acceptCurrent i tag payload { s with port := p } with
      port := s.receiptPort (5 + payload.length) i (s.streams[i]'i.isLt).nextSeq } := by
  refine ⟨s.beginFrame.port, ?_⟩
  rw [exec_append hl]
  refine actionFrame_stages h ?_ ?_
  · rw [beginFrame_eq s, appendBody_placed ha, hp]
  · rw [State.acceptCurrent_eq, (kept_selectIfIdle _).port, State.numbered_eq]

/-- An APPEND that placement gives a new segment. -/
theorem exec_append_new (h : Serving s) (hs : s.engineSound = true) (hl : payload.length = l.toNat) (ha : s.Appendable b l i)
    {drop : Option DataSeg} (hp : s.place i (footprint l.toNat) = .new drop) :
    ∃ p : Port, exec (.append b tag l payload) s = .next { State.acceptNew i tag payload drop { s with port := p } with
      port := s.receiptPort (5 + payload.length) i (s.streams[i]'i.isLt).nextSeq } := by
  refine ⟨s.beginFrame.port, ?_⟩
  rw [exec_append hl]
  refine actionFrame_stages h ?_ ?_
  · rw [beginFrame_eq s, appendBody_placed ha, hp]
  · have hends := acceptNew_ends { s with port := s.beginFrame.port } i tag payload drop hs h.active (available_of_place hp)
    rw [hends.kept.port, (State.admitted_rest { s with port := s.beginFrame.port } i tag payload drop).2.2.2.2.2.2.2]

/-- An APPEND at its quota without room to make (R55, R56). -/
theorem exec_append_quotaFull (h : Serving s) (hl : payload.length = l.toNat) (ha : s.Appendable b l i)
    (hp : s.place i (footprint l.toNat) = .quotaFull) : exec (.append b tag l payload) s = .next { s with
      port := s.framePort (5 + payload.length) .quotaFull false false
      streams := s.streams.set i.val { (s.streams[i]'i.isLt) with notices := (s.streams[i]'i.isLt).notices ||| 0x04 }
      eventLatch := s.eventLatch ||| 0x0008 } := by
  rw [exec_append hl]
  refine actionFrame_plain h (u := (State.notify i .quotaHit { s with port := s.beginFrame.port }).raise .quotaHit) ?_ rfl rfl
  rw [beginFrame_eq s, appendBody_placed ha, hp]

/-- An APPEND that finds no segment available (R57). -/
theorem exec_append_poolEmpty (h : Serving s) (hl : payload.length = l.toNat) (ha : s.Appendable b l i)
    (hp : s.place i (footprint l.toNat) = .poolEmpty) : exec (.append b tag l payload) s = .next { s with
      port := s.framePort (5 + payload.length) .poolEmpty false false, eventLatch := s.eventLatch ||| 0x0040 } := by
  rw [exec_append hl]
  refine actionFrame_plain h (u := State.raise .poolEmpty { s with port := s.beginFrame.port }) ?_ rfl rfl
  rw [beginFrame_eq s, appendBody_placed ha, hp]

/-! ### Refusals before placement (R49, R50) -/

theorem append_frameLength (h : Serving s) (hl : payload.length ≠ l.toNat) : exec (.append b tag l payload) s = .next { s with
    port := s.framePort (5 + payload.length) .frameLength false false, eventLatch := s.eventLatch ||| 0x4000 } := by
  have he : exec (.append b tag l payload) s = malformedFrame .frameLength (5 + payload.length) s := if_neg hl
  rw [he]
  exact malformedFrame_framePort ⟨.inl h.active, h.notIgnored, h.noVerdict⟩ rfl _

theorem append_noStream (h : Serving s) (hl : payload.length = l.toNat) (hb : 8 ≤ b.toNat) :
    Refuses (.append b tag l payload) s (5 + payload.length) .noStream := by
  refine (exec_append hl).trans (actionFrame_refuses h (fun p _ => ?_) rfl)
  unfold State.appendBody
  simp only [streamOf_eq_none hb]
  rfl

theorem append_length (h1 : 1 ≤ l.toNat) (h2 : l.toNat ≤ 1012) : ¬ (l.toNat = 0 ∨ Config.maxPayload < l.toNat) := by
  rw [show Config.maxPayload = 1012 from rfl]
  omega

variable (hb : b.toNat = i.val)

include hb

theorem append_badArgument (h : Serving s) (hl : payload.length = l.toNat) (hn : l.toNat = 0 ∨ 1012 < l.toNat) :
    Refuses (.append b tag l payload) s (5 + payload.length) .badArgument := by
  refine (exec_append hl).trans (actionFrame_refuses h (fun p _ => ?_) rfl)
  unfold State.appendBody
  simp only [streamOf_of_toNat hb]
  exact if_pos hn

variable (h1 : 1 ≤ l.toNat) (h2 : l.toNat ≤ 1012)

include h1 h2

theorem append_guarded (h : Serving s) (hl : payload.length = l.toNat) (hg : s.guard.appendLocks.getLsbD i.val = true) :
    Refuses (.append b tag l payload) s (5 + payload.length) .guarded := by
  refine (exec_append hl).trans (actionFrame_refuses h (fun p _ => ?_) rfl)
  unfold State.appendBody
  simp only [streamOf_of_toNat hb]
  rw [if_neg (append_length h1 h2)]
  exact if_pos hg

variable (hg : s.guard.appendLocks.getLsbD i.val = false)

include hg

theorem append_busy (h : Serving s) (hl : payload.length = l.toNat) (hf : s.engine.formatRuns = true) :
    Refuses (.append b tag l payload) s (5 + payload.length) .busy := by
  refine (exec_append hl).trans (actionFrame_refuses h (fun p _ => ?_) rfl)
  unfold State.appendBody
  simp only [streamOf_of_toNat hb]
  rw [if_neg (append_length h1 h2), if_neg (show ¬ s.guard.appendLocks.getLsbD i.val = true by rw [hg]; decide)]
  exact if_pos hf

variable (hf : s.engine.formatRuns = false)

include hf

theorem append_wrongState (h : Serving s) (hl : payload.length = l.toNat) (ho : (s.streams[i]'i.isLt).state ≠ .opened) :
    Refuses (.append b tag l payload) s (5 + payload.length) .wrongState := by
  refine (exec_append hl).trans (actionFrame_refuses h (fun p _ => ?_) rfl)
  unfold State.appendBody
  simp only [streamOf_of_toNat hb]
  rw [if_neg (append_length h1 h2), if_neg (show ¬ s.guard.appendLocks.getLsbD i.val = true by rw [hg]; decide),
    if_neg (show ¬ s.engine.formatRuns = true by rw [hf]; decide)]
  exact if_pos ho

theorem append_stageFull (h : Serving s) (hl : payload.length = l.toNat) (ho : (s.streams[i]'i.isLt).state = .opened)
    (hfull : s.freeStaging < footprint l.toNat ∨ 16 ≤ s.staging.length) :
    Refuses (.append b tag l payload) s (5 + payload.length) .stageFull := by
  refine (exec_append hl).trans (actionFrame_refuses h (fun p _ => ?_) rfl)
  unfold State.appendBody
  simp only [streamOf_of_toNat hb]
  rw [if_neg (append_length h1 h2), if_neg (show ¬ s.guard.appendLocks.getLsbD i.val = true by rw [hg]; decide),
    if_neg (show ¬ s.engine.formatRuns = true by rw [hf]; decide),
        if_neg (show ¬ (s.streams[i]'i.isLt).state ≠ .opened by simp [-Fin.getElem_fin, ho])]
  exact if_pos hfull

end Ends

/-! ### Into the current segment (R54, R58) -/

theorem Stream.numbered_next {t : Stream} (h : t.nextSeq ≠ 0xFFFFFFFE) : t.numbered = { t with nextSeq := t.nextSeq + 1 } := if_neg h

theorem Stream.numbered_last {t : Stream} (h : t.nextSeq = 0xFFFFFFFE) :
    t.numbered = { t with nextSeq := 0xFFFFFFFF, state := .sealed, notices := t.notices ||| 0x20 } := by
  rw [Stream.numbered, if_pos (show t.nextSeq = Config.lastSequence from h), h]

/-- An IDLE engine finds the entry at the head, and the entry is for the current segment (R108, R114). -/
theorem numbered_proceeds (i : StreamId) (tag : Byte) (payload : List Byte) (hs : s.engineSound = true) (hp : s.power = .active) :
    (s.numbered i tag payload .current).engine.state = .idle →
      (s.numbered i tag payload .current).Proceeds (s.numbered i tag payload .current).staging := by
  rw [State.numbered_eq]
  intro hi e he
  obtain rfl : s.stagedEntry i tag payload .current = e := by simpa [(noWork_of_idle hs hp hi).1] using he
  exact ⟨fun h => (by cases h), fun h => (by cases h)⟩

/-- What an APPEND into the current segment leaves (R58). -/
theorem acceptCurrent_spec (i : StreamId) (tag : Byte) (payload : List Byte) (hs : s.engineSound = true) (hp : s.power = .active) :
    s.acceptCurrent i tag payload = { s.numbered i tag payload .current with engine := (s.acceptCurrent i tag payload).engine }
      ∧ (s.engine.state = .idle → (s.acceptCurrent i tag payload).Selected s.engine.preempted)
      ∧ (s.engine.state ≠ .idle → (s.acceptCurrent i tag payload).engine = s.engine) := by
  have heng : (s.numbered i tag payload .current).engine = s.engine := by rw [State.numbered_eq]
  refine ⟨selectIfIdle_of_proceeds (numbered_proceeds i tag payload hs hp), fun hi => ?_, fun hi => ?_⟩
  · rw [← heng]
    exact selectIfIdle_selected (s := s.numbered i tag payload .current) (heng ▸ hi)
  · rw [State.acceptCurrent_eq, selectIfIdle_busy (by rw [heng]; exact hi), heng]

/-- Settles O32: the record is staged into the current segment; the refusals before placement. -/
theorem appendIntoCurrentSegment : Obligations.AppendIntoCurrentSegment := by
  refine ⟨fun s b tag l payload i free h hs hb hl h1 h2 hg hf ho hfit hroom hfree hle hq => ?_, fun s b tag l payload h => ⟨?_, ?_, ?_⟩⟩
  · obtain ⟨p, hexec⟩ := exec_append_current (tag := tag) h hl ⟨hb, h1, h2, hg, hf, ho, hfit, hroom⟩ (place_current hfree hle)
    obtain ⟨heq, hidle, hbusy⟩ := acceptCurrent_spec (s := { s with port := p }) i tag payload hs h.active
    have hnum := State.numbered_eq { s with port := p } i tag payload .current
    rw [if_neg (show ¬ (s.streams[i]'i.isLt).nextSeq = Config.lastSequence from hq),
        if_neg (show ¬ (s.streams[i]'i.isLt).nextSeq = Config.lastSequence from hq),
      Stream.numbered_next (t := (s.streams[i]'i.isLt)) hq] at hnum
    refine ⟨_, hexec, ?_, fun hi => ?_, hbusy⟩
    · rw [heq, hnum]
      rfl
    · have hsel := hidle hi
      obtain ⟨hst, -, -, htr⟩ := noWork_of_idle hs h.active hi
      have hstaging : (State.acceptCurrent i tag payload { s with port := p }).staging = [s.stagedEntry i tag payload .current] := by
        rw [heq, hnum]
        show s.staging ++ _ = _
        rw [hst]
        rfl
      have hledger : (State.acceptCurrent i tag payload { s with port := p }).ledger = s.ledger := by
        rw [heq, hnum]
      obtain ⟨hrun, -, e, rest, hes, hc, -, -⟩ := hsel.commit (by rw [hledger]; exact htr) (by rw [hstaging]; simp)
      rw [hstaging, List.cons.injEq] at hes
      exact ⟨hrun, hc (hes.1 ▸ rfl)⟩
  · exact fun hl => append_frameLength h hl
  · exact fun hl hb => append_noStream h hl hb
  · exact fun i hl hb => ⟨fun hn => append_badArgument hb h hl hn, fun h1 h2 hg => append_guarded hb h1 h2 h hl hg,
      fun h1 h2 hg hf => append_busy hb h1 h2 hg h hl hf, fun h1 h2 hg hf ho => append_wrongState hb h1 h2 hg hf h hl ho,
      fun h1 h2 hg hf ho hfull => append_stageFull hb h1 h2 hg hf h hl ho hfull⟩

end Sys2Proof.Machine
end

section
/-! APPEND with a new segment, with and without a WRAP drop, and the last sequence (R36, R55 to R59). Settles O33, O34, O35. -/

namespace Sys2Proof.Machine

-- One proof after the other: the stacks of proofs elaborated side by side come near the memory that a check may take.
set_option Elab.async false

open Sys2Proof

variable {s t u : State}

/-! ### The crossings of an acceptance (R168 to R170) -/

section Crossings

variable {v : State} {i : StreamId} {moved : Bool} (h : v.AcceptEnds t i moved)

include h

theorem State.AcceptEnds.heldEvaluated (hside : (v.streams[i]'i.isLt).heldAtOrAbove = (s.streams[i]'i.isLt).heldAtOrAbove)
    (hnotice : (v.streams[i]'i.isLt).notices.getLsbD 0 = (s.streams[i]'i.isLt).notices.getLsbD 0)
    (hlatch : v.eventLatch.getLsbD 1 = s.eventLatch.getLsbD 1) : s.HeldEvaluated t i := by
  refine heldEvaluated_of (r := (v.streams[i]'i.isLt)) hside hnotice ?_ ?_ ?_ ?_
  · rw [h.same]
    cases moved <;> rfl
  · rw [h.same]
    cases moved <;> rfl
  · rw [h.same, Stream.judged_getLsbD, Stream.heldEvaluated_getLsbD]
    simp
  · rw [h.latch 1 (by decide), hlatch]
    simp

theorem State.AcceptEnds.unreadEvaluated (hm : moved = true) (hside : (v.streams[i]'i.isLt).unreadAbove = (s.streams[i]'i.isLt).unreadAbove)
    (hnotice : (v.streams[i]'i.isLt).notices.getLsbD 1 = (s.streams[i]'i.isLt).notices.getLsbD 1)
    (hlatch : v.eventLatch.getLsbD 2 = s.eventLatch.getLsbD 2) : s.UnreadEvaluated t i := by
  subst hm
  refine unreadEvaluated_of (r := (v.streams[i]'i.isLt).heldEvaluated) hside ?_ ?_ ?_ ?_ ?_
  · rw [Stream.heldEvaluated_getLsbD, hnotice]
    simp
  · rw [h.same]
    rfl
  · rw [h.same]
    rfl
  · rw [h.same]
    rfl
  · rw [h.latch 2 (by decide), hlatch]
    simp

theorem State.AcceptEnds.unreadKept (hm : moved = false) (hside : (v.streams[i]'i.isLt).unreadAbove = (s.streams[i]'i.isLt).unreadAbove)
    (hnotice : (v.streams[i]'i.isLt).notices.getLsbD 1 = (s.streams[i]'i.isLt).notices.getLsbD 1)
    (hlatch : v.eventLatch.getLsbD 2 = s.eventLatch.getLsbD 2) : s.UnreadKept t i := by
  subst hm
  refine ⟨?_, ?_, ?_⟩
  · rw [h.same, ← hside]
    rfl
  · rw [h.latch 2 (by decide), hlatch]
    simp
  · rw [h.same, Stream.judged_getLsbD, hnotice]
    simp

end Crossings

/-- The pool side after an acceptance (R170). -/
theorem acceptEnd_poolEvaluated {v : State} (i : StreamId) (moved : Bool) (hb : v.poolBelow = s.poolBelow)
    (he : v.eventLatch.getLsbD 5 = s.eventLatch.getLsbD 5) : s.PoolEvaluated (v.acceptEnd i moved s.available) := by
  have hk : JobKept false false v (if moved then (v.selectIfIdle.evalHeld i).evalUnread i else v.selectIfIdle.evalHeld i) := by
    have hsel : JobKept false false v v.selectIfIdle := (faults_selectIfIdle v).jobKept
    cases moved with
    | true => exact (hsel.trans (jobKept_evalHeld _ i)).trans (jobKept_evalUnread _ i)
    | false => exact hsel.trans (jobKept_evalHeld _ i)
  exact poolEvaluated_evalPool (hk.poolBelow.trans hb) (hk.poolLow.trans he)

/-! ### The admitted record and state (R58, R59) -/

section Admitted

variable {i : StreamId} {tag : Byte} {payload : List Byte} {drop : Option DataSeg}

/-- An accepted record's stream, but for what the room, the number and the sides change. -/
theorem State.roomRecord_getLsbD (s : State) (i : StreamId) {n : Nat} (h : n ≠ 3) :
    (s.roomRecord i drop).notices.getLsbD n = (s.streams[i]'i.isLt).notices.getLsbD n := by
  cases drop with
  | none => rfl
  | some d =>
    have hbit := notice_getLsbD (s.streams[i]'i.isLt).notices .overrun n
    rw [State.roomRecord, Stream.dropped]
    dsimp only
    split
    · exact hbit.trans (by rw [show Notice.overrun.bit = 3 from rfl, beq_false_of_ne h, Bool.or_false])
    · rfl

theorem Stream.numbered_getLsbD (x : Stream) {n : Nat} (h : n ≠ 5) : x.numbered.notices.getLsbD n = x.notices.getLsbD n := by
  have hbit := notice_getLsbD x.notices .sequenceEnd n
  unfold Stream.numbered
  split
  · exact hbit.trans (by rw [show Notice.sequenceEnd.bit = 5 from rfl, beq_false_of_ne h, Bool.or_false])
  · rfl

/-- Numbering a record changes next sequence, state and notices. -/
theorem Stream.numbered_frame (x : Stream) :
    { x.numbered with nextSeq := x.nextSeq, state := x.state, notices := x.notices } = x := by
  unfold Stream.numbered
  split <;> rfl

/-- The events of an acceptance before its end: OVERRUN of the drop, SEQUENCE_END of the last sequence. -/
theorem State.admitted_getLsbD (s : State) (n : Nat) (h4 : n ≠ 4) (h10 : n ≠ 10) :
    (s.admitted i tag payload drop).eventLatch.getLsbD n = s.eventLatch.getLsbD n := by
  have hroom : (s.makeRoom i drop).eventLatch.getLsbD n = s.eventLatch.getLsbD n := by
    cases drop with
    | none => rfl
    | some d =>
      have hbit := State.raise_getLsbD s .overrun n
      rw [State.makeRoom_some]
      dsimp only
      split
      · exact hbit.trans (by rw [show Event.overrun.bit = 4 from rfl, beq_false_of_ne h4, Bool.or_false])
      · rfl
  have hbit := State.raise_getLsbD (s.makeRoom i drop) .sequenceEnd n
  rw [State.admitted, State.numbered_eq, ← hroom]
  dsimp only
  split
  · exact hbit.trans (by rw [show Event.sequenceEnd.bit = 10 from rfl, beq_false_of_ne h10, Bool.or_false])
  · rfl

end Admitted

/-! ### With a reservation, without a drop (R55, R57, R58) -/

/-- An accepted record that is not the last and drops nothing leaves segment table, ledger and events (R58). -/
theorem State.admitted_none (s : State) {i : StreamId} (tag : Byte) (payload : List Byte)
    (hq : (s.streams[i]'i.isLt).nextSeq ≠ 0xFFFFFFFE) :
    (s.admitted i tag payload none).segments = s.segments ∧ (s.admitted i tag payload none).ledger = s.ledger
      ∧ (s.admitted i tag payload none).eventLatch = s.eventLatch
      ∧ ((s.admitted i tag payload none).streams[i]'i.isLt)
          = { (s.streams[i]'i.isLt).reserving with nextSeq := (s.streams[i]'i.isLt).nextSeq + 1 } := by
  have hn : ¬ ((s.makeRoom i none).streams[i]'i.isLt).nextSeq = Config.lastSequence := by
    rw [State.makeRoom_same, State.roomRecord_nextSeq]
    exact hq
  refine ⟨?_, ?_, ?_, ?_⟩
  · rw [State.admitted, State.numbered_eq]
    rfl
  · rw [State.admitted, State.numbered_eq, if_neg hn]
    rfl
  · rw [State.admitted, State.numbered_eq, if_neg hn, if_neg hn]
    rfl
  · rw [State.admitted_same]
    exact Stream.numbered_next (t := s.roomRecord i none) hq

/-- Without a drop the cursor does not move. -/
theorem State.room_unmoved (s : State) (i : StreamId) : decide ((s.roomRecord i none).cursor ≠ (s.streams[i]'i.isLt).cursor) = false :=
  decide_eq_false fun h => h rfl

/-- An accepted APPEND that takes a reservation and drops nothing (R57, R58). -/
theorem append_reserves {b tag : Byte} {l : Word16} {payload : List Byte} {i : StreamId} (h : Serving s)
    (hs : s.engineSound = true) (hl : payload.length = l.toNat) (ha : s.Appendable b l i)
    (hp : s.place i (footprint l.toNat) = .new none) (hq : (s.streams[i]'i.isLt).nextSeq ≠ 0xFFFFFFFE) :
    ∃ t, exec (.append b tag l payload) s = .next t ∧ t.port.outcome = .done
      ∧ t.port.receipt = some (i, (s.streams[i]'i.isLt).nextSeq)
      ∧ t.staging = s.staging ++ [{ stream := i, seq := (s.streams[i]'i.isLt).nextSeq, tag := tag, payload := payload
                                    placement := .new }]
      ∧ (t.streams[i]'i.isLt).reserved = (s.streams[i]'i.isLt).reserved + 1
          ∧ (t.streams[i]'i.isLt).nextSeq = (s.streams[i]'i.isLt).nextSeq + 1
      ∧ (t.streams[i]'i.isLt).held = (s.streams[i]'i.isLt).held + 1 ∧ t.available = s.available - 1
      ∧ (t.streams[i]'i.isLt).chain = (s.streams[i]'i.isLt).chain ∧ (t.streams[i]'i.isLt).cursor = (s.streams[i]'i.isLt).cursor
      ∧ (t.streams[i]'i.isLt).volatileFrontier = (s.streams[i]'i.isLt).volatileFrontier
      ∧ s.HeldEvaluated t i ∧ s.UnreadKept t i ∧ s.PoolEvaluated t
      ∧ (∀ n : Nat, n ≠ 1 → n ≠ 5 → t.eventLatch.getLsbD n = s.eventLatch.getLsbD n)
      ∧ (s.engine.state = .idle → t.engine.state = .running ∧ t.CommitDecided)
      ∧ (s.engine.state ≠ .idle → t.engine = s.engine)
      ∧ (∀ j : StreamId, j ≠ i → (t.streams[j]'j.isLt) = (s.streams[j]'j.isLt))
      ∧ t.segments = s.segments ∧ t.pool = s.pool ∧ t.reclaim = s.reclaim ∧ t.ledger = s.ledger ∧ t.array = s.array
      ∧ t.guard = s.guard := by
  obtain ⟨p, hexec⟩ := exec_append_new (tag := tag) h hs hl ha hp
  have hends := acceptNew_ends { s with port := p } i tag payload none hs h.active (available_of_place hp)
  obtain ⟨hgAdm, hlAdm, heAdm, hrAdm⟩ := State.admitted_none { s with port := p } tag payload hq
  obtain ⟨hpool, hreclaim, harray, hguard, hengine, hbelow, hstaging, -⟩ := State.admitted_rest { s with port := p } i tag payload none
  have havail := State.admitted_available { s with port := p } i tag payload none
  have hothers := fun j hj => State.admitted_other { s with port := p } i tag payload none (j := j) hj
  have hpoolSide : s.PoolEvaluated (State.acceptNew i tag payload none { s with port := p }) := by
    rw [State.acceptNew_eq]
    exact acceptEnd_poolEvaluated (s := s) i _ hbelow (by rw [heAdm])
  rw [State.room_unmoved] at hends
  refine ⟨_, hexec, rfl, rfl, ?_⟩
  generalize State.acceptNew i tag payload none { s with port := p } = t at hends hpoolSide ⊢
  generalize State.admitted i tag payload none { s with port := p } = v at *
  have hrec : (t.streams[i]'i.isLt)
      = ({ (s.streams[i]'i.isLt).reserving with nextSeq := (s.streams[i]'i.isLt).nextSeq + 1 } : Stream).heldEvaluated := by
    rw [hends.same, hrAdm]
    rfl
  have hheld : s.HeldEvaluated t i := hends.heldEvaluated (by rw [hrAdm]; rfl) (by rw [hrAdm]; rfl) (by rw [heAdm])
  have hunread : s.UnreadKept t i := hends.unreadKept rfl (by rw [hrAdm]; rfl) (by rw [hrAdm]; rfl) (by rw [heAdm])
  have hselected : s.engine.state = .idle → t.engine.state = .running ∧ t.CommitDecided := by
    intro hi
    have hsel := hends.selected (by rw [hengine]; exact hi)
    obtain ⟨-, -, -, htr⟩ := noWork_of_idle hs h.active hi
    have hne : t.staging ≠ [] := by
      rw [hends.staging, hstaging]
      simp
    obtain ⟨h1, -, h2⟩ := hsel.commit (by rw [hends.ledger, hlAdm]; exact htr) hne
    exact ⟨h1, h2⟩
  have hheldCount : (t.streams[i]'i.isLt).held = (s.streams[i]'i.isLt).held + 1 := by
    rw [hrec]
    rfl
  refine ⟨hends.staging.trans hstaging, ?_, ?_, hheldCount, hends.available.trans havail, ?_, ?_, ?_,
    hheld.of_eq rfl rfl, ⟨hunread.side, hunread.event, hunread.notice⟩, ⟨hpoolSide.kept, hpoolSide.side, hpoolSide.event⟩,
        fun n h1 h5 => ?_,
    fun hi => ?_, fun hi => (hends.engine (by rw [hengine]; exact hi)).trans hengine, fun j hj => (hends.others j hj).trans (hothers j hj),
    hends.segments.trans hgAdm, hends.pool.trans hpool, hends.reclaim.trans hreclaim, hends.ledger.trans hlAdm,
    hends.kept.array.trans harray, hends.kept.guard.trans hguard⟩
  · rw [hrec]
    rfl
  · rw [hrec]
    rfl
  · rw [hrec]
    rfl
  · rw [hrec]
    rfl
  · rw [hrec]
    rfl
  · rw [hends.latch n h5, heAdm, beq_false_of_ne h1]
    simp
  · obtain ⟨h1, h2⟩ := hselected hi
    exact ⟨h1, h2.congr rfl rfl rfl rfl fun j => ⟨rfl, rfl⟩⟩

/-- Settles O33: the reservation below the quota, and the two refusals. -/
theorem appendIntoNewSegment : Obligations.AppendIntoNewSegment := by
  intro s b tag l payload i h hb hl h1 h2 hg hf ho hfit hroom hfree
  have ha : s.Appendable b l i := ⟨hb, h1, h2, hg, hf, ho, hfit, hroom⟩
  have hplace := place_needsNew (i := i) hfree
  refine ⟨fun hs hheld hav hq => ?_, fun hheld hpol => ?_, fun hheld hav => ?_⟩
  · exact append_reserves h hs hl ha (hplace.trans ((placeNew_below hheld).trans (ifAvailable_some hav none))) hq
  · exact exec_append_quotaFull h hl ha (hplace.trans (placeNew_block hheld hpol))
  · exact exec_append_poolEmpty h hl ha (hplace.trans ((placeNew_below hheld).trans (ifAvailable_none hav none)))

/-! ### With a WRAP drop (R56, R58, R59) -/

/-- A drop candidate is the oldest segment of its chain (R56). -/
theorem dropCandidate_head {i : StreamId} {d : DataSeg} (h : s.dropCandidate i = some d) :
    (s.streams[i]'i.isLt).chain = d :: (s.streams[i]'i.isLt).chain.tail := by
  unfold State.dropCandidate at h
  cases hc : (s.streams[i]'i.isLt).chain with
  | nil =>
    simp only [hc] at h
    cases h
  | cons k ks =>
    simp only [hc] at h
    split at h
    · cases h
      rfl
    · cases h

/-- The record of a stream that has dropped a segment and taken a reservation and a sequence (R58, R59). -/
def State.droppedRecord (s : State) (i : StreamId) (d : DataSeg) : Stream :=
  { (s.streams[i]'i.isLt).reserving.dropped (s.segments[d]'d.isLt) with nextSeq := (s.streams[i]'i.isLt).nextSeq + 1 }

/-- What an accepted record that is not the last leaves with a drop, before the acceptance's end (R58, R59). -/
theorem State.admitted_some (s : State) {i : StreamId} (d : DataSeg) (tag : Byte) (payload : List Byte)
    (hq : (s.streams[i]'i.isLt).nextSeq ≠ 0xFFFFFFFE) :
    (s.admitted i tag payload (some d)).segments
        = s.segments.set d.val { (s.segments[d]'d.isLt) with location := .release, release := some (.frontier (s.segments[d]'d.isLt).last) }
      ∧ (s.admitted i tag payload (some d)).ledger = { s.ledger with pendingNotes := s.ledger.pendingNotes.set i.val true }
      ∧ (s.admitted i tag payload (some d)).eventLatch
        = (if 0 < (s.segments[d]'d.isLt).overrunBy (s.streams[i]'i.isLt).volatileFrontier then s.eventLatch ||| 0x0010 else s.eventLatch)
      ∧ ((s.admitted i tag payload (some d)).streams[i]'i.isLt) = s.droppedRecord i d := by
  have hn : ¬ ((s.makeRoom i (some d)).streams[i]'i.isLt).nextSeq = Config.lastSequence := by
    rw [State.makeRoom_same, State.roomRecord_nextSeq]
    exact hq
  refine ⟨?_, ?_, ?_, ?_⟩
  · rw [State.admitted, State.numbered_eq, State.makeRoom_some]
  · rw [State.admitted, State.numbered_eq, if_neg hn, State.makeRoom_some]
  · rw [State.admitted, State.numbered_eq, if_neg hn, if_neg hn, State.makeRoom_some]
  · rw [State.admitted_same]
    exact Stream.numbered_next (t := s.roomRecord i (some d)) hq

/-- OVERRUN and its notice where records above the frontier are dropped (R59). -/
theorem overrun_getLsbD (s : State) (i : StreamId) (d : DataSeg) :
    (max (s.streams[i]'i.isLt).volatileFrontier ((s.segments[d]'d.isLt).first - 1) < (s.segments[d]'d.isLt).last →
        (if 0 < (s.segments[d]'d.isLt).overrunBy (s.streams[i]'i.isLt).volatileFrontier then s.eventLatch ||| 0x0010
            else s.eventLatch).getLsbD 4 = true
          ∧ (s.droppedRecord i d).notices.getLsbD 3 = true)
      ∧ ((s.segments[d]'d.isLt).last ≤ max (s.streams[i]'i.isLt).volatileFrontier ((s.segments[d]'d.isLt).first - 1) →
        (if 0 < (s.segments[d]'d.isLt).overrunBy (s.streams[i]'i.isLt).volatileFrontier then s.eventLatch ||| 0x0010
            else s.eventLatch) = s.eventLatch
          ∧ (s.droppedRecord i d).notices = (s.streams[i]'i.isLt).notices) := by
  have hnotice : (s.droppedRecord i d).notices = if 0 < (s.segments[d]'d.isLt).overrunBy (s.streams[i]'i.isLt).volatileFrontier
    then (s.streams[i]'i.isLt).notices ||| 0x08 else (s.streams[i]'i.isLt).notices := rfl
  rw [hnotice]
  refine ⟨fun h => ?_, fun h => ?_⟩
  · have hpos : 0 < (s.segments[d]'d.isLt).overrunBy (s.streams[i]'i.isLt).volatileFrontier := Nat.sub_pos_of_lt h
    have hevent := State.raise_getLsbD s .overrun 4
    have hbit := notice_getLsbD (s.streams[i]'i.isLt).notices .overrun 3
    rw [if_pos hpos, if_pos hpos]
    exact ⟨hevent.trans (by simp [Event.bit]), hbit.trans (by simp [Notice.bit])⟩
  · have hzero : ¬ 0 < (s.segments[d]'d.isLt).overrunBy (s.streams[i]'i.isLt).volatileFrontier := by
      rw [Segment.overrunBy, Nat.sub_eq_zero_of_le h]
      decide
    rw [if_neg hzero, if_neg hzero]
    exact ⟨rfl, rfl⟩

/-- What an accepted APPEND with a drop leaves before the acceptance's end, seen from the state before the frame. -/
structure State.DropAdmitted (s v : State) (i : StreamId) (d : DataSeg) (x : Entry) : Prop where
  segments : v.segments = s.segments.set d.val { (s.segments[d]'d.isLt) with
      location := .release, release := some (.frontier (s.segments[d]'d.isLt).last) }
  ledger : v.ledger = { s.ledger with pendingNotes := s.ledger.pendingNotes.set i.val true }
  overrun : max (s.streams[i]'i.isLt).volatileFrontier ((s.segments[d]'d.isLt).first - 1) < (s.segments[d]'d.isLt).last →
    v.eventLatch.getLsbD 4 = true ∧ (s.droppedRecord i d).notices.getLsbD 3 = true
  noOverrun : (s.segments[d]'d.isLt).last ≤ max (s.streams[i]'i.isLt).volatileFrontier ((s.segments[d]'d.isLt).first - 1) →
    v.eventLatch.getLsbD 4 = s.eventLatch.getLsbD 4 ∧ (s.droppedRecord i d).notices.getLsbD 3 = (s.streams[i]'i.isLt).notices.getLsbD 3
  latch : ∀ n : Nat, n ≠ 4 → n ≠ 10 → v.eventLatch.getLsbD n = s.eventLatch.getLsbD n
  record : (v.streams[i]'i.isLt) = s.droppedRecord i d
  others : ∀ j : StreamId, j ≠ i → (v.streams[j]'j.isLt) = (s.streams[j]'j.isLt)
  pool : v.pool = s.pool
  array : v.array = s.array
  engine : v.engine = s.engine
  below : v.poolBelow = s.poolBelow
  staging : v.staging = s.staging ++ [x]
  available : v.available = s.available - 1

theorem dropAdmitted (s : State) {i : StreamId} (d : DataSeg) (tag : Byte) (payload : List Byte) (p : Port)
    (hq : (s.streams[i]'i.isLt).nextSeq ≠ 0xFFFFFFFE) :
    s.DropAdmitted (State.admitted i tag payload (some d) { s with port := p }) i d (s.stagedEntry i tag payload .new) := by
  obtain ⟨hg, hl, he, hr⟩ := State.admitted_some { s with port := p } d tag payload hq
  obtain ⟨hpool, -, harray, -, hengine, hbelow, hstaging, -⟩ := State.admitted_rest { s with port := p } i tag payload (some d)
  obtain ⟨hover, hnone⟩ := overrun_getLsbD s i d
  refine ⟨hg, hl, fun h => ?_, fun h => ?_, State.admitted_getLsbD { s with port := p }, hr,
    fun j hj => State.admitted_other { s with port := p } i tag payload (some d) hj, hpool, harray, hengine, hbelow, hstaging,
    State.admitted_available { s with port := p } i tag payload (some d)⟩
  · rw [he]
    exact hover h
  · rw [he]
    exact ⟨congrArg (fun x : Word16 => x.getLsbD 4) (hnone h).1, by rw [(hnone h).2]⟩

section Drops

variable {v : State} {i : StreamId} {d : DataSeg} {x : Entry} (hv : s.DropAdmitted v i d x)
  (ht : v.AcceptEnds t i (decide ((s.droppedRecord i d).cursor ≠ (s.streams[i]'i.isLt).cursor)))

include hv ht

/-- What an accepted APPEND with a drop leaves of its stream's record, but for the sides and the notices (R58, R59). -/
theorem drop_record : { (t.streams[i]'i.isLt) with
    notices := (s.droppedRecord i d).notices, heldAtOrAbove := (s.droppedRecord i d).heldAtOrAbove
    unreadAbove := (s.droppedRecord i d).unreadAbove } = s.droppedRecord i d := by
  have h := Stream.judged_frame (decide ((s.droppedRecord i d).cursor ≠ (s.streams[i]'i.isLt).cursor)) (s.droppedRecord i d)
  have hsame := ht.same
  rw [hv.record] at hsame
  rw [← hsame] at h
  exact h

/-- The segments after a drop (R59). -/
theorem drop_segments : (t.segments[d]'d.isLt)
    = { (s.segments[d]'d.isLt) with location := .release, release := some (.frontier (s.segments[d]'d.isLt).last) }
    ∧ ∀ k : DataSeg, k ≠ d → (t.segments[k]'k.isLt) = (s.segments[k]'k.isLt) := by
  rw [ht.segments, hv.segments]
  refine ⟨Vector.getElem_set_self _, fun k hk => ?_⟩
  exact Vector.getElem_set_ne _ _ fun e => hk (Fin.ext e.symm)

/-- OVERRUN and its notice after a drop (R59). -/
theorem drop_overrun : (max (s.streams[i]'i.isLt).volatileFrontier ((s.segments[d]'d.isLt).first - 1) < (s.segments[d]'d.isLt).last →
      t.eventLatch.getLsbD 4 = true ∧ (t.streams[i]'i.isLt).notices.getLsbD 3 = true)
    ∧ ((s.segments[d]'d.isLt).last ≤ max (s.streams[i]'i.isLt).volatileFrontier ((s.segments[d]'d.isLt).first - 1) →
      t.eventLatch.getLsbD 4 = s.eventLatch.getLsbD 4 ∧ (t.streams[i]'i.isLt).notices.getLsbD 3
          = (s.streams[i]'i.isLt).notices.getLsbD 3) := by
  have hnotice : (t.streams[i]'i.isLt).notices.getLsbD 3 = (s.droppedRecord i d).notices.getLsbD 3 := by
    rw [ht.same, hv.record, Stream.judged_getLsbD]
    simp
  have hlatch : t.eventLatch.getLsbD 4 = v.eventLatch.getLsbD 4 := by
    rw [ht.latch 4 (by decide)]
    simp
  rw [hnotice, hlatch]
  exact ⟨hv.overrun, hv.noOverrun⟩

/-- The crossings of a drop (R168, R169). -/
theorem drop_crossings : s.HeldEvaluated t i ∧ ((t.streams[i]'i.isLt).cursor ≠ (s.streams[i]'i.isLt).cursor → s.UnreadEvaluated t i)
    ∧ ((t.streams[i]'i.isLt).cursor = (s.streams[i]'i.isLt).cursor → s.UnreadKept t i) := by
  have hcursor := congrArg Stream.cursor (drop_record hv ht)
  have hheld : (s.droppedRecord i d).notices.getLsbD 0 = (s.streams[i]'i.isLt).notices.getLsbD 0 :=
    State.roomRecord_getLsbD (drop := some d) s i (by decide)
  have hunread : (s.droppedRecord i d).notices.getLsbD 1 = (s.streams[i]'i.isLt).notices.getLsbD 1 :=
    State.roomRecord_getLsbD (drop := some d) s i (by decide)
  have hside : (v.streams[i]'i.isLt).heldAtOrAbove = (s.streams[i]'i.isLt).heldAtOrAbove
      ∧ (v.streams[i]'i.isLt).unreadAbove = (s.streams[i]'i.isLt).unreadAbove := by
    rw [hv.record]
    exact ⟨rfl, rfl⟩
  rw [← hv.record] at hheld hunread
  refine ⟨ht.heldEvaluated hside.1 hheld (hv.latch 1 (by decide) (by decide)), fun hc => ?_, fun hc => ?_⟩
  · have hmoved := decide_eq_true (show (s.droppedRecord i d).cursor ≠ (s.streams[i]'i.isLt).cursor from hcursor ▸ hc)
    exact ht.unreadEvaluated hmoved hside.2 hunread (hv.latch 2 (by decide) (by decide))
  · have hmoved := decide_eq_false (not_not_intro (show (s.droppedRecord i d).cursor = (s.streams[i]'i.isLt).cursor from hcursor ▸ hc))
    exact ht.unreadKept hmoved hside.2 hunread (hv.latch 2 (by decide) (by decide))

/-- The engine after a drop (R58, R111). -/
theorem drop_engine : (s.engine.state = .idle → t.engine.state = .running ∧ t.Selected s.engine.preempted)
    ∧ (s.engine.state ≠ .idle → t.engine = s.engine) := by
  refine ⟨fun hi => ?_, fun hi => (ht.engine (by rw [hv.engine]; exact hi)).trans hv.engine⟩
  have hsel := ht.selected (by rw [hv.engine]; exact hi)
  rw [hv.engine] at hsel
  refine ⟨hsel.running ?_, hsel⟩
  rw [ht.staging, hv.staging]
  simp

/-- The chain gives up its head, and the reservation keeps the held count (R58, R59). -/
theorem drop_chain (hd : s.dropCandidate i = some d) :
    (s.streams[i]'i.isLt).chain = d :: (t.streams[i]'i.isLt).chain ∧ (t.streams[i]'i.isLt).held = (s.streams[i]'i.isLt).held := by
  have hchain := congrArg Stream.chain (drop_record hv ht)
  have hreserved := congrArg Stream.reserved (drop_record hv ht)
  have hhead := dropCandidate_head hd
  have htail : (t.streams[i]'i.isLt).chain = (s.streams[i]'i.isLt).chain.tail := hchain
  have hone : (t.streams[i]'i.isLt).reserved = (s.streams[i]'i.isLt).reserved + 1 := hreserved
  refine ⟨by rw [htail]; exact hhead, ?_⟩
  rw [Stream.held, Stream.held, htail, hone]
  have hlen := congrArg List.length hhead
  rw [List.length_cons] at hlen
  omega

end Drops

/-- An accepted APPEND that drops its stream's oldest segment: the state it leaves (R56 to R59). -/
theorem append_drops {b tag : Byte} {l : Word16} {payload : List Byte} {i : StreamId} (h : Serving s)
    (hs : s.engineSound = true) (hl : payload.length = l.toNat) (ha : s.Appendable b l i) {d : DataSeg}
    (hp : s.place i (footprint l.toNat) = .new (some d)) (hq : (s.streams[i]'i.isLt).nextSeq ≠ 0xFFFFFFFE) :
    ∃ v t q, exec (.append b tag l payload) s = .next { t with port := q } ∧ q.outcome = .done
      ∧ q.receipt = some (i, (s.streams[i]'i.isLt).nextSeq) ∧ s.DropAdmitted v i d (s.stagedEntry i tag payload .new)
      ∧ v.AcceptEnds t i (decide ((s.droppedRecord i d).cursor ≠ (s.streams[i]'i.isLt).cursor)) ∧ s.PoolEvaluated t := by
  obtain ⟨p, hexec⟩ := exec_append_new (tag := tag) h hs hl ha hp
  have hends := acceptNew_ends { s with port := p } i tag payload (some d) hs h.active (available_of_place hp)
  have hadm := dropAdmitted s d tag payload p hq
  refine ⟨_, _, _, hexec, rfl, rfl, hadm, hends, ?_⟩
  rw [State.acceptNew_eq]
  exact acceptEnd_poolEvaluated (s := s) i _ hadm.below (hadm.latch 5 (by decide) (by decide))

/-- Settles O34: the drop, and the two refusals of a WRAP stream at its quota. -/
theorem wrapDropAtAcceptance : Obligations.WrapDropAtAcceptance := by
  intro s b tag l payload i h hb hl h1 h2 hg hf ho hfit hroom hfree hpol hheld
  have ha : s.Appendable b l i := ⟨hb, h1, h2, hg, hf, ho, hfit, hroom⟩
  have hplace := place_needsNew (i := i) hfree
  obtain ⟨hnone, hsome⟩ := placeNew_wrap hheld hpol
  refine ⟨fun d hs hd hav hq => ?_, fun hd => ?_, fun hd hav => ?_⟩
  · obtain ⟨v, t, q, hexec, hout, hrcpt, hv, ht, hpool⟩ :=
      append_drops (tag := tag) h hs hl ha (hplace.trans ((hsome d hd).trans (ifAvailable_some hav _))) hq
    obtain ⟨hseg, hsegs⟩ := drop_segments hv ht
    obtain ⟨hover, hno⟩ := drop_overrun hv ht
    obtain ⟨hheldSide, hun, hunk⟩ := drop_crossings hv ht
    obtain ⟨hidle, hbusy⟩ := drop_engine hv ht
    obtain ⟨hchain, hcount⟩ := drop_chain hv ht hd
    have hrec := drop_record hv ht
    have hfrontier := congrArg Stream.volatileFrontier hrec
    have hcursor := congrArg Stream.cursor hrec
    have hoverrun := congrArg Stream.overrun hrec
    have hnext := congrArg Stream.nextSeq hrec
    have hreserved := congrArg Stream.reserved hrec
    have hstate := (congrArg Stream.state hrec).trans ho
    have hlast := congrArg Stream.lastCommitted hrec
    have hdurable := congrArg Stream.durableFrontier hrec
    have hmarks := congrArg Stream.marks hrec
    have hothers := fun j hj => (ht.others j hj).trans (hv.others j hj)
    refine ⟨_, hexec, hout, hrcpt, hseg, hsegs, hchain, hfrontier, ?_, hoverrun, hover, hno, ht.ledger.trans hv.ledger, hcount,
      ht.available.trans hv.available, ht.staging.trans hv.staging, hnext, hreserved, hstate, fun hi => ?_, hbusy,
      ⟨hheldSide.side, hheldSide.event, hheldSide.notice⟩, ⟨hpool.kept, hpool.side, hpool.event⟩, fun hc => ?_, fun hc => ?_, hlast,
      hdurable, hmarks, hothers, ht.pool.trans hv.pool, ht.kept.array.trans hv.array⟩
    · exact hcursor.trans (congrArg (fun f => max (s.streams[i]'i.isLt).cursor (f + 1)) hfrontier.symm)
    · obtain ⟨h1, h2⟩ := hidle hi
      exact ⟨h1, h2.congr rfl rfl rfl rfl rfl rfl fun j => ⟨rfl, rfl⟩⟩
    · exact ⟨(hun hc).side, (hun hc).event, (hun hc).notice⟩
    · exact ⟨(hunk hc).side, (hunk hc).event, (hunk hc).notice⟩
  · exact exec_append_quotaFull h hl ha (hplace.trans (hnone hd))
  · obtain ⟨d, hd⟩ := Option.ne_none_iff_exists'.1 hd
    exact exec_append_poolEmpty h hl ha (hplace.trans ((hsome d hd).trans (ifAvailable_none hav _)))

/-! ### The last sequence (R36) -/

/-- What an acceptance of the last sequence leaves before the engine selects: the stream sealed, an image needed, SEQUENCE_END (R36). -/
structure State.LastAdmitted (s v : State) (i : StreamId) (x : Entry) (reserved : Nat) : Prop where
  state : (v.streams[i]'i.isLt).state = .sealed
  nextSeq : (v.streams[i]'i.isLt).nextSeq = 0xFFFFFFFF
  imageNeeded : v.ledger.imageNeeded = true
  notice : (v.streams[i]'i.isLt).notices.getLsbD 5 = true
  event : v.eventLatch.getLsbD 10 = true
  reserved : (v.streams[i]'i.isLt).reserved = reserved
  lastCommitted : (v.streams[i]'i.isLt).lastCommitted = (s.streams[i]'i.isLt).lastCommitted
  others : ∀ j : StreamId, j ≠ i → (v.streams[j]'j.isLt) = (s.streams[j]'j.isLt)
  staging : v.staging = s.staging ++ [x]
  pool : v.pool = s.pool
  array : v.array = s.array
  guard : v.guard = s.guard
  engine : v.engine = s.engine

/-- What the acceptance of the last sequence leaves in the end (R36, R58). -/
structure State.LastAccepted (s t : State) (i : StreamId) (x : Entry) (reserved : Nat) : Prop where
  staging : t.staging = s.staging ++ [x]
  state : (t.streams[i]'i.isLt).state = .sealed
  nextSeq : (t.streams[i]'i.isLt).nextSeq = 0xFFFFFFFF
  imageNeeded : t.ledger.imageNeeded = true
  notice : (t.streams[i]'i.isLt).notices.getLsbD 5 = true
  event : t.eventLatch.getLsbD 10 = true
  reserved : (t.streams[i]'i.isLt).reserved = reserved
  lastCommitted : (t.streams[i]'i.isLt).lastCommitted = (s.streams[i]'i.isLt).lastCommitted
  idle : s.engine.state = .idle → t.engine.state = .running ∧ t.Selected s.engine.preempted
  busy : s.engine.state ≠ .idle → t.engine = s.engine
  others : ∀ j : StreamId, j ≠ i → (t.streams[j]'j.isLt) = (s.streams[j]'j.isLt)
  pool : t.pool = s.pool
  array : t.array = s.array
  guard : t.guard = s.guard

theorem notices_sealed (x : Byte) : (x ||| 0x20).getLsbD 5 = true := (notice_getLsbD x .sequenceEnd 5).trans (by simp [Notice.bit])

theorem latch_sequenceEnd (x : Word16) : (x ||| 0x0400).getLsbD 10 = true := by
  rw [BitVec.getLsbD_or]
  simp

/-- The stream whose last sequence has been given out, in the state where it has. -/
theorem numbered_last_spec {i : StreamId} (hq : (s.streams[i]'i.isLt).nextSeq = 0xFFFFFFFE) (tag : Byte) (payload : List Byte)
    (p : Placement) :
    ((s.numbered i tag payload p).streams[i]'i.isLt) = { (s.streams[i]'i.isLt) with
        nextSeq := 0xFFFFFFFF, state := .sealed, notices := (s.streams[i]'i.isLt).notices ||| 0x20 }
      ∧ (s.numbered i tag payload p).ledger.imageNeeded = true ∧ (s.numbered i tag payload p).eventLatch.getLsbD 10 = true := by
  have hq' : (s.streams[i]'i.isLt).nextSeq = Config.lastSequence := hq
  rw [State.numbered_eq, if_pos hq', if_pos hq', Stream.numbered_last hq]
  exact ⟨Vector.getElem_set_self _, rfl, latch_sequenceEnd _⟩

theorem lastAdmitted_current (s : State) {i : StreamId} (hq : (s.streams[i]'i.isLt).nextSeq = 0xFFFFFFFE) (tag : Byte) (payload : List Byte)
    (p : Port) : s.LastAdmitted (State.numbered i tag payload .current { s with port := p }) i (s.stagedEntry i tag payload .current)
      (s.streams[i]'i.isLt).reserved := by
  obtain ⟨hrec, himage, hevent⟩ := numbered_last_spec (s := { s with port := p }) hq tag payload .current
  constructor
  · rw [hrec]
  · rw [hrec]
  · exact himage
  · rw [hrec]
    exact notices_sealed _
  · exact hevent
  · rw [hrec]
  · rw [hrec]
  · intro j hj
    have hne : i.val ≠ j.val := fun e => hj (Fin.ext e.symm)
    rw [State.numbered_eq]
    exact Vector.getElem_set_ne i.isLt j.isLt hne
  · rw [State.numbered_eq]
    rfl
  · rw [State.numbered_eq]
  · rw [State.numbered_eq]
  · rw [State.numbered_eq]
  · rw [State.numbered_eq]

theorem lastAdmitted_new (s : State) {i : StreamId} (hq : (s.streams[i]'i.isLt).nextSeq = 0xFFFFFFFE) (tag : Byte) (payload : List Byte)
    (drop : Option DataSeg) (p : Port) :
    s.LastAdmitted (State.admitted i tag payload drop { s with port := p }) i (s.stagedEntry i tag payload .new)
      ((s.streams[i]'i.isLt).reserved + 1) := by
  have hroom := State.makeRoom_same { s with port := p } i drop
  have hnext := State.roomRecord_nextSeq { s with port := p } i drop
  have hreserved := State.roomRecord_reserved { s with port := p } i drop
  have hlast := congrArg Stream.lastCommitted (State.roomRecord_frame { s with port := p } i drop)
  obtain ⟨hrec, himage, hevent⟩ := numbered_last_spec (s := State.makeRoom i drop { s with port := p }) (i := i)
    (by rw [hroom, hnext]; exact hq) tag payload .new
  obtain ⟨hpool, -, harray, hguard, hengine, -, hstaging, -⟩ := State.admitted_rest { s with port := p } i tag payload drop
  rw [hroom] at hrec
  refine ⟨?_, ?_, himage, ?_, hevent, ?_, ?_, fun j hj => State.admitted_other { s with port := p } i tag payload drop hj, hstaging, hpool,
    harray, hguard, hengine⟩
  · rw [State.admitted, hrec]
  · rw [State.admitted, hrec]
  · rw [State.admitted, hrec]
    exact notices_sealed _
  · rw [State.admitted, hrec]
    exact hreserved
  · rw [State.admitted, hrec]
    exact hlast

theorem lastAccepted_of_ends {v : State} {i : StreamId} {x : Entry} {n : Nat} {moved : Bool} (hv : s.LastAdmitted v i x n)
    (ht : v.AcceptEnds t i moved) : s.LastAccepted t i x n := by
  have hframe := Stream.judged_frame moved (v.streams[i]'i.isLt)
  rw [← ht.same] at hframe
  have hstate := congrArg Stream.state hframe
  have hnext := congrArg Stream.nextSeq hframe
  have hreserved := congrArg Stream.reserved hframe
  have hlast := congrArg Stream.lastCommitted hframe
  refine ⟨ht.staging.trans hv.staging, hstate.trans hv.state, hnext.trans hv.nextSeq, by rw [ht.ledger, hv.imageNeeded], ?_, ?_,
    hreserved.trans hv.reserved, hlast.trans hv.lastCommitted, fun hi => ?_,
    fun hi => (ht.engine (by rw [hv.engine]; exact hi)).trans hv.engine, fun j hj => (ht.others j hj).trans (hv.others j hj),
    ht.pool.trans hv.pool, ht.kept.array.trans hv.array, ht.kept.guard.trans hv.guard⟩
  · rw [ht.same, Stream.judged_getLsbD, hv.notice]
    rfl
  · rw [ht.latch 10 (by decide), hv.event]
    rfl
  · have hsel := ht.selected (by rw [hv.engine]; exact hi)
    rw [hv.engine] at hsel
    refine ⟨hsel.running ?_, hsel⟩
    rw [ht.staging, hv.staging]
    simp

theorem lastAccepted_of_selection {v : State} {i : StreamId} {x : Entry} {n : Nat} (hv : s.LastAdmitted v i x n)
    (ht : t = { v with engine := t.engine }) (hidle : s.engine.state = .idle → t.Selected s.engine.preempted)
    (hbusy : s.engine.state ≠ .idle → t.engine = s.engine) : s.LastAccepted t i x n := by
  obtain ⟨h1, h2, h3, h4, h5, h6, h7, h8, h9, h10, h11, h12, -⟩ := hv
  have hstaging : t.staging = s.staging ++ [x] := by
    rw [ht]
    exact h9
  refine ⟨hstaging, ?_, ?_, ?_, ?_, ?_, ?_, ?_, fun hi => ⟨(hidle hi).running (by rw [hstaging]; simp), hidle hi⟩, hbusy, ?_, ?_, ?_, ?_⟩
  all_goals rw [ht]; assumption

/-- An APPEND of the last sequence that is accepted, wherever its record goes (R36, R54 to R58). -/
theorem append_last {b tag : Byte} {l : Word16} {payload : List Byte} {i : StreamId} (h : Serving s)
    (hs : s.engineSound = true) (hl : payload.length = l.toNat) (ha : s.Appendable b l i) (hq : (s.streams[i]'i.isLt).nextSeq = 0xFFFFFFFE)
    {p : Placement} {n : Nat}
    (hp : (s.place i (footprint l.toNat) = .current ∧ p = .current ∧ n = (s.streams[i]'i.isLt).reserved)
      ∨ ∃ drop, s.place i (footprint l.toNat) = .new drop ∧ p = .new ∧ n = (s.streams[i]'i.isLt).reserved + 1) :
    ∃ t q, exec (.append b tag l payload) s = .next { t with port := q } ∧ q.outcome = .done
      ∧ q.receipt = some (i, (s.streams[i]'i.isLt).nextSeq) ∧ s.LastAccepted t i (s.stagedEntry i tag payload p) n := by
  rcases hp with ⟨hpl, rfl, rfl⟩ | ⟨drop, hpl, rfl, rfl⟩
  · obtain ⟨p, hexec⟩ := exec_append_current (tag := tag) h hl ha hpl
    obtain ⟨heq, hidle, hbusy⟩ := acceptCurrent_spec (s := { s with port := p }) i tag payload hs h.active
    exact ⟨_, _, hexec, rfl, rfl, lastAccepted_of_selection (lastAdmitted_current s hq tag payload p) heq hidle hbusy⟩
  · obtain ⟨p, hexec⟩ := exec_append_new (tag := tag) h hs hl ha hpl
    exact ⟨_, _, hexec, rfl, rfl, lastAccepted_of_ends (lastAdmitted_new s hq tag payload drop p)
      (acceptNew_ends { s with port := p } i tag payload drop hs h.active (available_of_place hpl))⟩

/-- An APPEND that records DONE has passed every check, and its record has a place (R50, R54 to R57). -/
theorem append_accepted {b tag : Byte} {l : Word16} {payload : List Byte} {i : StreamId} (h : Serving s) (hb : b.toNat = i.val)
    (he : exec (.append b tag l payload) s = .next t) (hdone : t.port.outcome = .done) :
    payload.length = l.toNat ∧ s.Appendable b l i
      ∧ (s.place i (footprint l.toNat) = .current ∨ ∃ drop, s.place i (footprint l.toNat) = .new drop) := by
  have hno : ∀ (u : State) (o : OutcomeCode), exec (.append b tag l payload) s = .next u → u.port.outcome = o → o ≠ .done → False := by
    intro u o hu ho hn
    rw [he] at hu
    cases hu
    exact hn (ho.symm.trans hdone)
  by_cases hl : payload.length = l.toNat
  case neg => exact (hno _ .frameLength (append_frameLength h hl) rfl (by decide)).elim
  by_cases hlen : l.toNat = 0 ∨ 1012 < l.toNat
  · exact (hno _ .badArgument (append_badArgument hb h hl hlen) rfl (by decide)).elim
  have h1 : 1 ≤ l.toNat := by omega
  have h2 : l.toNat ≤ 1012 := by omega
  cases hg : s.guard.appendLocks.getLsbD i.val with
  | true => exact (hno _ .guarded (append_guarded hb h1 h2 h hl hg) rfl (by decide)).elim
  | false =>
  cases hf : s.engine.formatRuns with
  | true => exact (hno _ .busy (append_busy hb h1 h2 hg h hl hf) rfl (by decide)).elim
  | false =>
  by_cases ho : (s.streams[i]'i.isLt).state = .opened
  case neg => exact (hno _ .wrongState (append_wrongState hb h1 h2 hg hf h hl ho) rfl (by decide)).elim
  by_cases hfull : s.freeStaging < footprint l.toNat ∨ 16 ≤ s.staging.length
  · exact (hno _ .stageFull (append_stageFull hb h1 h2 hg hf h hl ho hfull) rfl (by decide)).elim
  have ha : s.Appendable b l i := ⟨hb, h1, h2, hg, hf, ho, by omega, by omega⟩
  refine ⟨hl, ha, ?_⟩
  cases hp : s.place i (footprint l.toNat) with
  | current => exact .inl rfl
  | new drop => exact .inr ⟨drop, rfl⟩
  | quotaFull => exact (hno _ .quotaFull (exec_append_quotaFull h hl ha hp) rfl (by decide)).elim
  | poolEmpty => exact (hno _ .poolEmpty (exec_append_poolEmpty h hl ha hp) rfl (by decide)).elim

/-- Settles O35: the last sequence is staged wherever its record goes, and seals its stream. -/
theorem lastSequenceSealsTheStream : Obligations.LastSequenceSealsTheStream := by
  refine ⟨fun s b tag l payload i p h hs hb hl h1 h2 hg hf ho hfit hroom hq hp => ?_, fun s t b tag l payload i h hs hb hq he hdone => ?_⟩
  · have ha : s.Appendable b l i := ⟨hb, h1, h2, hg, hf, ho, hfit, hroom⟩
    have hplace : (s.place i (footprint l.toNat) = .current ∧ p = .current
          ∧ (if p = .new then (s.streams[i]'i.isLt).reserved + 1 else (s.streams[i]'i.isLt).reserved) = (s.streams[i]'i.isLt).reserved)
        ∨ ∃ drop, s.place i (footprint l.toNat) = .new drop ∧ p = .new
          ∧ (if p = .new then (s.streams[i]'i.isLt).reserved + 1 else (s.streams[i]'i.isLt).reserved)
              = (s.streams[i]'i.isLt).reserved + 1 := by
      rcases hp with ⟨rfl, free, hfree, hle⟩ | ⟨rfl, hfree, hav, hroom⟩
      · exact .inl ⟨place_current hfree hle, rfl, rfl⟩
      · refine .inr ?_
        by_cases hheld : (s.streams[i]'i.isLt).held < (s.streams[i]'i.isLt).quota
        · exact ⟨none, (place_needsNew hfree).trans ((placeNew_below hheld).trans (ifAvailable_some hav _)), rfl, rfl⟩
        · obtain ⟨hpol, hd⟩ := hroom.resolve_left hheld
          obtain ⟨d, hd⟩ := Option.ne_none_iff_exists'.1 hd
          exact ⟨some d, (place_needsNew hfree).trans (((placeNew_wrap (Nat.not_lt.1 hheld) hpol).2 d hd).trans (ifAvailable_some hav _)),
            rfl, rfl⟩
    obtain ⟨t, q, hexec, hout, hrcpt, ht⟩ := append_last (tag := tag) h hs hl ha hq hplace
    obtain ⟨g1, g2, g3, g4, g5, g6, g7, g8, g9, g10, g11, g12, g13, g14⟩ := ht
    have hx : s.stagedEntry i tag payload p = { stream := i, seq := 0xFFFFFFFE, tag := tag, payload := payload, placement := p } := by
      rw [State.stagedEntry, hq]
    rw [hq] at hrcpt
    rw [hx] at g1
    refine ⟨_, hexec, hout, hrcpt, g1, g2, g3, g4, g5, g6, g7, g8, fun hi => ?_, g10, g11, g12, g13, g14⟩
    obtain ⟨k1, k2⟩ := g9 hi
    exact ⟨k1, k2.congr rfl rfl rfl rfl rfl rfl fun j => ⟨rfl, rfl⟩⟩
  · obtain ⟨hl, ha, hp⟩ := append_accepted h hb he hdone
    have hlast : ∃ u q, exec (.append b tag l payload) s = .next { u with port := q } ∧ q.outcome = .done
        ∧ q.receipt = some (i, (s.streams[i]'i.isLt).nextSeq) ∧ ∃ x n, s.LastAccepted u i x n := by
      rcases hp with hp | ⟨drop, hp⟩
      · obtain ⟨u, q, h1, h2, h3, h4⟩ := append_last (tag := tag) h hs hl ha hq (.inl ⟨hp, rfl, rfl⟩)
        exact ⟨u, q, h1, h2, h3, _, _, h4⟩
      · obtain ⟨u, q, h1, h2, h3, h4⟩ := append_last (tag := tag) h hs hl ha hq (.inr ⟨drop, hp, rfl, rfl⟩)
        exact ⟨u, q, h1, h2, h3, _, _, h4⟩
    obtain ⟨u, q, hexec, -, hrcpt, x, n, hu⟩ := hlast
    rw [he] at hexec
    cases hexec
    exact ⟨hu.state, hu.nextSeq, hu.imageNeeded, hu.notice, hu.event, by rw [← hq]; exact hrcpt⟩

end Sys2Proof.Machine
end

section
/-! SYNC and ACK (R64 to R67, R80 to R83). Settles O36, O38. -/

namespace Sys2Proof.Machine

-- One proof after the other: the stacks of proofs elaborated side by side come near the memory that a check may take.
set_option Elab.async false

open Sys2Proof

variable {s t u : State}

/-! ### Frames that make no work pending -/

/-- A frame that leaves staging buffer, reclaim queue and ledger work as they were leaves the engine (R109). -/
theorem selectIfIdle_unworked (hs : s.engineSound = true) (hp : s.power = .active) (he : u.engine = s.engine)
    (hst : u.staging = s.staging) (hr : u.reclaim = s.reclaim) (hl : u.ledger.trigger = s.ledger.trigger) : u.selectIfIdle = u := by
  by_cases hi : s.engine.state = .idle
  · obtain ⟨h1, h2, h3, h4⟩ := noWork_of_idle hs hp hi
    have hj : s.engine.job = none := by
      simp only [State.engineSound, Engine.sound, Bool.and_eq_true, beq_iff_eq] at hs
      simpa [hi] using hs.1.1.1.1
    have hidle : u.idle = u := by
      have hengine : ({ u.engine with state := .idle, job := none } : Engine) = u.engine := by rw [he, ← hi, ← hj]
      show { u with engine := { u.engine with state := .idle, job := none } } = u
      rw [hengine]
    rw [State.selectIfIdle, if_pos (he ▸ hi)]
    rcases select_of_noWork (hst.trans h1) (hr.trans h2) (by rw [he]; exact h3) with ⟨h, -⟩ | ⟨-, h⟩
    · rw [hl, h4] at h
      cases h
    · exact h.trans hidle
  · exact selectIfIdle_busy (he ▸ hi)

/-! ### SYNC (R64, R65) -/

/-- The notes that are pending once SYNC has been accepted (R65). -/
def State.syncNotes (s : State) : Vector Bool 8 := tabulate fun i => (s.ledger.pendingNotes[i]'i.isLt) ||
    (s.streams[i]'i.isLt).frontierDiffers

theorem frontierDiffers_iff {t : Stream} : t.frontierDiffers = true ↔ t.volatileFrontier ≠ t.durableFrontier := by
  simp [Stream.frontierDiffers]

theorem syncNotes_get (s : State) (i : StreamId) : s.syncNotes[i] = true ↔
    (s.ledger.pendingNotes[i]'i.isLt) = true ∨ (s.streams[i]'i.isLt).volatileFrontier ≠ (s.streams[i]'i.isLt).durableFrontier := by
  rw [State.syncNotes, tabulate_get, Bool.or_eq_true, frontierDiffers_iff]

/-- Where no stream's frontiers differ, SYNC makes no note pending. -/
theorem syncNotes_same (h : ∀ i : StreamId, (s.streams[i]'i.isLt).volatileFrontier = (s.streams[i]'i.isLt).durableFrontier) :
    s.syncNotes = s.ledger.pendingNotes := by
  refine Vector.ext fun n hn => ?_
  have hd : s.streams[(⟨n, hn⟩ : StreamId)].frontierDiffers = false := by
    rw [← Bool.not_eq_true, frontierDiffers_iff]
    exact not_not_intro (h _)
  have hget := tabulate_get (fun i : StreamId => (s.ledger.pendingNotes[i]'i.isLt) || (s.streams[i]'i.isLt).frontierDiffers) ⟨n, hn⟩
  rw [hd, Bool.or_false] at hget
  exact hget

/-- The state of an accepted SYNC before the engine selects (R64, R65). -/
def State.syncRecorded (s : State) : State :=
  State.evalSync { s with sync := some s.syncItems, ledger := { s.ledger with pendingNotes := s.syncNotes } }

theorem State.recordSync_eq (s : State) : s.recordSync = s.syncRecorded.selectIfIdle := rfl

theorem State.syncRecorded_eq (s : State) : s.syncRecorded = { s with
    sync := if s.syncItems = [] then none else some s.syncItems
    eventLatch := if s.syncItems = [] then s.eventLatch ||| 1 else s.eventLatch
    ledger := { s.ledger with pendingNotes := s.syncNotes } } := by
  unfold State.syncRecorded State.evalSync
  cases h : s.syncItems with
  | nil => rfl
  | cons x xs => rfl

theorem mem_stagedItem {i : StreamId} {x : SyncItem} : x ∈ s.stagedItem i ↔
    ∃ e : Entry, (s.staging.filter fun e => e.stream == i).getLast? = some e ∧ x = .staged i (s.streams[i]'i.isLt).epoch e.seq := by
  unfold State.stagedItem State.stagedOf
  cases (s.staging.filter fun e => e.stream == i).getLast? with
  | none => simp
  | some e => simp [-Fin.getElem_fin]

theorem mem_frontierItem {i : StreamId} {x : SyncItem} : x ∈ s.frontierItem i ↔
    (s.streams[i]'i.isLt).volatileFrontier ≠ (s.streams[i]'i.isLt).durableFrontier
        ∧ x = .frontier i (s.streams[i]'i.isLt).epoch (s.streams[i]'i.isLt).volatileFrontier := by
  unfold State.frontierItem
  rw [← frontierDiffers_iff]
  cases (s.streams[i]'i.isLt).frontierDiffers <;> simp

theorem imageInProgress_iff : s.imageInProgress = true ↔ s.ledger.captured.isSome = true ∧ ∃ w, s.engine.job = some (.ledger w) := by
  unfold State.imageInProgress
  split
  next w h => simp [h]
  next h =>
    exact ⟨fun hf => (by cases hf), fun ⟨_, w, hw⟩ => absurd hw (h w)⟩

theorem mem_imageItem {x : SyncItem} : x ∈ s.imageItem ↔ (s.ledger.imageNeeded = true ∧ x = .nextImage)
    ∨ (s.ledger.imageNeeded = false ∧ s.ledger.captured.isSome = true ∧ (∃ w, s.engine.job = some (.ledger w)) ∧ x = .currentImage) := by
  unfold State.imageItem
  cases hn : s.ledger.imageNeeded with
  | true => simp
  | false =>
    rw [if_neg (by simp)]
    by_cases hi : s.imageInProgress = true
    · rw [if_pos hi]
      obtain ⟨h1, h2⟩ := imageInProgress_iff.1 hi
      simp [h1, h2]
    · rw [if_neg hi]
      rw [imageInProgress_iff] at hi
      simp only [List.not_mem_nil, false_iff]
      rintro (⟨h, -⟩ | ⟨-, h1, h2, -⟩)
      · cases h
      · exact hi ⟨h1, h2⟩

theorem mem_syncItems {x : SyncItem} : x ∈ s.syncItems ↔
    (∃ (i : StreamId) (e : Entry), (s.staging.filter fun e => e.stream == i).getLast? = some e
        ∧ x = .staged i (s.streams[i]'i.isLt).epoch e.seq)
      ∨ (∃ i : StreamId, (s.streams[i]'i.isLt).volatileFrontier ≠ (s.streams[i]'i.isLt).durableFrontier
        ∧ x = .frontier i (s.streams[i]'i.isLt).epoch (s.streams[i]'i.isLt).volatileFrontier)
      ∨ (s.ledger.imageNeeded = true ∧ x = .nextImage)
      ∨ (s.ledger.imageNeeded = false ∧ s.ledger.captured.isSome = true ∧ (∃ w, s.engine.job = some (.ledger w))
        ∧ x = .currentImage) := by
  rw [State.syncItems, List.mem_append, List.mem_append, List.mem_flatMap, List.mem_flatMap, or_assoc, mem_imageItem]
  refine or_congr (exists_congr fun i => ?_) (or_congr (exists_congr fun i => ?_) Iff.rfl)
  · rw [and_iff_right (List.mem_finRange i), mem_stagedItem]
  · rw [and_iff_right (List.mem_finRange i), mem_frontierItem]

/-- An accepted SYNC changes sync point, events, pending notes and engine alone (R64, R65). -/
theorem recordSync_spec (hs : s.engineSound = true) (hp : s.power = .active) :
    s.recordSync = { s.syncRecorded with engine := s.recordSync.engine }
      ∧ ((∃ i : StreamId, (s.streams[i]'i.isLt).volatileFrontier ≠ (s.streams[i]'i.isLt).durableFrontier) → s.LedgerWoken s.recordSync)
      ∧ ((∀ i : StreamId, (s.streams[i]'i.isLt).volatileFrontier = (s.streams[i]'i.isLt).durableFrontier)
          → s.recordSync.engine = s.engine) := by
  have heq := s.syncRecorded_eq
  have hengine : s.syncRecorded.engine = s.engine := by rw [heq]
  have hstaging : s.syncRecorded.staging = s.staging := by rw [heq]
  have hreclaim : s.syncRecorded.reclaim = s.reclaim := by rw [heq]
  have hledger : s.syncRecorded.ledger = { s.ledger with pendingNotes := s.syncNotes } := by rw [heq]
  have hproceeds : s.syncRecorded.engine.state = .idle → s.syncRecorded.Proceeds s.syncRecorded.staging := by
    rw [hengine, hstaging]
    intro hi e he
    rw [(noWork_of_idle hs hp hi).1] at he
    cases he
  refine ⟨selectIfIdle_of_proceeds hproceeds, fun ⟨i, hi⟩ => ?_, fun hall => ?_⟩
  · have hwork : s.syncRecorded.ledger.workPending = true :=
      Ledger.workPending_of (.inr ⟨i, by rw [hledger]; exact (syncNotes_get s i).2 (.inr hi)⟩)
    exact (selectIfIdle_woken hs hp hengine (fun h => hstaging.trans h) hreclaim (by rw [hledger]) hwork).1
  · have htrigger : s.syncRecorded.ledger.trigger = s.ledger.trigger := by rw [hledger, syncNotes_same hall]
    rw [State.recordSync_eq, selectIfIdle_unworked hs hp hengine hstaging hreclaim htrigger, hengine]

/-- Settles O36: the sync point, the notes, SYNC_DONE without an item, and the items. -/
theorem syncRecordsItsItems : Obligations.SyncRecordsItsItems := by
  refine ⟨fun s h hs => ?_, fun s x => ?_⟩
  · have hb := beginFrame_eq s
    have hexec : exec .sync s = actionFrame .plain 1 (fun s => (s.recordSync, .done)) s := rfl
    obtain ⟨heq, hwoken, hsame⟩ := recordSync_spec (s := s.beginFrame) (by rw [hb]; exact hs) (by rw [hb]; exact h.active)
    have hrec := s.beginFrame.syncRecorded_eq
    refine ⟨_, hexec.trans (actionFrame_plain h rfl rfl ?_), rfl, fun hn => ?_, fun hn => ?_, fun i => ?_, ?_, ?_, fun hd => ?_,
      fun hd => ?_⟩
    · rw [heq, hrec]
    · rw [heq, hrec, if_neg hn, if_neg hn, hb]
      exact ⟨rfl, rfl⟩
    · rw [heq, hrec, if_pos hn, if_pos hn, hb]
      exact ⟨rfl, rfl⟩
    · have hnotes := syncNotes_get s.beginFrame i
      rw [heq, hrec]
      rw [hb] at hnotes ⊢
      exact hnotes
    · rw [heq, hrec, hb]
    · rw [heq, hrec, hb]
    · have hw : s.beginFrame.LedgerWoken s.beginFrame.recordSync := hwoken (by rw [hb]; exact hd)
      generalize s.beginFrame.recordSync = t at hw
      rw [hb] at hw
      exact ⟨hw.starts, hw.halted, hw.busy⟩
    · have he := hsame (by rw [hb]; exact hd)
      rw [hb] at he
      rw [hb]
      exact he
  · rw [mem_syncItems, beginFrame_eq s]

/-! ### ACK (R80 to R83) -/

/-- A stream's record once a sequence above its volatile frontier has been acknowledged, before the release walk (R81). -/
def Stream.acked (q : Nat) (t : Stream) : Stream := { t with volatileFrontier := q, cursor := max t.cursor (q + 1) }

/-- Frontier and cursor have moved (R81). -/
def State.acked (i : StreamId) (q : Nat) (s : State) : State :=
  s.updStream i fun t => { t with volatileFrontier := q, cursor := max t.cursor (q + 1) }

theorem State.acked_same (s : State) (i : StreamId) (q : Nat) : ((s.acked i q).streams[i]'i.isLt) = (s.streams[i]'i.isLt).acked q :=
  State.updStream_same s i fun t => { t with volatileFrontier := q, cursor := max t.cursor (q + 1) }

theorem State.acked_other (s : State) {i j : StreamId} (q : Nat) (h : j ≠ i) : ((s.acked i q).streams[j]'j.isLt) = (s.streams[j]'j.isLt) :=
  State.updStream_other s i j (fun t => { t with volatileFrontier := q, cursor := max t.cursor (q + 1) }) h.symm

/-- The state of an accepted ACK before the engine selects: release walk, and the unread side where the cursor has moved (R81 to R83). -/
def State.ackEnd (i : StreamId) (q : Nat) (moved : Bool) (s : State) : State :=
  if moved then ((s.acked i q).releaseCovered i).evalUnread i else (s.acked i q).releaseCovered i

theorem State.acknowledge_eq (s : State) (i : StreamId) (q : Nat) : s.acknowledge i q
    = (s.ackEnd i q (decide (((s.streams[i]'i.isLt).acked q).cursor ≠ (s.streams[i]'i.isLt).cursor))).selectIfIdle := by
  unfold State.acknowledge State.ackEnd
  dsimp only
  rw [← State.acked_same]
  change State.selectIfIdle (if ((s.acked i q).streams[i]'i.isLt).cursor = (s.streams[i]'i.isLt).cursor then _ else _) = _
  by_cases h : ((s.acked i q).streams[i]'i.isLt).cursor = (s.streams[i]'i.isLt).cursor
  · rw [if_pos h, if_neg (by simpa using h)]
    rfl
  · rw [if_neg h, if_pos (by simpa using h)]
    rfl

/-- A stream's record once the unread side has been evaluated where its cursor has moved. -/
def Stream.unreadJudged (moved : Bool) (t : Stream) : Stream := if moved then t.unreadEvaluated else t

theorem Stream.unreadJudged_frame (moved : Bool) (t : Stream) : { t.unreadJudged moved with
    notices := t.notices, unreadAbove := t.unreadAbove } = t := by
  cases moved <;> rfl

theorem Stream.unreadJudged_getLsbD (moved : Bool) (t : Stream) {n : Nat} (h : n ≠ 1) :
    (t.unreadJudged moved).notices.getLsbD n = t.notices.getLsbD n := by
  cases moved with
  | true => rw [Stream.unreadJudged, if_pos rfl, Stream.unreadEvaluated_getLsbD, beq_false_of_ne h, Bool.false_and, Bool.or_false]
  | false => rfl

/-- What an accepted ACK leaves before the engine selects (R81 to R83). -/
structure State.AckEnds (s v : State) (i : StreamId) (q : Nat) (moved : Bool) : Prop where
  kept : Kept s v
  same : (v.streams[i]'i.isLt) = ((s.acked i q).releasedRecord i).unreadJudged moved
  others : ∀ j : StreamId, j ≠ i → (v.streams[j]'j.isLt) = (s.streams[j]'j.isLt)
  segments : ∀ k : DataSeg, (v.segments[k]'k.isLt) = if k ∈ (s.acked i q).walked i then (s.segments[k]'k.isLt).listed
      else (s.segments[k]'k.isLt)
  ledger : v.ledger = if (s.acked i q).walked i = [] then s.ledger
    else { s.ledger with pendingNotes := s.ledger.pendingNotes.set i.val true }
  latch : ∀ n : Nat, v.eventLatch.getLsbD n = (s.eventLatch.getLsbD n
    || (n == 1 && (!((s.acked i q).walked i).isEmpty
      && ({ (s.streams[i]'i.isLt).acked q with chain := (s.acked i q).unwalked i } : Stream).heldArrives))
    || (n == 2 && (moved && ((s.acked i q).releasedRecord i).unreadArrives)))
  pool : v.pool = s.pool
  reclaim : v.reclaim = s.reclaim
  staging : v.staging = s.staging
  sync : v.sync = s.sync
  engine : v.engine = s.engine

theorem ackEnds (s : State) (i : StreamId) (q : Nat) (moved : Bool) : s.AckEnds (s.ackEnd i q moved) i q moved := by
  have hkept : Kept s ((s.acked i q).releaseCovered i) := (kept_updStream s i _).trans (kept_releaseCovered (s.acked i q) i)
  have hsame := State.releaseCovered_record (s.acked i q) i
  have hothers : ∀ j : StreamId, j ≠ i → (((s.acked i q).releaseCovered i).streams[j]'j.isLt) = (s.streams[j]'j.isLt) := fun j hj =>
    (State.releaseCovered_other (s.acked i q) i j hj).trans (s.acked_other q hj)
  have hsegments := State.releaseCovered_segments (s.acked i q) i
  have hledger := State.releaseCovered_ledger (s.acked i q) i
  have hlatch := State.releaseCovered_getLsbD (s.acked i q) i
  have hpool := State.releaseCovered_pool (s.acked i q) i
  have hreclaim := State.releaseCovered_reclaim (s.acked i q) i
  have hstaging := State.releaseCovered_staging (s.acked i q) i
  have hsync := State.releaseCovered_sync (s.acked i q) i
  have hengine := State.releaseCovered_engine (s.acked i q) i
  rw [State.acked_same] at hlatch
  unfold State.ackEnd
  generalize (s.acked i q).releaseCovered i = w at *
  cases moved with
  | true =>
    rw [if_pos rfl]
    refine ⟨hkept.trans (kept_evalUnread w i), ?_, fun j hj => ?_, fun k => ?_, ?_, fun n => ?_, ?_, ?_, ?_, ?_, ?_⟩
    · rw [State.evalUnread_same, hsame]
      rfl
    · rw [State.evalUnread_other _ _ _ hj, hothers j hj]
    · rw [State.evalUnread_segments]
      exact hsegments k
    · rw [State.evalUnread_ledger]
      exact hledger
    · rw [State.evalUnread_getLsbD, hlatch, hsame, Bool.true_and]
      rfl
    · rw [State.evalUnread_pool]
      exact hpool
    · rw [State.evalUnread_reclaim]
      exact hreclaim
    · rw [State.evalUnread_staging]
      exact hstaging
    · rw [State.evalUnread_sync]
      exact hsync
    · rw [State.evalUnread_engine]
      exact hengine
  | false =>
    rw [if_neg (by simp)]
    refine ⟨hkept, hsame, hothers, hsegments, hledger, fun n => ?_, hpool, hreclaim, hstaging, hsync, hengine⟩
    rw [hlatch, Bool.false_and, Bool.and_false, Bool.or_false]
    rfl

section AckEnds

variable {v : State} {i : StreamId} {q : Nat} {moved : Bool} (h : s.AckEnds v i q moved)

/-- The release walk leaves the acknowledged record's other fields. -/
theorem releasedRecord_frame (s : State) (i : StreamId) (q : Nat) : { (s.acked i q).releasedRecord i with
    chain := (s.streams[i]'i.isLt).chain, notices := (s.streams[i]'i.isLt).notices, heldAtOrAbove := (s.streams[i]'i.isLt).heldAtOrAbove }
      = (s.streams[i]'i.isLt).acked q := by
  rw [State.releasedRecord]
  split
  · rw [State.acked_same]
    rfl
  · rw [State.acked_same]
    rfl

theorem releasedRecord_chain (s : State) (i : StreamId) (q : Nat) :
    ((s.acked i q).releasedRecord i).chain = (s.acked i q).unwalked i := by
  rw [← State.releaseCovered_record, State.releaseCovered_chain]

theorem releasedRecord_getLsbD (s : State) (i : StreamId) (q : Nat) {n : Nat} (hn : n ≠ 0) :
    ((s.acked i q).releasedRecord i).notices.getLsbD n = (s.streams[i]'i.isLt).notices.getLsbD n := by
  rw [State.releasedRecord]
  split
  · rw [State.acked_same]
    rfl
  · rw [Stream.heldEvaluated_getLsbD, beq_false_of_ne hn, State.acked_same]
    exact Bool.or_false _

include h

/-- What ACK leaves of the stream's record (R81). -/
theorem State.AckEnds.record : { (v.streams[i]'i.isLt) with
    chain := (s.streams[i]'i.isLt).chain, notices := (s.streams[i]'i.isLt).notices, heldAtOrAbove := (s.streams[i]'i.isLt).heldAtOrAbove
    unreadAbove := (s.streams[i]'i.isLt).unreadAbove } = (s.streams[i]'i.isLt).acked q := by
  have h1 := congrArg (fun t : Stream => ({ t with
    chain := (s.streams[i]'i.isLt).chain, notices := (s.streams[i]'i.isLt).notices, heldAtOrAbove := (s.streams[i]'i.isLt).heldAtOrAbove
    unreadAbove := (s.streams[i]'i.isLt).unreadAbove } : Stream)) (Stream.unreadJudged_frame moved ((s.acked i q).releasedRecord i))
  have h2 := congrArg (fun t : Stream => ({ t with unreadAbove := (s.streams[i]'i.isLt).unreadAbove } : Stream))
      (releasedRecord_frame s i q)
  rw [← h.same] at h1
  exact h1.trans h2

/-- ACK splits the chain where the walk stops (R82). -/
theorem State.AckEnds.chain : (s.streams[i]'i.isLt).chain = (s.acked i q).walked i ++ (v.streams[i]'i.isLt).chain := by
  have hc := congrArg Stream.chain (Stream.unreadJudged_frame moved ((s.acked i q).releasedRecord i))
  have hw := (s.acked i q).walked_append i
  rw [← h.same] at hc
  rw [State.acked_same] at hw
  have hchain : (v.streams[i]'i.isLt).chain = (s.acked i q).unwalked i := hc.trans (releasedRecord_chain s i q)
  rw [hchain]
  exact hw.symm

/-- The held side after an ACK that has released a segment, and after one that has not (R168). -/
theorem State.AckEnds.held : ((s.acked i q).walked i ≠ [] → s.HeldEvaluated v i) ∧ ((s.acked i q).walked i = [] → s.HeldKept v i) := by
  have hsame := h.same
  have hlatch := h.latch 1
  refine ⟨fun hw => ?_, fun hw => ?_⟩
  · have hempty : ((s.acked i q).walked i).isEmpty = false := by simpa using hw
    rw [State.releasedRecord, if_neg hw, State.acked_same] at hsame
    rw [hempty] at hlatch
    have hr : ({ (s.streams[i]'i.isLt).acked q with chain := (s.acked i q).unwalked i } : Stream).heldAtOrAbove
        = (s.streams[i]'i.isLt).heldAtOrAbove
        ∧ ({ (s.streams[i]'i.isLt).acked q with chain := (s.acked i q).unwalked i } : Stream).notices
            = (s.streams[i]'i.isLt).notices := ⟨rfl, rfl⟩
    generalize ({ (s.streams[i]'i.isLt).acked q with chain := (s.acked i q).unwalked i } : Stream) = r at hsame hlatch hr
    refine heldEvaluated_of hr.1 (by rw [hr.2]) ?_ ?_ ?_ ?_
    · rw [hsame]
      cases moved <;> rfl
    · rw [hsame]
      cases moved <;> rfl
    · rw [hsame, Stream.unreadJudged_getLsbD _ _ (by decide)]
    · rw [hlatch]
      simp
  · rw [State.releasedRecord, if_pos hw, State.acked_same] at hsame
    refine ⟨?_, ?_, ?_⟩
    · rw [hsame]
      cases moved <;> rfl
    · rw [hlatch, hw]
      simp
    · rw [hsame, Stream.unreadJudged_getLsbD _ _ (by decide)]
      rfl

/-- The unread side after an ACK (R169). -/
theorem State.AckEnds.unread (hm : moved = decide (((s.streams[i]'i.isLt).acked q).cursor ≠ (s.streams[i]'i.isLt).cursor)) :
    ((v.streams[i]'i.isLt).cursor ≠ (s.streams[i]'i.isLt).cursor → s.UnreadEvaluated v i)
        ∧ ((v.streams[i]'i.isLt).cursor = (s.streams[i]'i.isLt).cursor → s.UnreadKept v i) := by
  have hcursor := congrArg Stream.cursor h.record
  have hside := congrArg Stream.unreadAbove (releasedRecord_frame s i q)
  have hbit := releasedRecord_getLsbD s i q (n := 1) (by decide)
  have hlatch := h.latch 2
  have hsame := h.same
  refine ⟨fun hc => ?_, fun hc => ?_⟩
  · obtain rfl : moved = true := hm.trans (decide_eq_true (hcursor ▸ hc))
    refine unreadEvaluated_of (r := (s.acked i q).releasedRecord i) hside hbit ?_ ?_ ?_ ?_
    · rw [hsame]
      rfl
    · rw [hsame]
      rfl
    · rw [hsame]
      rfl
    · rw [hlatch]
      simp
  · obtain rfl : moved = false := hm.trans (decide_eq_false (not_not_intro (hcursor ▸ hc)))
    refine ⟨?_, ?_, ?_⟩
    · rw [hsame]
      exact hside
    · rw [hlatch]
      simp
    · rw [hsame]
      exact hbit

end AckEnds

/-- The release walk of an ACK takes what is closed and covered, and stops at the first that is not (R82). -/
theorem ack_walk (s : State) (i : StreamId) (q : Nat) :
    (∀ (us vs : List DataSeg) (k : DataSeg), (s.streams[i]'i.isLt).chain = us ++ k :: vs → us.length < ((s.acked i q).walked i).length →
        s.closed i k vs.isEmpty = true ∧ (s.segments[k]'k.isLt).last ≤ q)
      ∧ ∀ (k : DataSeg) (vs : List DataSeg), (s.acked i q).unwalked i = k :: vs →
        s.closed i k vs.isEmpty = false ∨ q < (s.segments[k]'k.isLt).last := by
  have hfrontier : ((s.acked i q).streams[i]'i.isLt).volatileFrontier = q := by
    rw [State.acked_same]
    rfl
  have hchain : ((s.acked i q).streams[i]'i.isLt).chain = (s.streams[i]'i.isLt).chain := by
    rw [State.acked_same]
    rfl
  refine ⟨fun us vs k hc hl => ?_, fun k vs hu => ?_⟩
  · have h := State.walk_taken (s.acked i q) i _ us vs k (hchain.trans hc) hl
    rw [hfrontier] at h
    exact h
  · have h := State.walk_left (s.acked i q) i _ vs k hu
    rw [hfrontier] at h
    exact h

theorem State.UnreadEvaluated.of_eq {i : StreamId} (h : s.UnreadEvaluated t i) (hs : u.streams = t.streams)
    (he : u.eventLatch.getLsbD 2 = t.eventLatch.getLsbD 2) : s.UnreadEvaluated u i := by
  obtain ⟨h1, h2, h3⟩ := h
  rw [← hs] at h1 h2 h3
  rw [← he] at h2
  exact ⟨h1, h2, h3⟩

theorem State.UnreadKept.of_eq {i : StreamId} (h : s.UnreadKept t i) (hs : u.streams = t.streams)
    (he : u.eventLatch.getLsbD 2 = t.eventLatch.getLsbD 2) : s.UnreadKept u i := by
  obtain ⟨h1, h2, h3⟩ := h
  rw [← hs] at h1 h3
  rw [← he] at h2
  exact ⟨h1, h2, h3⟩

/-- An accepted ACK: what the engine's selection leaves of it (R111). -/
theorem acknowledge_spec {i : StreamId} {q : Nat} {v : State} {moved : Bool} (hv : s.AckEnds v i q moved) (hs : s.engineSound = true)
    (hp : s.power = .active) : v.selectIfIdle = { v with engine := v.selectIfIdle.engine }
      ∧ ((s.acked i q).walked i ≠ [] → s.LedgerWoken v.selectIfIdle)
      ∧ ((s.acked i q).walked i = [] → v.selectIfIdle.engine = s.engine) := by
  have hproceeds : v.engine.state = .idle → v.Proceeds v.staging := by
    rw [hv.engine, hv.staging]
    intro hi e he
    rw [(noWork_of_idle hs hp hi).1] at he
    cases he
  refine ⟨selectIfIdle_of_proceeds hproceeds, fun hw => ?_, fun hw => ?_⟩
  · have hledger := hv.ledger
    rw [if_neg hw] at hledger
    have hwork : v.ledger.workPending = true := Ledger.workPending_of (.inr ⟨i, by rw [hledger]; simp⟩)
    exact (selectIfIdle_woken hs hp hv.engine (fun h => hv.staging.trans h) hv.reclaim (by rw [hledger]) hwork).1
  · have hledger := hv.ledger
    rw [if_pos hw] at hledger
    rw [selectIfIdle_unworked hs hp hv.engine hv.staging hv.reclaim (by rw [hledger]), hv.engine]

/-- The segments that an ACK releases, and those that it leaves (R83). -/
theorem State.AckEnds.listed {v : State} {i : StreamId} {q : Nat} {moved : Bool} (h : s.AckEnds v i q moved) :
    (∀ k ∈ (s.acked i q).walked i, (v.segments[k]'k.isLt)
        = { (s.segments[k]'k.isLt) with location := .release, release := some (.frontier (s.segments[k]'k.isLt).last) })
      ∧ ∀ k : DataSeg, k ∉ (s.acked i q).walked i → (v.segments[k]'k.isLt) = (s.segments[k]'k.isLt) := by
  refine ⟨fun k hk => ?_, fun k hk => ?_⟩
  · rw [h.segments, if_pos hk]
    rfl
  · rw [h.segments, if_neg hk]

/-- An ACK above the volatile frontier: the frame and what it leaves. -/
theorem exec_ack {b : Byte} {q : Word32} {i : StreamId} (h : Serving s) (hb : b.toNat = i.val) (hf : s.engine.formatRuns = false)
    (hq : (s.streams[i]'i.isLt).volatileFrontier < q.toNat) (hle : q.toNat ≤ (s.streams[i]'i.isLt).lastCommitted) :
    ∃ p v, exec (.ack b q) s = .next { v.selectIfIdle with port := s.framePort 6 .done false false }
      ∧ State.AckEnds { s with port := p } v i q.toNat (decide
          (((s.streams[i]'i.isLt).acked q.toNat).cursor ≠ (s.streams[i]'i.isLt).cursor)) := by
  have hends := ackEnds { s with port := s.beginFrame.port } i q.toNat
    (decide (((s.streams[i]'i.isLt).acked q.toNat).cursor ≠ (s.streams[i]'i.isLt).cursor))
  refine ⟨s.beginFrame.port, _, ?_, hends⟩
  refine actionFrame_plain h ?_ rfl ?_
  · rw [beginFrame_eq s]
    unfold State.ackBody
    simp only [streamOf_of_toNat hb]
    rw [if_neg (show ¬ s.engine.formatRuns = true by rw [hf]; decide),
        if_neg (show ¬ (s.streams[i]'i.isLt).lastCommitted < q.toNat by omega),
      if_neg (show ¬ q.toNat ≤ (s.streams[i]'i.isLt).volatileFrontier by omega), State.acknowledge_eq]
  · rw [(kept_selectIfIdle _).port, hends.kept.port]

theorem ack_covered {b : Byte} {q : Word32} {i : StreamId} (h : Serving s) (hb : b.toNat = i.val) (hf : s.engine.formatRuns = false)
    (hq : q.toNat ≤ (s.streams[i]'i.isLt).volatileFrontier) (hle : q.toNat ≤ (s.streams[i]'i.isLt).lastCommitted) :
    exec (.ack b q) s = .next { s with port := s.framePort 6 .done false false } := by
  refine actionFrame_refuses h (fun p _ => ?_) rfl
  unfold State.ackBody
  simp only [streamOf_of_toNat hb]
  rw [if_neg (show ¬ s.engine.formatRuns = true by rw [hf]; decide), if_neg (show ¬ (s.streams[i]'i.isLt).lastCommitted < q.toNat by omega)]
  exact if_pos hq

theorem ack_notYet {b : Byte} {q : Word32} {i : StreamId} (h : Serving s) (hb : b.toNat = i.val) (hf : s.engine.formatRuns = false)
    (hlt : (s.streams[i]'i.isLt).lastCommitted < q.toNat) : Refuses (.ack b q) s 6 .notYet := by
  refine actionFrame_refuses h (fun p _ => ?_) rfl
  unfold State.ackBody
  simp only [streamOf_of_toNat hb]
  rw [if_neg (show ¬ s.engine.formatRuns = true by rw [hf]; decide)]
  exact if_pos hlt

theorem ack_noStream {b : Byte} (q : Word32) (h : Serving s) (hb : 8 ≤ b.toNat) : Refuses (.ack b q) s 6 .noStream := by
  refine actionFrame_refuses h (fun p _ => ?_) rfl
  unfold State.ackBody
  simp only [streamOf_eq_none hb]
  rfl

theorem ack_busy {b : Byte} (q : Word32) (h : Serving s) (hb : b.toNat < 8) (hf : s.engine.formatRuns = true) :
    Refuses (.ack b q) s 6 .busy := by
  refine actionFrame_refuses h (fun p _ => ?_) rfl
  unfold State.ackBody
  simp only [streamOf_of_toNat (i := ⟨b.toNat, hb⟩) rfl]
  exact if_pos hf

/-- Settles O38: what ACK moves and releases above the frontier, and the frames that change nothing. -/
theorem ackResult : Obligations.AckResult := by
  refine ⟨fun s b q i h hb hf => ⟨fun hs hq hle => ?_, fun hq hle => ack_covered h hb hf hq hle, fun hlt => ack_notYet h hb hf hlt⟩,
    fun s b q h => ⟨fun hb => ack_noStream q h hb, fun hb hf => ack_busy q h hb hf⟩⟩
  obtain ⟨p, v, hexec, hv⟩ := exec_ack h hb hf hq hle
  obtain ⟨hsel, hwoken, hsame⟩ := acknowledge_spec hv hs h.active
  obtain ⟨hlisted, hunlisted⟩ := hv.listed
  obtain ⟨htaken, hleft⟩ := ack_walk { s with port := p } i q.toNat
  obtain ⟨hheld, hheldKept⟩ := hv.held
  obtain ⟨hunread, hunreadKept⟩ := hv.unread rfl
  have hchain := hv.chain
  have hunwalked := releasedRecord_chain { s with port := p } i q.toNat
  have hstop : (v.streams[i]'i.isLt).chain = (State.acked i q.toNat { s with port := p }).unwalked i := by
    rw [← hunwalked, hv.same]
    unfold Stream.unreadJudged
    split <;> rfl
  have hledger := hv.ledger
  have hfrontier := congrArg Stream.volatileFrontier hv.record
  have hcursor := congrArg Stream.cursor hv.record
  have hmarks := congrArg Stream.marks hv.record
  have hdurable := congrArg Stream.durableFrontier hv.record
  have hlast := congrArg Stream.lastCommitted hv.record
  have hnext := congrArg Stream.nextSeq hv.record
  have hstreams : v.selectIfIdle.streams = v.streams := by rw [hsel]
  have hsegments : v.selectIfIdle.segments = v.segments := by rw [hsel]
  have hledgerSel : v.selectIfIdle.ledger = v.ledger := by rw [hsel]
  have hlatch : v.selectIfIdle.eventLatch = v.eventLatch := by rw [hsel]
  have hrest : v.selectIfIdle.pool = v.pool ∧ v.selectIfIdle.reclaim = v.reclaim ∧ v.selectIfIdle.staging = v.staging
      ∧ v.selectIfIdle.sync = v.sync ∧ v.selectIfIdle.array = v.array := by
    rw [hsel]
    exact ⟨rfl, rfl, rfl, rfl, rfl⟩
  obtain ⟨h1, h2, h3, h4, h5⟩ := hrest
  refine ⟨_, (State.acked i q.toNat { s with port := p }).walked i, hexec, rfl, ?_⟩
  generalize v.selectIfIdle = t at *
  generalize (State.acked i q.toNat { s with port := p }).walked i = ks at *
  rw [hstop] at hchain
  refine ⟨?_, ?_, ?_, htaken, fun k vs hk => ?_, fun k hk => ?_, fun k hk => ?_, fun hn => ?_, fun hn => ?_, fun hn => ?_, fun hn => ?_,
    fun hn => ?_, fun hn => ?_, fun n hn1 hn2 => ?_, fun hn => ?_, hsame, ?_, ?_, ?_, ?_, fun j hj => ?_, h1.trans hv.pool,
    h2.trans hv.reclaim, h3.trans hv.staging, h4.trans hv.sync, h5.trans hv.kept.array⟩
  · exact (congrArg (fun r : Vector Stream 8 => r[i].volatileFrontier) hstreams).trans hfrontier
  · exact (congrArg (fun r : Vector Stream 8 => r[i].cursor) hstreams).trans hcursor
  · rw [show (t.streams[i]'i.isLt).chain = (v.streams[i]'i.isLt).chain from by rw [hstreams], hstop]
    exact hchain
  · rw [show (t.streams[i]'i.isLt).chain = (v.streams[i]'i.isLt).chain from by rw [hstreams], hstop] at hk
    exact hleft k vs hk
  · exact (congrArg (fun r : Vector Segment 510 => r[k]) hsegments).trans (hlisted k hk)
  · exact (congrArg (fun r : Vector Segment 510 => r[k]) hsegments).trans (hunlisted k hk)
  · rw [if_neg hn] at hledger
    exact hledgerSel.trans hledger
  · rw [if_pos hn] at hledger
    exact hledgerSel.trans hledger
  · have he := (hheld hn).of_eq hstreams (by rw [hlatch])
    exact ⟨he.side, he.event, he.notice⟩
  · have he := (hheldKept hn).of_eq hstreams (by rw [hlatch])
    exact ⟨he.side, he.event, he.notice⟩
  · have he := (hunread (by rw [← hstreams]; exact hn)).of_eq hstreams (by rw [hlatch])
    exact ⟨he.side, he.event, he.notice⟩
  · have he := (hunreadKept (by rw [← hstreams]; exact hn)).of_eq hstreams (by rw [hlatch])
    exact ⟨he.side, he.event, he.notice⟩
  · have he := hv.latch n
    rw [beq_false_of_ne hn1, beq_false_of_ne hn2] at he
    rw [show _ = v.eventLatch from hlatch, he]
    simp
  · obtain ⟨hstarts, hhalted, hbusy⟩ := hwoken hn
    exact ⟨hstarts, hhalted, hbusy⟩
  · exact (congrArg (fun r : Vector Stream 8 => r[i].marks) hstreams).trans hmarks
  · exact (congrArg (fun r : Vector Stream 8 => r[i].durableFrontier) hstreams).trans hdurable
  · exact (congrArg (fun r : Vector Stream 8 => r[i].lastCommitted) hstreams).trans hlast
  · exact (congrArg (fun r : Vector Stream 8 => r[i].nextSeq) hstreams).trans hnext
  · exact (congrArg (fun r : Vector Stream 8 => r[j]) hstreams).trans (hv.others j hj)

end Sys2Proof.Machine
end

section
/-! RESET STREAM (R42 to R44). Settles O27. -/

namespace Sys2Proof.Machine

-- One proof after the other: the stacks of proofs elaborated side by side come near the memory that a check may take.
set_option Elab.async false

open Sys2Proof

variable {s t u : State}

/-- A stream record after RESET STREAM, with its sides (R43, R171). -/
def Stream.resetRecord (t : Stream) : Stream :=
  { t.reset with heldAtOrAbove := decide (t.highWater ≤ 0), unreadAbove := false }

/-- The items of the sync point that RESET STREAM leaves (R44, R67). -/
def SyncItem.leftByReset (i : StreamId) (epoch : Nat) (items : List SyncItem) : List SyncItem :=
  (items.filter fun x => !x.isStagedOf i).map (SyncItem.rewait i epoch)

/-- RESET STREAM before a LEDGER job chooses again and the sync point is evaluated. -/
def State.resetParts (i : StreamId) (s : State) : State :=
  let s' := ((s.releaseReset i (s.streams[i]'i.isLt).chain ((s.streams[i]'i.isLt).epoch + 1)).updStream i Stream.reset).setStreamSides i
  ({ s' with staging := s'.staging.filter fun e => e.stream != i }.setNote i false).needImage

/-- RESET STREAM before the engine selects. -/
def State.resetEnd (i : StreamId) (s : State) : State :=
  let v := ((s.resetParts i).rechoose i).satisfy (SyncItem.isStagedOf i)
  State.evalSync { v with
    sync := v.sync.map fun (items : List SyncItem) => items.map (SyncItem.rewait i ((s.streams[i]'i.isLt).epoch + 1)) }

theorem State.resetStream_eq (i : StreamId) : s.resetStream i = (s.resetEnd i).selectIfIdle.evalPool s.available := rfl

theorem State.rechoose_engine_eq (i : StreamId) : s.rechoose i = { s with engine := (s.rechoose i).engine } := by
  unfold State.rechoose
  split
  next =>
    split
    next => rfl
    next => rfl
  next => rfl

/-- What RESET STREAM leaves before the engine selects, all but the engine. -/
structure State.ResetEnds (s v : State) (i : StreamId) : Prop where
  kept : Kept s v
  same : (v.streams[i]'i.isLt) = (s.streams[i]'i.isLt).resetRecord
  others : ∀ j : StreamId, j ≠ i → (v.streams[j]'j.isLt) = (s.streams[j]'j.isLt)
  staging : v.staging = s.staging.filter fun e => e.stream != i
  segments : v.segments = (s.releaseReset i (s.streams[i]'i.isLt).chain ((s.streams[i]'i.isLt).epoch + 1)).segments
  ledger : v.ledger = { s.ledger with imageNeeded := true, pendingNotes := s.ledger.pendingNotes.set i.val false }
  sync : s.SyncLeft v (SyncItem.leftByReset i ((s.streams[i]'i.isLt).epoch + 1))
  latch : ∀ n : Nat, n ≠ 0 → v.eventLatch.getLsbD n = s.eventLatch.getLsbD n
  pool : v.pool = s.pool
  poolBelow : v.poolBelow = s.poolBelow
  reclaim : v.reclaim = s.reclaim

theorem State.releaseReset_eq (s : State) (i : StreamId) (ks : List DataSeg) (n : Nat) :
    s.releaseReset i ks n = { s with segments := (s.releaseReset i ks n).segments } := by
  unfold State.releaseReset
  rfl

theorem State.resetParts_eq (s : State) (i : StreamId) : s.resetParts i = { s with
    segments := (s.releaseReset i (s.streams[i]'i.isLt).chain ((s.streams[i]'i.isLt).epoch + 1)).segments
    streams := ((s.updStream i Stream.reset).setStreamSides i).streams
    staging := s.staging.filter fun e => e.stream != i
    ledger := { s.ledger with imageNeeded := true, pendingNotes := s.ledger.pendingNotes.set i.val false } } := by
  unfold State.resetParts
  dsimp only
  rw [State.releaseReset_eq s i (s.streams[i]'i.isLt).chain]
  generalize (s.releaseReset i (s.streams[i]'i.isLt).chain ((s.streams[i]'i.isLt).epoch + 1)).segments = g
  rfl

theorem kept_resetParts (s : State) (i : StreamId) : Kept s (s.resetParts i) := by
  unfold State.resetParts
  dsimp only
  refine Kept.trans ?_ ((kept_setNote _ i false).trans (kept_needImage _))
  refine Kept.trans ?_ (kept_staging _ fun l => l.filter fun e => e.stream != i)
  exact (kept_releaseReset s i _ _).trans ((kept_updStream _ i _).trans (kept_setStreamSides _ i))

theorem kept_resetEnd (s : State) (i : StreamId) : Kept s (s.resetEnd i) := by
  unfold State.resetEnd
  dsimp only
  refine Kept.trans ?_ (kept_evalSync _)
  refine Kept.trans ?_ (kept_sync _ _)
  exact (kept_resetParts s i).trans ((kept_rechoose _ i).trans (kept_satisfy _ _))

theorem Stream.resetRecord_eq (r : Stream) :
    { r.reset with heldAtOrAbove := r.reset.heldSide, unreadAbove := r.reset.unreadSide } = r.resetRecord := rfl

theorem State.resetParts_same (s : State) (i : StreamId) : ((s.resetParts i).streams[i]'i.isLt) = (s.streams[i]'i.isLt).resetRecord := by
  rw [State.resetParts_eq]
  unfold State.setStreamSides
  dsimp only
  rw [State.updStream_same, State.updStream_same]
  rfl

theorem State.resetParts_other (s : State) (i j : StreamId) (h : j ≠ i) : ((s.resetParts i).streams[j]'j.isLt) = (s.streams[j]'j.isLt) := by
  rw [State.resetParts_eq]
  unfold State.setStreamSides
  dsimp only
  rw [State.updStream_other _ _ _ _ h.symm, State.updStream_other _ _ _ _ h.symm]

theorem resetEnds (s : State) (i : StreamId) : s.ResetEnds (s.resetEnd i) i := by
  have hkept := kept_resetEnd s i
  have hsame := s.resetParts_same i
  have hothers := s.resetParts_other i
  unfold State.resetEnd at hkept ⊢
  dsimp only at hkept ⊢
  rw [State.rechoose_engine_eq] at hkept ⊢
  generalize ((s.resetParts i).rechoose i).engine = e at *
  rw [State.resetParts_eq] at *
  refine ⟨hkept, ?_, fun j hj => ?_, ?_, ?_, ?_, ?_, fun n hn => ?_, ?_, ?_, ?_⟩
  · rw [State.evalSync_streams]
    exact hsame
  · rw [State.evalSync_streams]
    exact hothers j hj
  · rw [State.evalSync_staging]
    rfl
  · rw [State.evalSync_segments]
    rfl
  · rw [State.evalSync_ledger]
    rfl
  · refine syncLeft_evalSync ?_ rfl
    exact Option.map_map _ _ s.sync
  · rw [State.evalSync_getLsbD _ hn]
    rfl
  · rw [State.evalSync_pool]
    rfl
  · rw [State.evalSync_poolBelow]
    rfl
  · rw [State.evalSync_reclaim]
    rfl

theorem State.resetEnd_engine (i : StreamId) : (s.resetEnd i).engine = ((s.resetParts i).rechoose i).engine := by
  unfold State.resetEnd
  rw [State.evalSync_engine]
  rfl

/-- A LEDGER job goes on with what it has left to do where its note is cancelled (R44; log 16). -/
theorem State.resetEnd_rechosen (i : StreamId) (h : s.engine.job = some (.ledger (.note i))) :
    ∃ w, (s.resetEnd i).ledger.choose = some w ∧ (s.resetEnd i).engine = { s.engine with job := some (.ledger w) } := by
  have hl : (s.resetEnd i).ledger = (s.resetParts i).ledger := (resetEnds s i).ledger
  obtain ⟨w, hw⟩ := Ledger.choose_of_workPending (l := (s.resetParts i).ledger) (Ledger.workPending_of (.inl rfl))
  refine ⟨w, hl ▸ hw, ?_⟩
  rw [State.resetEnd_engine]
  unfold State.rechoose
  rw [if_pos (show (s.resetParts i).engine.job = _ from h), hw]
  rfl

theorem State.resetEnd_goesOn (i : StreamId) (h : s.engine.job ≠ some (.ledger (.note i))) : (s.resetEnd i).engine = s.engine := by
  rw [State.resetEnd_engine]
  unfold State.rechoose
  rw [if_neg (show ¬ (s.resetParts i).engine.job = _ by rw [State.resetParts_eq]; exact h), State.resetParts_eq]

/-- What an accepted RESET STREAM leaves of the engine (R111), and nothing else that its selection changes. -/
theorem resetEnd_selects {v : State} {i : StreamId} (hv : s.ResetEnds v i) (he : v = s.resetEnd i) (hs : s.engineSound = true)
    (hp : s.power = .active) : v.selectIfIdle = { v with engine := v.selectIfIdle.engine }
      ∧ (s.engine.job ≠ some (.ledger (.note i)) → s.LedgerWoken v.selectIfIdle)
      ∧ (s.engine.job = some (.ledger (.note i)) →
        ∃ w, v.ledger.choose = some w ∧ v.selectIfIdle.engine = { s.engine with job := some (.ledger w) }) := by
  by_cases hj : s.engine.job = some (.ledger (.note i))
  · obtain ⟨w, hw, hwe⟩ := s.resetEnd_rechosen i hj
    rw [← he] at hw hwe
    have hbusy : v.engine.state ≠ .idle := by
      rw [hwe]
      intro hi
      have hsound := (Engine.sound_iff.1 (EngineOk.of_engineSound hs (by rw [hp]; rfl)).sound).1.1 hi
      rw [hj] at hsound
      cases hsound
    rw [selectIfIdle_busy hbusy]
    exact ⟨rfl, fun h => absurd hj h, fun _ => ⟨w, hw, hwe⟩⟩
  · have hwork : v.ledger.workPending = true := Ledger.workPending_of (.inl (by rw [hv.ledger]))
    obtain ⟨hwoken, hsame⟩ := selectIfIdle_woken hs hp (he ▸ s.resetEnd_goesOn i hj)
      (fun h => by rw [hv.staging, h]; rfl) hv.reclaim (by rw [hv.ledger]) hwork
    exact ⟨hsame, fun _ => hwoken, fun h => absurd h hj⟩

/-- The segments of a reset stream, and all others (R44). -/
theorem State.ResetEnds.segment {v : State} {i : StreamId} (h : s.ResetEnds v i) :
    (∀ k : DataSeg, k ∈ (s.streams[i]'i.isLt).chain → (v.segments[k]'k.isLt)
        = { (s.segments[k]'k.isLt) with location := .release, release := some (.image ((s.streams[i]'i.isLt).epoch + 1)) })
      ∧ (∀ k : DataSeg, k ∉ (s.streams[i]'i.isLt).chain → (s.segments[k]'k.isLt).location = .release
          → (s.segments[k]'k.isLt).owner = some i →
          (v.segments[k]'k.isLt) = { (s.segments[k]'k.isLt) with release := some (.image ((s.streams[i]'i.isLt).epoch + 1)) })
      ∧ ∀ k : DataSeg, k ∉ (s.streams[i]'i.isLt).chain → ((s.segments[k]'k.isLt).location ≠ .release
          ∨ (s.segments[k]'k.isLt).owner ≠ some i) →
          (v.segments[k]'k.isLt) = (s.segments[k]'k.isLt) := by
  have hk : ∀ k : DataSeg, (v.segments[k]'k.isLt) = if k ∈ (s.streams[i]'i.isLt).chain then
        { (s.segments[k]'k.isLt) with location := .release, release := some (.image ((s.streams[i]'i.isLt).epoch + 1)) }
      else if (s.segments[k]'k.isLt).location = .release ∧ (s.segments[k]'k.isLt).owner = some i then
        { (s.segments[k]'k.isLt) with release := some (.image ((s.streams[i]'i.isLt).epoch + 1)) }
      else (s.segments[k]'k.isLt) := fun k => by
    rw [h.segments]
    exact tabulate_get _ k
  refine ⟨fun k hc => ?_, fun k hc hl ho => ?_, fun k hc hn => ?_⟩
  · rw [hk, if_pos hc]
  · rw [hk, if_neg hc, if_pos ⟨hl, ho⟩]
  · rw [hk, if_neg hc, if_neg fun ⟨hl, ho⟩ => hn.elim (absurd hl) (absurd ho)]

/-- What RESET STREAM changes, and what it leaves. -/
structure State.ResetResult (s t : State) (i : StreamId) : Prop where
  same : (t.streams[i]'i.isLt) = (s.streams[i]'i.isLt).resetRecord
  others : ∀ j : StreamId, j ≠ i → (t.streams[j]'j.isLt) = (s.streams[j]'j.isLt)
  staging : t.staging = s.staging.filter fun e => e.stream != i
  segment : (∀ k : DataSeg, k ∈ (s.streams[i]'i.isLt).chain → (t.segments[k]'k.isLt)
        = { (s.segments[k]'k.isLt) with location := .release, release := some (.image ((s.streams[i]'i.isLt).epoch + 1)) })
      ∧ (∀ k : DataSeg, k ∉ (s.streams[i]'i.isLt).chain → (s.segments[k]'k.isLt).location = .release
          → (s.segments[k]'k.isLt).owner = some i →
          (t.segments[k]'k.isLt) = { (s.segments[k]'k.isLt) with release := some (.image ((s.streams[i]'i.isLt).epoch + 1)) })
      ∧ ∀ k : DataSeg, k ∉ (s.streams[i]'i.isLt).chain → ((s.segments[k]'k.isLt).location ≠ .release
          ∨ (s.segments[k]'k.isLt).owner ≠ some i) →
          (t.segments[k]'k.isLt) = (s.segments[k]'k.isLt)
  ledger : t.ledger = { s.ledger with imageNeeded := true, pendingNotes := s.ledger.pendingNotes.set i.val false }
  sync : s.SyncLeft t (SyncItem.leftByReset i ((s.streams[i]'i.isLt).epoch + 1))
  poolSide : s.PoolEvaluated t
  latch : ∀ n : Nat, n ≠ 0 → n ≠ 5 → t.eventLatch.getLsbD n = s.eventLatch.getLsbD n
  woken : s.engine.job ≠ some (.ledger (.note i)) → s.LedgerWoken t
  rechosen : s.engine.job = some (.ledger (.note i)) →
    ∃ w, t.ledger.choose = some w ∧ t.engine = { s.engine with job := some (.ledger w) }
  kept : Kept s t
  pool : t.pool = s.pool
  reclaim : t.reclaim = s.reclaim

theorem resetResult (i : StreamId) (hs : s.engineSound = true) (hp : s.power = .active) : s.ResetResult (s.resetStream i) i := by
  have hv := resetEnds s i
  obtain ⟨hsame, hwoken, hrechosen⟩ := resetEnd_selects hv rfl hs hp
  rw [State.resetStream_eq]
  generalize s.resetEnd i = v at *
  generalize v.selectIfIdle = w at *
  generalize w.engine = e at hsame
  have hpool : s.PoolEvaluated (w.evalPool s.available) :=
    poolEvaluated_evalPool (by rw [hsame]; exact hv.poolBelow) (by rw [hsame]; exact hv.latch 5 (by decide))
  have hkept : Kept s w := by
    rw [hsame]
    exact hv.kept.trans (by constructor <;> rfl)
  have hlatch : ∀ n, n ≠ 5 → (w.evalPool s.available).eventLatch.getLsbD n = v.eventLatch.getLsbD n := by
    intro n hn
    rw [State.evalPool_getLsbD, beq_false_of_ne hn, hsame]
    simp
  have hsync : s.SyncLeft (w.evalPool s.available) (SyncItem.leftByReset i ((s.streams[i]'i.isLt).epoch + 1)) :=
    hv.sync.of_eq (by rw [State.evalPool_eq, hsame]) (hlatch 0 (by decide))
  obtain ⟨hstreams, hstaging, hsegments, hledger, hpoolKept, hreclaim⟩ : (w.evalPool s.available).streams = v.streams
      ∧ (w.evalPool s.available).staging = v.staging ∧ (w.evalPool s.available).segments = v.segments
      ∧ (w.evalPool s.available).ledger = v.ledger ∧ (w.evalPool s.available).pool = v.pool
      ∧ (w.evalPool s.available).reclaim = v.reclaim := by
    rw [State.evalPool_eq, hsame]
    exact ⟨rfl, rfl, rfl, rfl, rfl, rfl⟩
  have hsegment := hv.segment
  rw [← hsegments] at hsegment
  refine ⟨?_, fun j hj => ?_, hstaging.trans hv.staging, hsegment, hledger.trans hv.ledger, hsync, hpool,
    fun n h0 h5 => (hlatch n h5).trans (hv.latch n h0), fun hj => ?_, fun hj => ?_, hkept.trans (kept_evalPool _ _),
    hpoolKept.trans hv.pool, hreclaim.trans hv.reclaim⟩
  · rw [hstreams]
    exact hv.same
  · rw [hstreams]
    exact hv.others j hj
  · exact (hwoken hj).congr (by rw [State.evalPool_eq]) (by rw [State.evalPool_eq])
  · obtain ⟨x, hx, hxe⟩ := hrechosen hj
    refine ⟨x, by rw [hledger]; exact hx, ?_⟩
    rw [State.evalPool_eq]
    exact hxe

/-! ### The frame -/

theorem exec_resetStream {b : Byte} {g : Bool} {i : StreamId} (h : Serving s) (ha : s.port.armLatch = true) (hb : b.toNat = i.val)
    (hg : s.guard.permits g) (hc : s.engine.holdsCommit = false) (he : (s.streams[i]'i.isLt).epoch ≠ Config.max32) :
    ∃ p, exec (.resetStream b g) s
      = .next { State.resetStream i { s with port := p } with port := s.framePort 2 s.changeOutcome false false } := by
  refine actionFrame_acts h (fun p hp => ?_) (fun u => (kept_streamReset u i).port) s.ledger.outcome_isFrameError
  unfold State.resetBody
  rw [if_neg (by rw [hp, ha]; decide)]
  simp only [streamOf_of_toNat hb]
  rw [if_neg (by rw [Guard.permits_iff.1 hg]; decide), if_neg (by rw [hc]; decide)]
  exact if_neg he

theorem resetStream_notArmed (b : Byte) (g : Bool) (h : Serving s) (ha : s.port.armLatch = false) :
    Refuses (.resetStream b g) s 2 .notArmed := by
  refine actionFrame_refuses h (fun p hp => ?_) rfl
  unfold State.resetBody
  exact if_pos (hp.trans ha)

theorem resetStream_noStream {b : Byte} (g : Bool) (h : Serving s) (ha : s.port.armLatch = true) (hb : 8 ≤ b.toNat) :
    Refuses (.resetStream b g) s 2 .noStream := by
  refine actionFrame_refuses h (fun p hp => ?_) rfl
  unfold State.resetBody
  rw [if_neg (by rw [hp, ha]; decide)]
  simp only [streamOf_eq_none hb]
  rfl

theorem resetStream_guarded {b : Byte} {g : Bool} (h : Serving s) (ha : s.port.armLatch = true) (hb : b.toNat < 8)
    (hg : ¬ s.guard.permits g) : Refuses (.resetStream b g) s 2 .guarded := by
  refine actionFrame_refuses h (fun p hp => ?_) rfl
  unfold State.resetBody
  rw [if_neg (by rw [hp, ha]; decide)]
  simp only [streamOf_of_toNat (i := ⟨b.toNat, hb⟩) rfl]
  exact if_pos (Guard.not_permits_iff.1 hg)

theorem resetStream_busy {b : Byte} {g : Bool} (h : Serving s) (ha : s.port.armLatch = true) (hb : b.toNat < 8)
    (hg : s.guard.permits g) (hc : s.engine.holdsCommit = true) : Refuses (.resetStream b g) s 2 .busy := by
  refine actionFrame_refuses h (fun p hp => ?_) rfl
  unfold State.resetBody
  rw [if_neg (by rw [hp, ha]; decide)]
  simp only [streamOf_of_toNat (i := ⟨b.toNat, hb⟩) rfl]
  rw [if_neg (by rw [Guard.permits_iff.1 hg]; decide)]
  exact if_pos hc

theorem resetStream_wrongState {b : Byte} {g : Bool} {i : StreamId} (h : Serving s) (ha : s.port.armLatch = true)
    (hb : b.toNat = i.val) (hg : s.guard.permits g) (hc : s.engine.holdsCommit = false) (he : (s.streams[i]'i.isLt).epoch = Config.max32) :
    Refuses (.resetStream b g) s 2 .wrongState := by
  refine actionFrame_refuses h (fun p hp => ?_) rfl
  unfold State.resetBody
  rw [if_neg (by rw [hp, ha]; decide)]
  simp only [streamOf_of_toNat hb]
  rw [if_neg (by rw [Guard.permits_iff.1 hg]; decide), if_neg (by rw [hc]; decide)]
  exact if_pos he

theorem Engine.holdsCommit_of {e : Engine} {c : CommitStep} (hs : e.state ≠ .idle) (hj : e.job = some (.commit c)) :
    e.holdsCommit = true := by
  unfold Engine.holdsCommit
  rw [hj]
  exact bne_iff_ne.2 hs

theorem Engine.not_holdsCommit_of {e : Engine} (h : e.state = .idle ∨ ∀ c, e.job ≠ some (.commit c)) : e.holdsCommit = false := by
  unfold Engine.holdsCommit
  split
  next c hj => exact bne_eq_false_iff_eq.2 (h.resolve_right fun hn => hn c hj)
  next => rfl

theorem SyncItem.rewait_spec (i j : StreamId) (e f q : Nat) : (SyncItem.staged j f q).isStagedOf i = (j == i)
    ∧ (SyncItem.frontier j f q).isStagedOf i = false
    ∧ SyncItem.rewait i e (.frontier i f q) = .epochImage i e ∧ (j ≠ i → SyncItem.rewait i e (.frontier j f q) = .frontier j f q)
    ∧ (j ≠ i → SyncItem.rewait i e (.epochImage j f) = .epochImage j f)
    ∧ SyncItem.rewait i e (.staged j f q) = .staged j f q ∧ SyncItem.rewait i e .nextImage = .nextImage
    ∧ SyncItem.rewait i e .currentImage = .currentImage :=
  ⟨rfl, rfl, if_pos rfl, fun h => if_neg h, fun h => if_neg h, rfl, rfl, rfl⟩

/-- Settles O27: RESET STREAM on its stream, the release list, the sync point and the engine. -/
theorem resetStreamResult : Obligations.ResetStreamResult := by
  refine ⟨fun s b g i h hs ha hb hg hc he => ?_, SyncItem.rewait_spec, fun s b g h =>
    ⟨fun ha => resetStream_notArmed b g h ha, fun ha hb => resetStream_noStream g h ha hb, fun ha hb hg => resetStream_guarded h ha hb hg,
      fun ha hb hg hi hc => ?_, fun i ha hb hg hc he => ?_⟩⟩
  case refine_2 =>
    obtain ⟨c, hc⟩ := hc
    exact resetStream_busy h ha hb hg (Engine.holdsCommit_of hi hc)
  case refine_3 => exact resetStream_wrongState h ha hb hg (Engine.not_holdsCommit_of hc) he
  obtain ⟨p, hexec⟩ := exec_resetStream h ha hb hg hc he
  obtain ⟨hsame, hothers, hstaging, ⟨hchain, hlisted, hother⟩, hledger, hsync, hpool, hlatch, hwoken, hrechosen, hkept, hpoolKept,
    hreclaim⟩ := resetResult (s := { s with port := p }) i hs h.active
  obtain ⟨hstarts, hhalted, hbusy⟩ := hsync
  refine ⟨_, hexec, rfl, hsame, hothers, hstaging, hchain, hlisted, hother, hledger, ⟨hstarts, hhalted, hbusy⟩,
    ⟨hpool.kept, hpool.side, hpool.event⟩, hlatch, fun hj => ?_, hrechosen, hpoolKept, hreclaim, hkept.array, hkept.guard, hkept.power,
    hkept.lowWater, hkept.eventEnable⟩
  have hw := hwoken hj
  exact ⟨hw.starts, hw.halted, hw.busy⟩

end Sys2Proof.Machine
end

section
/-! The places of the data segments (R97 to R103): what they are of one segment, what keeps them, and how a segment changes its place. -/

namespace Sys2Proof.Machine

-- One proof after the other: the stacks of proofs elaborated side by side come near the memory that a check may take.
set_option Elab.async false

open Sys2Proof

variable {s t u : State}

/-! ### The place of one segment -/

/-- Owner, location and the presence of a release condition are as before. -/
structure Segment.SamePlace (g g' : Segment) : Prop where
  location : g'.location = g.location
  owner : g'.owner = g.owner
  release : g'.release.isSome = g.release.isSome

theorem Segment.SamePlace.refl (g : Segment) : g.SamePlace g := ⟨rfl, rfl, rfl⟩

theorem Segment.SamePlace.trans {g g' g'' : Segment} (h : g.SamePlace g') (h' : g'.SamePlace g'') : g.SamePlace g'' :=
  ⟨h'.location.trans h.location, h'.owner.trans h.owner, h'.release.trans h.release⟩

/-- A segment stands where its location says and nowhere else, where one segment at most is under erasure (R97). -/
structure State.HasPlace (s : State) (erasing : Option DataSeg) (k : DataSeg) : Prop where
  pool : k ∈ s.pool ↔ (s.segments[k]'k.isLt).location = .pool
  reclaim : k ∈ s.reclaim ↔ (s.segments[k]'k.isLt).location = .reclaim
  chain : ∀ i : StreamId, k ∈ (s.streams[i]'i.isLt).chain ↔ (s.segments[k]'k.isLt).location = .chain ∧ (s.segments[k]'k.isLt).owner = some i
  owned : (s.segments[k]'k.isLt).location = .chain → (s.segments[k]'k.isLt).owner ≠ none
  release : (s.segments[k]'k.isLt).location = .release ↔ (s.segments[k]'k.isLt).release.isSome = true
  erasing : (s.segments[k]'k.isLt).location = .erasing ↔ erasing = some k

/-- Every data segment has its place, with this one under erasure. -/
structure State.PlacedWith (s : State) (erasing : Option DataSeg) : Prop where
  pool_nodup : s.pool.Nodup
  reclaim_nodup : s.reclaim.Nodup
  chain_nodup : ∀ i : StreamId, (s.streams[i]'i.isLt).chain.Nodup
  each : ∀ k : DataSeg, s.HasPlace erasing k

/-! ### The segment under erasure -/

/-- The segment under erasure (R102): that of a RECLAIM job whose first pulse has been applied, or that of the preempted one. -/
def Engine.erasing (e : Engine) : Option DataSeg :=
  match e.job with
  | some (.reclaim _ (.pulse 0)) => none
  | some (.reclaim k _) => some k
  | _ => e.preempted.map Prod.fst

theorem Engine.erasing_of_job {e : Engine} (h : ∀ k p, e.job ≠ some (.reclaim k p)) : e.erasing = e.preempted.map Prod.fst := by
  unfold Engine.erasing
  split
  next k hj => exact absurd hj (h k _)
  next k p _ hj => exact absurd hj (h k p)
  next => rfl

theorem Engine.erasing_first {e : Engine} {k : DataSeg} (h : e.job = some (.reclaim k (.pulse 0))) : e.erasing = none := by
  unfold Engine.erasing
  rw [h]
  rfl

theorem Engine.erasing_reclaim {e : Engine} {k : DataSeg} {p : ErasePhase} (h : e.job = some (.reclaim k p)) (hp : p ≠ .pulse 0) :
    e.erasing = some k := by
  unfold Engine.erasing
  rw [h]
  split
  next hj =>
    rw [Option.some.injEq, Job.reclaim.injEq] at hj
    exact absurd hj.2 hp
  next hj =>
    rw [Option.some.injEq, Job.reclaim.injEq] at hj
    rw [hj.1]
  next hn => exact absurd rfl (hn k p)

/-- The segment that a RECLAIM job is about to erase heads the reclaim queue (R111). -/
def State.FirstQueued (s : State) : Prop := ∀ k : DataSeg, s.engine.job = some (.reclaim k (.pulse 0)) → s.reclaim.head? = some k

theorem State.FirstQueued.of_job (h : ∀ k p, s.engine.job ≠ some (.reclaim k p)) : s.FirstQueued := fun k hj => absurd hj (h k _)

/-- Every data segment has its place, as the engine has it. -/
structure State.InPlaces (s : State) : Prop where
  placed : s.PlacedWith s.engine.erasing
  first : s.FirstQueued

/-- The segment under erasure is the one that the RECLAIM job or the slot names. -/
theorem Engine.erasing_iff {e : Engine} (hs : e.sound = true) (k : DataSeg) :
    e.erasing = some k ↔ (∃ p, p ≠ .pulse 0 ∧ e.job = some (.reclaim k p)) ∨ ∃ n, e.preempted = some (k, n) := by
  have hslot := (Engine.sound_iff.1 hs).2.2.2
  by_cases hj : ∃ k' p, e.job = some (.reclaim k' p)
  · obtain ⟨k', p, hj⟩ := hj
    have hnone : e.preempted = none := by
      by_contra hn
      exact (hslot hn).2 k' p hj
    by_cases hp : p = .pulse 0
    · subst hp
      rw [Engine.erasing_first hj, hj, hnone]
      simp
    · rw [Engine.erasing_reclaim hj hp, hj, hnone]
      simp only [Option.some.injEq, Job.reclaim.injEq, reduceCtorEq, exists_false, or_false]
      exact ⟨fun h => ⟨p, hp, h, rfl⟩, fun ⟨_, _, h, _⟩ => h⟩
  · have hn : ∀ k p, e.job ≠ some (.reclaim k p) := fun k p h => hj ⟨k, p, h⟩
    rw [Engine.erasing_of_job hn]
    simp [hn]

/-- The invariant in the form that its parts are proved in. -/
theorem placed_iff (hs : s.engine.sound = true) : s.Placed ↔ s.InPlaces := by
  constructor
  · intro h
    refine ⟨⟨h.pool_nodup, h.reclaim_nodup, h.chain_nodup, fun k => ⟨h.pool_iff k, h.reclaim_iff k, fun i => ?_, fun hl => ?_,
      h.release_iff k, ?_⟩⟩, h.reclaim_first⟩
    · refine ⟨h.chain_owned i k, fun ⟨hl, ho⟩ => ?_⟩
      obtain ⟨j, hj⟩ := h.chain_exists k hl
      have hij : some j = some i := (h.chain_owned j k hj).2.symm.trans ho
      rwa [← Option.some.inj hij]
    · obtain ⟨j, hj⟩ := h.chain_exists k hl
      rw [(h.chain_owned j k hj).2]
      exact Option.some_ne_none j
    · rw [Engine.erasing_iff hs]
      constructor
      · intro hl
        rcases h.erasing_named k hl with ⟨p, hp⟩ | hn
        · refine .inl ⟨p, fun h0 => ?_, hp⟩
          have hhead := h.reclaim_first k (h0 ▸ hp)
          have hloc := (h.reclaim_iff k).1 (List.mem_of_mem_head? hhead)
          rw [hl] at hloc
          cases hloc
        · exact .inr hn
      · rintro (⟨p, hp, hj⟩ | ⟨n, hn⟩)
        · exact h.erasing_job k p hj hp
        · exact h.erasing_slot k n hn
  · intro h
    have he := fun k => ((h.placed.each k).erasing).trans (Engine.erasing_iff hs k)
    refine ⟨h.placed.pool_nodup, fun k => (h.placed.each k).pool, h.placed.reclaim_nodup, fun k => (h.placed.each k).reclaim,
      h.placed.chain_nodup, fun i k => ((h.placed.each k).chain i).1, fun k hl => ?_, fun k => (h.placed.each k).release, h.first,
      fun k p hj hp => (he k).2 (.inl ⟨p, hp, hj⟩), fun k n hn => (he k).2 (.inr ⟨n, hn⟩), fun k hl => ?_⟩
    · obtain ⟨i, hi⟩ := Option.ne_none_iff_exists'.1 ((h.placed.each k).owned hl)
      exact ⟨i, ((h.placed.each k).chain i).2 ⟨hl, hi⟩⟩
    · exact ((he k).1 hl).imp (fun ⟨p, _, hp⟩ => ⟨p, hp⟩) id

/-! ### What leaves every segment where it is -/

/-- Pool, reclaim queue, chains and the places in the segment table are as before. -/
structure SamePlaces (s t : State) : Prop where
  pool : t.pool = s.pool
  reclaim : t.reclaim = s.reclaim
  chain : ∀ i : StreamId, (t.streams[i]'i.isLt).chain = (s.streams[i]'i.isLt).chain
  segment : ∀ k : DataSeg, (s.segments[k]'k.isLt).SamePlace (t.segments[k]'k.isLt)

theorem SamePlaces.refl (s : State) : SamePlaces s s := ⟨rfl, rfl, fun _ => rfl, fun _ => .refl _⟩

theorem SamePlaces.trans (h : SamePlaces s t) (h' : SamePlaces t u) : SamePlaces s u :=
  ⟨h'.pool.trans h.pool, h'.reclaim.trans h.reclaim, fun i => (h'.chain i).trans (h.chain i),
    fun k => (h.segment k).trans (h'.segment k)⟩

theorem SamePlaces.of_eq (hp : t.pool = s.pool) (hr : t.reclaim = s.reclaim) (hs : t.streams = s.streams) (hg : t.segments = s.segments) :
    SamePlaces s t :=
  ⟨hp, hr, fun _ => by rw [hs], fun _ => by rw [hg]; exact .refl _⟩

theorem State.HasPlace.congr {E : Option DataSeg} {k : DataSeg} (h : s.HasPlace E k) (hp : k ∈ t.pool ↔ k ∈ s.pool)
    (hr : k ∈ t.reclaim ↔ k ∈ s.reclaim) (hc : ∀ i : StreamId, k ∈ (t.streams[i]'i.isLt).chain ↔ k ∈ (s.streams[i]'i.isLt).chain)
    (hg : (s.segments[k]'k.isLt).SamePlace (t.segments[k]'k.isLt)) : t.HasPlace E k := by
  obtain ⟨h1, h2, h3, h4, h5, h6⟩ := h
  rw [← hg.location] at h1 h2 h4 h5 h6
  rw [← hg.owner] at h4
  rw [← hg.release] at h5
  refine ⟨hp.trans h1, hr.trans h2, fun i => ?_, h4, h5, h6⟩
  rw [hc, h3, hg.location, hg.owner]

theorem State.PlacedWith.congr {E : Option DataSeg} (h : s.PlacedWith E) (hs : SamePlaces s t) : t.PlacedWith E :=
  ⟨hs.pool ▸ h.pool_nodup, hs.reclaim ▸ h.reclaim_nodup, fun i => hs.chain i ▸ h.chain_nodup i, fun k =>
    (h.each k).congr (by rw [hs.pool]) (by rw [hs.reclaim]) (fun i => by rw [hs.chain]) (hs.segment k)⟩

theorem State.InPlaces.congr (h : s.InPlaces) (hs : SamePlaces s t) (hj : t.engine.job = s.engine.job)
    (hp : t.engine.preempted = s.engine.preempted) : t.InPlaces := by
  refine ⟨?_, fun k hk => hs.reclaim ▸ h.first k (hj ▸ hk)⟩
  have he : t.engine.erasing = s.engine.erasing := by
    unfold Engine.erasing
    rw [hj, hp]
  rw [he]
  exact h.placed.congr hs

theorem samePlaces_updSegment (s : State) (k : DataSeg) (f : Segment → Segment) (h : ∀ g : Segment, g.SamePlace (f g)) :
    SamePlaces s (s.updSegment k f) := by
  refine ⟨rfl, rfl, fun _ => rfl, fun j => ?_⟩
  by_cases hj : k = j
  · subst hj
    rw [State.updSegment_same]
    exact h _
  · rw [State.updSegment_other _ _ _ _ hj]
    exact .refl _

theorem samePlaces_updStream (s : State) (i : StreamId) (f : Stream → Stream) (h : ∀ r, (f r).chain = r.chain) :
    SamePlaces s (s.updStream i f) := by
  refine ⟨rfl, rfl, fun j => ?_, fun _ => .refl _⟩
  by_cases hj : i = j
  · subst hj
    rw [State.updStream_same]
    exact h _
  · rw [State.updStream_other _ _ _ _ hj]

theorem samePlaces_evalHeld (s : State) (i : StreamId) : SamePlaces s (s.evalHeld i) := by
  refine ⟨(stays_evalHeld s i).1.pool, (stays_evalHeld s i).1.reclaim, fun j => ?_, fun k => ?_⟩
  · by_cases hj : j = i
    · subst hj
      rw [State.evalHeld_same]
      rfl
    · rw [State.evalHeld_other _ _ _ hj]
  · rw [(stays_evalHeld s i).1.segments]
    exact .refl _

theorem samePlaces_evalUnread (s : State) (i : StreamId) : SamePlaces s (s.evalUnread i) := by
  refine ⟨by simp, by simp, fun j => ?_, fun k => ?_⟩
  · by_cases hj : j = i
    · subst hj
      rw [State.evalUnread_same]
      rfl
    · rw [State.evalUnread_other _ _ _ hj]
  · rw [State.evalUnread_segments]
    exact .refl _

theorem samePlaces_evalPool (s : State) (n : Int) : SamePlaces s (s.evalPool n) := by
  rw [State.evalPool_eq]
  exact .of_eq rfl rfl rfl rfl

theorem samePlaces_evalSync (s : State) : SamePlaces s s.evalSync :=
  .of_eq (by simp) (by simp) (by simp) (by simp)

/-- Faults and selections leave every segment where it is (R34, R111). -/
theorem Faults.samePlaces (h : Faults s t) : SamePlaces s t :=
  ⟨h.leaves.pool, h.leaves.reclaim, fun i => by
    have hc := congrArg Stream.chain (h.kept i).frame
    exact hc, fun k => by
    rw [h.leaves.segments]
    exact .refl _⟩

/-! ### Segments that leave their chain for the release list (R82, R44, R59) -/

/-- Segments of a stream leave its chain for the release list; every other segment stays where it is. -/
structure LeaveChain (s t : State) (i : StreamId) : Prop where
  pool : t.pool = s.pool
  reclaim : t.reclaim = s.reclaim
  chain : (t.streams[i]'i.isLt).chain.Sublist (s.streams[i]'i.isLt).chain
  others : ∀ j : StreamId, j ≠ i → (t.streams[j]'j.isLt).chain = (s.streams[j]'j.isLt).chain
  left : ∀ k : DataSeg, k ∈ (s.streams[i]'i.isLt).chain → k ∉ (t.streams[i]'i.isLt).chain →
    (t.segments[k]'k.isLt).location = .release ∧ (t.segments[k]'k.isLt).release.isSome = true
  stay : ∀ k : DataSeg, (k ∈ (s.streams[i]'i.isLt).chain → k ∈ (t.streams[i]'i.isLt).chain)
      → (s.segments[k]'k.isLt).SamePlace (t.segments[k]'k.isLt)

theorem State.PlacedWith.leaveChain {E : Option DataSeg} {i : StreamId} (h : s.PlacedWith E) (hl : LeaveChain s t i) : t.PlacedWith E := by
  refine ⟨hl.pool ▸ h.pool_nodup, hl.reclaim ▸ h.reclaim_nodup, fun j => ?_, fun k => ?_⟩
  · by_cases hj : j = i
    · subst hj
      exact hl.chain.nodup (h.chain_nodup j)
    · rw [hl.others j hj]
      exact h.chain_nodup j
  · obtain ⟨h1, h2, h3, h4, h5, h6⟩ := h.each k
    by_cases hk : k ∈ (s.streams[i]'i.isLt).chain → k ∈ (t.streams[i]'i.isLt).chain
    · refine (h.each k).congr (by rw [hl.pool]) (by rw [hl.reclaim]) (fun j => ?_) (hl.stay k hk)
      by_cases hj : j = i
      · subst hj
        exact ⟨fun hm => hl.chain.subset hm, hk⟩
      · rw [hl.others j hj]
    · push Not at hk
      obtain ⟨hs, ht⟩ := hk
      obtain ⟨hloc, hown⟩ := (h3 i).1 hs
      obtain ⟨hloc', hrel'⟩ := hl.left k hs ht
      rw [hloc] at h1 h2 h6
      refine ⟨?_, ?_, fun j => ?_, ?_, ?_, ?_⟩
      · rw [hl.pool, h1, hloc']
        simp
      · rw [hl.reclaim, h2, hloc']
        simp
      · rw [hloc']
        simp only [reduceCtorEq, false_and, iff_false]
        by_cases hj : j = i
        · subst hj
          exact ht
        · rw [hl.others j hj, h3 j, hown]
          simp [Ne.symm hj]
      · rw [hloc']
        simp
      · rw [hloc', hrel']
        simp
      · rw [hloc', ← h6]
        simp

/-! ### One segment that changes its place -/

/-- One segment changes its place: every other segment stays where it is. -/
structure MovesOne (s t : State) (k : DataSeg) : Prop where
  pool : ∀ j : DataSeg, j ≠ k → (j ∈ t.pool ↔ j ∈ s.pool)
  reclaim : ∀ j : DataSeg, j ≠ k → (j ∈ t.reclaim ↔ j ∈ s.reclaim)
  chain : ∀ j : DataSeg, j ≠ k → ∀ i : StreamId, j ∈ (t.streams[i]'i.isLt).chain ↔ j ∈ (s.streams[i]'i.isLt).chain
  segment : ∀ j : DataSeg, j ≠ k → (s.segments[j]'j.isLt).SamePlace (t.segments[j]'j.isLt)

theorem State.HasPlace.erasing_congr {E E' : Option DataSeg} {k : DataSeg} (h : s.HasPlace E k) (he : E' = some k ↔ E = some k) :
    s.HasPlace E' k := { h with erasing := h.erasing.trans he.symm }

/-- The places after one segment has changed its own. -/
theorem State.PlacedWith.movesOne {E E' : Option DataSeg} {k : DataSeg} (h : s.PlacedWith E) (hm : MovesOne s t k)
    (he : ∀ j : DataSeg, j ≠ k → (E' = some j ↔ E = some j)) (hp : t.pool.Nodup) (hr : t.reclaim.Nodup)
    (hc : ∀ i : StreamId, (t.streams[i]'i.isLt).chain.Nodup) (hk : t.HasPlace E' k) : t.PlacedWith E' := by
  refine ⟨hp, hr, hc, fun j => ?_⟩
  by_cases hj : j = k
  · subst hj
    exact hk
  · exact ((h.each j).congr (hm.pool j hj) (hm.reclaim j hj) (hm.chain j hj) (hm.segment j hj)).erasing_congr (he j hj)

end Sys2Proof.Machine
end

section
/-! What a step of a job other than FORMAT makes of the data (what the engine then does aside): the cases that the invariants of the
places and of the stream records are proved in. -/

namespace Sys2Proof.Machine

-- One proof after the other: the stacks of proofs elaborated side by side come near the memory that a check may take.
set_option Elab.async false

open Sys2Proof

variable {s t u : State}

/-! ### What leaves the records as they are -/

/-- A captured image is there only where one of the same content was. -/
def Ledger.CapturedFrom (l l' : Ledger) : Prop := ∀ c', l'.captured = some c' → ∃ c, l.captured = some c ∧ c'.content = c.content

theorem Ledger.CapturedFrom.of_eq {l l' : Ledger} (h : l'.captured = l.captured) : l.CapturedFrom l' :=
  fun c hc => ⟨c, h ▸ hc, rfl⟩

theorem Ledger.CapturedFrom.of_none {l l' : Ledger} (h : l'.captured = none) : l.CapturedFrom l' := fun c hc => by
  rw [h] at hc
  cases hc

theorem Ledger.CapturedFrom.trans {l l' l'' : Ledger} (h : l.CapturedFrom l') (h' : l'.CapturedFrom l'') : l.CapturedFrom l'' := by
  intro c'' hc
  obtain ⟨c', hc', e'⟩ := h' c'' hc
  obtain ⟨c, hc, e⟩ := h c' hc'
  exact ⟨c, hc, e'.trans e⟩

theorem Ledger.capturedFrom_atPart (l : Ledger) (n : Nat) : l.CapturedFrom (l.atPart n) := by
  intro c' hc
  obtain ⟨c, h, rfl⟩ := Option.map_eq_some_iff.1 hc
  exact ⟨c, h, rfl⟩

/-- Streams, staging buffer, places, last sequences and the verdict of the frame are as before; a captured image is none or as it was. -/
structure SameRecords (s t : State) : Prop where
  streams : t.streams = s.streams
  staging : t.staging = s.staging
  pool : t.pool = s.pool
  reclaim : t.reclaim = s.reclaim
  port : t.port = s.port
  segment : ∀ k : DataSeg, (s.segments[k]'k.isLt).SamePlace (t.segments[k]'k.isLt)
  last : ∀ k : DataSeg, (t.segments[k]'k.isLt).last = (s.segments[k]'k.isLt).last
  captured : s.ledger.CapturedFrom t.ledger

theorem SameRecords.refl (s : State) : SameRecords s s := ⟨rfl, rfl, rfl, rfl, rfl, fun _ => .refl _, fun _ => rfl, .of_eq rfl⟩

theorem SameRecords.trans (h : SameRecords s t) (h' : SameRecords t u) : SameRecords s u :=
  ⟨h'.streams.trans h.streams, h'.staging.trans h.staging, h'.pool.trans h.pool, h'.reclaim.trans h.reclaim, h'.port.trans h.port,
    fun k => (h.segment k).trans (h'.segment k), fun k => (h'.last k).trans (h.last k), h.captured.trans h'.captured⟩

theorem SameRecords.samePlaces (h : SameRecords s t) : SamePlaces s t :=
  ⟨h.pool, h.reclaim, fun _ => by rw [h.streams], h.segment⟩

theorem sameRecords_array (s : State) (m : Memory) : SameRecords s { s with array := m } :=
  { SameRecords.refl s with }

theorem sameRecords_ledger (s : State) {l : Ledger} (h : s.ledger.CapturedFrom l) : SameRecords s { s with ledger := l } :=
  { SameRecords.refl s with captured := h }

theorem sameRecords_updSegment (s : State) (k : DataSeg) (f : Segment → Segment) (h : ∀ g : Segment, g.SamePlace (f g))
    (hl : ∀ g : Segment, (f g).last = g.last) : SameRecords s (s.updSegment k f) := by
  refine ⟨rfl, rfl, rfl, rfl, rfl, (samePlaces_updSegment s k f h).segment, fun j => ?_, .of_eq rfl⟩
  by_cases hj : k = j
  · subst hj
    rw [State.updSegment_same]
    exact hl _
  · rw [State.updSegment_other _ _ _ _ hj]

theorem sameRecords_raise (s : State) (e : Event) : SameRecords s (s.raise e) := { SameRecords.refl s with }

/-! ### The data after a step -/

/-- What a completed entry records of a stream: what was captured before or in this step, or the note's stream as it is. -/
def State.Records (s : State) (r : Recorded) : Prop :=
  (∃ c, r = ImageContent.recorded c.content ∧ (s.ledger.captured = some c ∨ c = s.freshCapture))
    ∨ ∃ i : StreamId, r = noteRecorded i (s.streams[i]'i.isLt).epoch (s.streams[i]'i.isLt).volatileFrontier

/-- The data that a step leaves before the engine goes on, with the segment that is under erasure then. -/
inductive StepData (s : State) : Option DataSeg → State → Prop
  | same {v : State} (h : SameRecords s v) : StepData s s.engine.erasing v
  | released {v : State} (h : SameRecords s v) (i : StreamId) : StepData s s.engine.erasing (v.releaseCovered i)
  | withdrawn {v : State} (h : SameRecords s v) (k : DataSeg) (ks : List DataSeg) (hk : s.pool = k :: ks) :
      StepData s s.engine.erasing (State.retire k { v with pool := v.pool.tail })
  | chained {v : State} (h : SameRecords s v) (e : Entry) (es : List Entry) (k : DataSeg) (ks : List DataSeg) (hs : s.staging = e :: es)
      (hk : s.pool = k :: ks) : StepData s s.engine.erasing (v.chained e k)
  | recorded {v : State} (h : SameRecords s v) (e : Entry) (es : List Entry) (k : DataSeg) (hs : s.staging = e :: es)
      (hk : s.headSegment e = some k) : StepData s s.engine.erasing (v.recorded e k)
  | failed {v : State} (h : SameRecords s v) (e : Entry) (es : List Entry) (hs : s.staging = e :: es) :
      StepData s s.engine.erasing
        { v with staging := { e with placement := .awaiting } :: markAwaiting e.stream v.staging.tail }
  | pulsed (r : Residue) (k : DataSeg) (n : Nat) (hj : s.engine.job = some (.reclaim k (.pulse n))) :
      StepData s (some k) (s.pulsed r k)
  | counted {v : State} (h : SameRecords s v) (k : DataSeg) (p : ErasePhase) (hj : s.engine.job = some (.reclaim k p)) (hp : p ≠ .pulse 0) :
      StepData s (some k) v
  | pooled {v : State} (h : SameRecords s v) (k : DataSeg) (p : ErasePhase) (hj : s.engine.job = some (.reclaim k p)) (hp : p ≠ .pulse 0) :
      StepData s none (v.toPool k)
  | retired {v : State} (h : SameRecords s v) (k : DataSeg) (p : ErasePhase) (hj : s.engine.job = some (.reclaim k p)) (hp : p ≠ .pulse 0)
      (b ok : Bool) : StepData s none (v.endRetire k b ok)
  | captured {v : State} (h : SameRecords (s.captureImage s.freshCapture) v) : StepData s s.engine.erasing v
  | handed {v : State} (h : SameRecords s v ∨ SameRecords (s.captureImage s.freshCapture) v) (b : Bool) (r : Recorded) (hr : s.Records r) :
      StepData s s.engine.erasing (v.handOn b r)

variable {v : State}

/-- How a step ends: with faults and a selection at most, and the engine names this segment as the one under erasure. -/
structure Ends (E : Option DataSeg) (v u : State) : Prop where
  faults : Faults v u
  erasing : u.engine.erasing = E
  first : u.FirstQueued

/-! ### The ends of steps -/

/-- A selection resumes the RECLAIM job in its slot where it can, and takes a new one from the head of the queue (R111). -/
theorem State.Selected.erasing {slot : Option (DataSeg × Nat)} (h : t.Selected slot) (hs : SlotOk slot) :
    t.engine.erasing = slot.map Prod.fst ∧ t.FirstQueued := by
  have hother : ∀ j, t.engine.job = j → (∀ k p, j ≠ some (.reclaim k p)) → t.engine.preempted = slot →
      t.engine.erasing = slot.map Prod.fst ∧ t.FirstQueued := by
    rintro j rfl hj hp
    exact ⟨hp ▸ Engine.erasing_of_job hj, .of_job hj⟩
  by_cases ht : t.ledger.trigger = true
  · obtain ⟨-, hp, w, -, hj⟩ := h.ledger ht
    exact hother _ hj (by simp) hp
  · rw [Bool.not_eq_true] at ht
    by_cases hst : t.staging = []
    · rcases hsl : slot with _ | ⟨k, n⟩
      · cases hr : t.reclaim with
        | nil =>
          obtain ⟨-, hp, hj⟩ := h.idle ht hst hsl hr
          exact hsl ▸ hother _ hj (by simp) (hp.trans hsl.symm)
        | cons k ks =>
          obtain ⟨-, -, hj⟩ := h.reclaim ht hst hsl k ks hr
          refine ⟨Engine.erasing_first hj, fun k' hk' => ?_⟩
          rw [hj, Option.some.injEq, Job.reclaim.injEq] at hk'
          rw [hr, hk'.1]
          rfl
      · obtain ⟨-, -, hj⟩ := h.preempted ht hst k n hsl
        have hn := (hs k n hsl).1
        refine ⟨Engine.erasing_reclaim hj fun h0 => ?_, fun k' hk' => ?_⟩
        · rw [ErasePhase.pulse.injEq] at h0
          omega
        · rw [hj, Option.some.injEq, Job.reclaim.injEq, ErasePhase.pulse.injEq] at hk'
          omega
    · obtain ⟨-, hp, hd⟩ := h.commit ht hst
      obtain ⟨c, hj⟩ := hd.job
      exact hother _ hj (by simp) hp

theorem ends_selected {slot : Option (DataSeg × Nat)} (hf : Faults v u) (h : u.Selected slot) (hs : SlotOk slot) :
    Ends (slot.map Prod.fst) v u := ⟨hf, (h.erasing hs).1, (h.erasing hs).2⟩

/-- A step that completes its job. -/
theorem ends_completed (h : SlotOk v.engine.preempted) : Ends (v.engine.preempted.map Prod.fst) v (v.endStep .completed) :=
  ends_selected (faults_endStep _ _) (endStep_selected v) h

/-- A step after which a job that is no RECLAIM job goes on. -/
theorem ends_other (hf : Faults v u) (hj : ∀ k p, u.engine.job ≠ some (.reclaim k p)) (hp : u.engine.preempted = v.engine.preempted) :
    Ends (v.engine.preempted.map Prod.fst) v u := ⟨hf, hp ▸ Engine.erasing_of_job hj, .of_job hj⟩

theorem ends_inside (v : State) {j : Job} (hj : ∀ k p, j ≠ .reclaim k p) :
    Ends (v.engine.preempted.map Prod.fst) v ((v.setJob j).endStep .inside) :=
  ends_other ((faults_setJob _ _).trans (faults_endStep _ _)) (fun k p h => hj k p (Option.some.inj h)) rfl

/-- A COMMIT step at a record boundary. -/
theorem ends_endRecord (h : SlotOk v.engine.preempted) (hr : v.engine.runs = true) :
    Ends (v.engine.preempted.map Prod.fst) v v.endRecord := by
  by_cases hb : v.engine.state = .suspendPending ∧ v.endRecord.staging ≠ []
  · obtain ⟨hs, hne⟩ := hb
    have hreach := reached_reachHead v
    have hw : v.reachHead.staging ≠ [] := fun hw => by
      have hf := (faults_endStep v.reachHead .completed).staging
      rw [hw] at hf
      rw [endRecord_completed hw] at hne
      exact hne (List.sublist_nil.1 hf)
    obtain ⟨c, hj⟩ := (hreach.decided hw).job
    refine ends_other (faults_endRecord v) ?_ ?_
    · rw [endRecord_boundary hw, boundary_suspended (hreach.state.trans hs)]
      intro k p hk
      rw [show v.reachHead.engine.job = some (.reclaim k p) from hk] at hj
      cases hj
    · rw [endRecord_boundary hw, boundary_suspended (hreach.state.trans hs)]
      exact hreach.preempted
  · refine ends_selected (faults_endRecord v) (endRecord_selected ?_) h
    rcases runs_iff.1 hr with hrun | hs
    · exact .inl hrun
    · exact .inr (by_contra fun hne => hb ⟨hs, hne⟩)

theorem ends_continueOpening {e : Entry} (he : e ∈ v.staging) (h : SlotOk v.engine.preempted) (hr : v.engine.runs = true) :
    Ends (v.engine.preempted.map Prod.fst) v (v.continueOpening e) := by
  unfold State.continueOpening
  split
  · exact ends_inside v (by simp)
  · have hx := ends_endRecord (v := v.faultStream e.stream) (by simpa using h) (by simpa using hr)
    have hp : (v.faultStream e.stream).engine.preempted = v.engine.preempted := by simp
    exact ⟨(Faults.fault e he .none).trans hx.faults, hp ▸ hx.erasing, hx.first⟩

theorem ends_chooseAgain (h : SlotOk v.engine.preempted) : Ends (v.engine.preempted.map Prod.fst) v v.chooseAgain := by
  unfold State.chooseAgain
  split
  · exact ends_inside v (by simp)
  · exact ends_completed h

/-- Outside a RECLAIM job the slot names the segment under erasure. -/
theorem ends_congr {slot : Option (DataSeg × Nat)} (h : Ends (v.engine.preempted.map Prod.fst) v u) (hp : v.engine.preempted = slot) :
    Ends (slot.map Prod.fst) v u := hp ▸ h

/-- The step of an erase pulse: the job goes on, is suspended, or gives way and leaves its segment in the slot (R112, R126). -/
theorem ends_reclaimPulse {k : DataSeg} {n : Nat} (hs : s.engine.sound = true) (hr : s.engine.runs = true)
    (hj : s.engine.job = some (.reclaim k (.pulse n)))
    (r : Residue) : Ends (some k) (s.pulsed r k) (s.reclaimPulse r k n) := by
  have hslot : s.engine.preempted = none := by
    by_contra h
    exact ((Engine.sound_iff.1 hs).2.2.2 h).2 k _ hj
  have hstep : s.reclaimPulse r k n = ((s.pulsed r k).setJob (.reclaim k ((s.pulsed r k).afterPulse k n))).endStep
    ((s.pulsed r k).afterPulse k n).stepEnd := rfl
  have hgoes : ∀ e : Engine, ∀ p : ErasePhase, e.job = some (.reclaim k p) → p ≠ .pulse 0 →
      Ends (some k) (s.pulsed r k) { s.pulsed r k with engine := e } := by
    refine fun e p he hp => ⟨faults_engine _ _, Engine.erasing_reclaim he hp, fun k' hk' => ?_⟩
    rw [show e.job = some (.reclaim k' (.pulse 0)) from hk', Option.some.injEq, Job.reclaim.injEq] at he
    exact absurd he.2.symm hp
  rw [hstep]
  obtain ⟨hpass, hlast, hnext⟩ := afterPulse_cases (s.pulsed r k) k n
  cases he : segmentErased (s.pulsed r k).array k.index with
  | true =>
    rw [hpass he]
    exact hgoes _ (.freeStage _) rfl (by simp)
  | false =>
    by_cases hn : 11 ≤ n
    · rw [hlast he hn]
      exact hgoes _ (.retire _ _) rfl (by simp)
    · rw [hnext he (by omega)]
      by_cases hrun : s.engine.state = .running
      · have hsel := boundary_reclaim_selected (s := (s.pulsed r k).setJob (.reclaim k (.pulse (n + 1)))) rfl hrun hslot
        refine ends_selected (slot := some (k, n + 1)) ((faults_setJob _ _).trans (faults_endStep _ _)) hsel fun k' n' h => ?_
        rw [Option.some.injEq, Prod.mk.injEq] at h
        omega
      · have hb := boundary_suspended (s := (s.pulsed r k).setJob (.reclaim k (.pulse (n + 1)))) ((runs_iff.1 hr).resolve_left hrun)
        rw [show ErasePhase.stepEnd (.pulse (n + 1)) = .boundary from rfl, hb]
        exact hgoes _ (.pulse (n + 1)) rfl (by simp)

/-! ### The steps -/

theorem sameRecords_programmed (s : State) (w : ArrayWork) (p : Pulses) : SameRecords s (s.programmed w p) := sameRecords_array s _

theorem sameRecords_header (s : State) (k : DataSeg) (h : Segment → HeaderState) :
    SameRecords s (s.updSegment k fun g => { g with header := h g }) :=
  sameRecords_updSegment s k _ (fun _ => ⟨rfl, rfl, rfl⟩) fun _ => rfl

theorem sameRecords_updLedger (s : State) (f : Ledger → Ledger) (h : s.ledger.CapturedFrom (f s.ledger)) :
    SameRecords s (s.updLedger f) := sameRecords_ledger s h

theorem sameRecords_setNote (s : State) (i : StreamId) (b : Bool) : SameRecords s (s.setNote i b) := sameRecords_ledger s (.of_eq rfl)

theorem sameRecords_haltLedger (s : State) : SameRecords s s.haltLedger :=
  (sameRecords_updLedger s _ (.of_none rfl)).trans (sameRecords_raise _ _)

/-- The data of a step, and how the step ends. -/
def Stepped (s u : State) : Prop := ∃ E v, StepData s E v ∧ Ends E v u

/-- The engine is sound, and its job is no RECLAIM job. -/
structure Engine.Other (e : Engine) : Prop where
  sound : e.sound = true
  job : ∀ k p, e.job ≠ some (.reclaim k p)

theorem Engine.other_of {e : Engine} {j : Job} (hs : e.sound = true) (hj : e.job = some j) (hn : ∀ k p, j ≠ .reclaim k p) : e.Other :=
  ⟨hs, fun k p h => hn k p (Option.some.inj (hj.symm.trans h))⟩

/-- A step of a job that is no RECLAIM job. -/
theorem stepped (hs : s.engine.Other) (hd : StepData s s.engine.erasing v) (he : Ends (v.engine.preempted.map Prod.fst) v u)
    (hp : v.engine.preempted = s.engine.preempted) : Stepped s u :=
  ⟨_, v, hd, (Engine.erasing_of_job hs.job).symm ▸ hp ▸ he⟩

/-- A LEDGER step whose entry is complete chooses again. -/
theorem stepped_chooseAgain (hs : s.engine.Other) (hd : StepData s s.engine.erasing v)
    (hv : v.engine = s.engine) : Stepped s v.chooseAgain :=
  stepped hs hd (ends_chooseAgain (hv ▸ Engine.sound_slot hs.sound)) (by rw [hv])

theorem stepped_inside {j : Job} (hs : s.engine.Other) (hj : ∀ k p, j ≠ .reclaim k p) (hd : StepData s s.engine.erasing v)
    (hv : v.engine = s.engine) : Stepped s ((v.setJob j).endStep .inside) :=
  stepped hs hd (ends_inside v hj) (by rw [hv])

theorem stepped_completed (hs : s.engine.Other) (hd : StepData s s.engine.erasing v)
    (hv : v.engine = s.engine) : Stepped s (v.endStep .completed) :=
  stepped hs hd (ends_completed (hv ▸ Engine.sound_slot hs.sound)) (by rw [hv])

/-! ### COMMIT steps -/

theorem stepped_withdraw {k : DataSeg} {ks : List DataSeg} (hs : s.engine.Other) (h : SameRecords s v) (hv : v.engine = s.engine)
    (hk : s.pool = k :: ks) :
    Stepped s (v.withdraw k) :=
  stepped_inside hs (v := State.retire k { v with pool := v.pool.tail }) (by simp) (.withdrawn h k ks hk) hv

theorem stepped_recordStep {e : Entry} {es : List Entry} {k : DataSeg} (p : Pulses) (hs : s.engine.Other)
    (hr : s.engine.runs = true) (hst : s.staging = e :: es) (hk : s.headSegment e = some k) : Stepped s (s.recordStep p e k) := by
  unfold State.recordStep
  dsimp only
  split
  · rw [State.committed_eq]
    have he : ((s.programmed (s.commitWork .record) p).recorded e k).engine = s.engine := State.recorded_engine _ e k
    exact stepped hs (.recorded (sameRecords_programmed s _ p) e es k hst hk)
      (ends_endRecord (he ▸ Engine.sound_slot hs.sound) (he ▸ hr)) (by rw [he])
  · unfold State.recordFailed
    refine stepped_inside hs (by simp) (.failed ?_ e es hst) rfl
    exact (sameRecords_programmed s _ p).trans (sameRecords_updSegment _ k _ (fun _ => ⟨rfl, rfl, rfl⟩) fun _ => rfl)

theorem stepped_continueOpening {e : Entry} (hs : s.engine.Other) (hr : s.engine.runs = true)
    (hd : StepData s s.engine.erasing v) (hv : v.engine = s.engine) (he : e ∈ v.staging) :
    Stepped s (v.continueOpening e) :=
  stepped hs hd (ends_continueOpening he (hv ▸ Engine.sound_slot hs.sound) (hv ▸ hr)) (by rw [hv])

/-! ### LEDGER steps -/

theorem records_captured {c : Captured} (h : s.ledger.captured = some c ∨ c = s.freshCapture) :
    s.Records (ImageContent.recorded c.content) := .inl ⟨c, rfl, h⟩

/-- The image in progress is the captured one, or the one that this step captures (R138). -/
theorem capturedOr_cases (s : State) : s.ledger.captured = some (s.capturedOr s.freshCapture)
    ∨ s.capturedOr s.freshCapture = s.freshCapture := by
  cases h : s.ledger.captured with
  | none => exact .inr (capturedOr_none h _)
  | some c => exact .inl (by rw [capturedOr_some h])

/-- A state of the same records as before the step, or as after the capture of the image (R138). -/
def Begun (s v : State) : Prop := SameRecords s v ∨ SameRecords (s.captureImage s.freshCapture) v

theorem Begun.trans (h : Begun s v) (h' : SameRecords v u) : Begun s u := h.imp (·.trans h') (·.trans h')

theorem Begun.data (h : Begun s v) : StepData s s.engine.erasing v := by
  rcases h with h | h
  · exact .same h
  · exact .captured h

theorem begun_beginImage (s : State) : Begun s s.beginImage := by
  unfold State.beginImage
  split
  · exact .inl (.refl s)
  · exact .inr (.refl _)

theorem stepped_completeImage {c : Captured} (hs : s.engine.Other) (h : Begun s v) (hv : v.engine = s.engine)
    (hc : s.ledger.captured = some c ∨ c = s.freshCapture) : Stepped s (v.completeImage c).chooseAgain := by
  refine stepped_chooseAgain hs (.handed (h.trans (sameRecords_updLedger v _ (.of_none rfl))) true _ (records_captured hc)) ?_
  simp [hv]

theorem stepped_attemptFailed (hs : s.engine.Other) (h : Begun s v) (hv : v.engine = s.engine) (a : AnchorSeg) (n : Nat) :
    Stepped s (v.attemptFailed a n) := by
  unfold State.attemptFailed
  split
  · exact stepped_inside hs (by simp) (h.trans (sameRecords_updLedger v _ (.of_none rfl))).data hv
  · exact stepped_completed hs (h.trans (sameRecords_haltLedger v)).data hv

theorem stepped_imageUnit {w : LedgerWork} (hs : s.engine.Other) (hj : s.engine.job = some (.ledger w)) (p : Pulses) :
    Stepped s (s.imageUnit p) := by
  have hb : Begun s ((s.beginImage.programmed (s.ledgerWork .image) p).updLedger fun l => { l with nextFree := l.nextFree + 1 }) :=
    ((begun_beginImage s).trans (sameRecords_programmed _ _ p)).trans (sameRecords_updLedger _ _ (.of_eq rfl))
  have hv : s.beginImage.engine = s.engine := by simp
  have hj' : s.beginImage.engine.job = some (.ledger w) := hv ▸ hj
  unfold State.imageUnit
  dsimp only
  split
  · split
    · refine stepped hs (hb.trans (sameRecords_updLedger _ (fun l => l.atPart _) (Ledger.capturedFrom_atPart _ _))).data
        (ends_other (faults_endStep _ _) (fun k q hk => ?_) rfl) (congrArg Engine.preempted hv)
      rw [show s.beginImage.engine.job = some (.reclaim k q) from hk] at hj'
      cases hj'
    · exact stepped_completeImage hs hb hv (capturedOr_cases s)
  · exact stepped_inside hs (by simp) (hb.trans (sameRecords_updLedger _ (fun l => l.atPart _) (Ledger.capturedFrom_atPart _ _))).data hv

theorem stepped_compactUnit (hs : s.engine.Other) (h : Begun s v) (hv : v.engine = s.engine)
    (hc : s.ledger.captured = some (v.capturedOr v.freshCapture) ∨ v.capturedOr v.freshCapture = s.freshCapture) (w : ArrayWork)
    (p : Pulses) (a : AnchorSeg) (n : Nat) : Stepped s (v.compactUnit w p a n) := by
  have hp : Begun s (v.programmed w p) := h.trans (sameRecords_programmed v w p)
  unfold State.compactUnit
  dsimp only
  split
  · split
    · exact stepped_inside hs (by simp) (hp.trans (sameRecords_updLedger _ _ (Ledger.capturedFrom_atPart _ _))).data hv
    · exact stepped_completeImage hs (hp.trans (sameRecords_updLedger _ _ (.of_eq rfl))) hv hc
  · exact stepped_attemptFailed hs hp hv a n

theorem stepped_ledgerUnit {w : LedgerWork} (hs : s.engine.Other) (hj : s.engine.job = some (.ledger w)) (hw : w.isImage = true)
    (p : Pulses) :
    Stepped s (s.ledgerUnit p w) := by
  cases w with
  | image => exact stepped_imageUnit hs hj p
  | compactCapture a n =>
    exact stepped_compactUnit (v := s.captureImage s.freshCapture) hs (.inr (.refl _)) (by simp) (.inr rfl) _ p a n
  | compactImage a n => exact stepped_compactUnit hs (.inl (.refl s)) rfl (capturedOr_cases s) _ p a n
  | note i => cases hw
  | compactErase a m n => cases hw

theorem stepped_noteUnitStep (hs : s.engine.Other) (p : Pulses) (i : StreamId) : Stepped s (s.noteUnitStep p i) := by
  have hv : SameRecords s (((s.setNote i false).programmed (s.ledgerWork (.note i)) p).updLedger fun l =>
      { l with nextFree := l.nextFree + 1 }) :=
    ((sameRecords_setNote s i false).trans (sameRecords_programmed _ _ p)).trans
      (sameRecords_updLedger _ _ (.of_eq rfl))
  unfold State.noteUnitStep
  dsimp only
  split
  · exact stepped_chooseAgain hs (.handed (.inl hv) false _ (.inr ⟨i, rfl⟩)) (by simp)
  · refine stepped_inside hs (by simp) (.same (hv.trans (sameRecords_setNote _ i true))) rfl

theorem stepped_compactPulse (hs : s.engine.Other) (r : Residue) (a : AnchorSeg) (m n : Nat) :
    Stepped s (s.compactPulse r a m n) := by
  have hv := sameRecords_array s (erasePulse s.array a.val r)
  unfold State.compactPulse
  dsimp only
  split
  · exact stepped_inside hs (by simp) (.same (hv.trans (sameRecords_updLedger _ _ (.of_eq rfl)))) rfl
  · split
    · exact stepped_completed hs (.same (hv.trans (sameRecords_haltLedger _))) rfl
    · exact stepped_inside hs (by simp) (.same hv) rfl

/-! ### RECLAIM steps -/

/-- A RECLAIM job runs with an empty slot (R126). -/
theorem preempted_of_reclaim {k : DataSeg} {p : ErasePhase} (hs : s.engine.sound = true) (hj : s.engine.job = some (.reclaim k p)) :
    s.engine.preempted = none := by
  by_contra h
  exact ((Engine.sound_iff.1 hs).2.2.2 h).2 k _ hj

/-- A RECLAIM step that completes its job. -/
theorem ends_reclaimed {k : DataSeg} {p : ErasePhase} (hs : s.engine.sound = true) (hj : s.engine.job = some (.reclaim k p))
    (hv : v.engine = s.engine) : Ends none v (v.endStep .completed) := by
  have hnone : v.engine.preempted = none := hv ▸ preempted_of_reclaim hs hj
  have he := ends_completed (v := v) (hv ▸ Engine.sound_slot hs)
  rwa [hnone] at he

theorem stepped_reclaimFreeStage {k : DataSeg} {c : Nat} (hs : s.engine.sound = true) (hj : s.engine.job = some (.reclaim k (.freeStage c)))
    (p : Pulses) : Stepped s (s.reclaimFreeStage p k c) := by
  have hp : ErasePhase.freeStage c ≠ .pulse 0 := by simp
  have hv : ∀ ok, SameRecords s (State.enterCount k c ok (s.programmed (ErasePhase.work k (.freeStage c)) p)) := fun ok =>
    (sameRecords_programmed s _ p).trans (sameRecords_updSegment _ k _ (fun _ => ⟨rfl, rfl, rfl⟩) fun _ => rfl)
  unfold State.reclaimFreeStage
  dsimp only
  generalize (ErasePhase.work k (.freeStage c)).succeeds p s.array = ok
  split
  · exact ⟨none, _, .pooled (hv ok) k _ hj hp, ends_reclaimed hs hj (by simp)⟩
  · refine ⟨some k, _, .counted (hv ok) k _ hj hp, (faults_setJob _ _).trans (faults_endStep _ _), ?_, fun k' hk' => ?_⟩
    · exact Engine.erasing_reclaim (p := .retire (retireCause ok) true) rfl (by simp)
    · have h : some (Job.reclaim k (.retire (retireCause ok) true)) = some (.reclaim k' (.pulse 0)) := hk'
      simp at h

theorem stepped_reclaimRetire {k : DataSeg} {d : Byte} {b : Bool} (hs : s.engine.sound = true)
    (hj : s.engine.job = some (.reclaim k (.retire d b))) (p : Pulses) : Stepped s (s.reclaimRetire p k d b) :=
  ⟨none, _, .retired (sameRecords_programmed s _ p) k _ hj (by simp) b _, ends_reclaimed hs hj (by simp)⟩

/-! ### Every step -/

theorem State.chained_engine (s : State) (e : Entry) (k : DataSeg) : (s.chained e k).engine = s.engine := by
  unfold State.chained
  split
  · rfl
  · exact (stays_evalHeld _ _).1.engine
  · exact (stays_evalHeld _ _).1.engine

/-- Every step of a job other than FORMAT: what it makes of the data, and how it ends. -/
theorem StepAct.stepped {c : Instr} (hs : s.engine.sound = true) (hr : s.engine.runs = true) (h : StepAct s c u) : Stepped s u := by
  cases h with
  | sealOpen p e es k hj hst hk =>
    have hs := Engine.other_of hs hj (by simp)
    refine stepped_inside hs (by simp) (.released ((sameRecords_programmed s _ p).trans (sameRecords_updSegment _ k _ ?_ ?_)) e.stream)
      (by simp)
    · exact fun g => ⟨rfl, rfl, rfl⟩
    · exact fun g => rfl
  | freeStage p k ks hj hk =>
    have hs := Engine.other_of hs hj (by simp)
    unfold State.openFreeStage
    dsimp only
    split
    · exact stepped_inside hs (by simp) (.same ((sameRecords_programmed s _ p).trans (sameRecords_header _ k fun _ => .free))) rfl
    · exact stepped_withdraw hs (sameRecords_programmed s _ p) rfl hk
  | openStage p e es k ks hj hst hk =>
    have hs := Engine.other_of hs hj (by simp)
    unfold State.openStep
    dsimp only
    split
    · rw [State.opened_eq]
      exact stepped_inside hs (by simp) (.chained (sameRecords_programmed s _ p) e es k ks hst hk) (State.chained_engine _ e k)
    · exact stepped_withdraw hs (sameRecords_programmed s _ p) rfl hk
  | openRetire p e es k hj hst =>
    have hs := Engine.other_of hs hj (by simp)
    refine stepped_continueOpening hs hr (.same ((sameRecords_programmed s _ p).trans (sameRecords_header _ k fun g => _))) (by simp) ?_
    simp [hst]
  | record p e es k hj hst hk =>
    have hs := Engine.other_of hs hj (by simp)
    exact stepped_recordStep p hs hr hst hk
  | close p e es k hj hst =>
    have hs := Engine.other_of hs hj (by simp)
    refine stepped_continueOpening hs hr (.released (((sameRecords_programmed s _ p).trans
      (sameRecords_header _ k fun _ => .retirePending)).trans (sameRecords_raise _ .segmentRetired)) e.stream) (by simp) ?_
    simp [hst]
  | reclaimPulse r k n hj => exact ⟨some k, s.pulsed r k, .pulsed r k n hj, ends_reclaimPulse hs hr hj r⟩
  | reclaimFreeStage p k c hj => exact stepped_reclaimFreeStage hs hj p
  | reclaimRetire p k d b hj => exact stepped_reclaimRetire hs hj p
  | image p w hj hw =>
    have hs := Engine.other_of hs hj (by simp)
    exact stepped_ledgerUnit hs hj hw p
  | note p i hj =>
    have hs := Engine.other_of hs hj (by simp)
    exact stepped_noteUnitStep hs p i
  | compactPulse r a m n hj =>
    have hs := Engine.other_of hs hj (by simp)
    exact stepped_compactPulse hs r a m n
  | vaultByte p g o b bs hj =>
    have hs := Engine.other_of hs hj (by simp)
    unfold State.vaultByteStep
    dsimp only
    split
    · exact stepped_completed hs (.same { SameRecords.refl s with }) rfl
    · exact stepped_inside hs (by simp) (.same { SameRecords.refl s with }) rfl
  | vaultPulse r g n hj =>
    have hs := Engine.other_of hs hj (by simp)
    unfold State.vaultPulse
    dsimp only
    split
    · exact stepped_completed hs (.same { SameRecords.refl s with }) rfl
    · exact stepped_inside hs (by simp) (.same { SameRecords.refl s with }) rfl
  | vaultLock b g hj =>
    have hs := Engine.other_of hs hj (by simp)
    exact stepped_completed hs (.same { SameRecords.refl s with }) rfl

end Sys2Proof.Machine
end

section
/-! Each data segment keeps one place (R97). Settles O7. -/

namespace Sys2Proof.Machine

-- One proof after the other: the stacks of proofs elaborated side by side come near the memory that a check may take.
set_option Elab.async false

open Sys2Proof

variable {s t u v : State} {E : Option DataSeg}

/-! ### The changes of place -/

/-- The release walk (R82). -/
theorem State.PlacedWith.releaseCovered (h : s.PlacedWith E) (i : StreamId) : (s.releaseCovered i).PlacedWith E := by
  have happend := s.walked_append i
  have hnodup := h.chain_nodup i
  rw [← happend, List.nodup_append] at hnodup
  have hmem : ∀ k, k ∈ (s.streams[i]'i.isLt).chain ↔ k ∈ s.walked i ∨ k ∈ s.unwalked i := fun k => by
    rw [← happend, List.mem_append]
  refine h.leaveChain (i := i) ⟨by simp, by simp, ?_, fun j hj => ?_, fun k hs ht => ?_, fun k hk => ?_⟩
  · rw [State.releaseCovered_chain, ← happend]
    exact List.sublist_append_right _ _
  · rw [State.releaseCovered_other _ _ _ hj]
  · rw [State.releaseCovered_chain] at ht
    rw [State.releaseCovered_segments, if_pos (((hmem k).1 hs).resolve_right ht)]
    exact ⟨rfl, rfl⟩
  · have hw : k ∉ s.walked i := fun hw => by
      have hu := hk ((hmem k).2 (.inl hw))
      rw [State.releaseCovered_chain] at hu
      exact hnodup.2.2 k hw k hu rfl
    rw [State.releaseCovered_segments, if_neg hw]
    exact .refl _

/-- The place of a segment whose location is known. -/
theorem State.HasPlace.of_location {k : DataSeg} {l : Location} (hl : (t.segments[k]'k.isLt).location = l) (hp : k ∈ t.pool ↔ l = .pool)
    (hr : k ∈ t.reclaim ↔ l = .reclaim) (hc : ∀ i : StreamId, k ∈ (t.streams[i]'i.isLt).chain ↔ l = .chain
        ∧ (t.segments[k]'k.isLt).owner = some i)
    (ho : l = .chain → (t.segments[k]'k.isLt).owner ≠ none) (hs : l = .release ↔ (t.segments[k]'k.isLt).release.isSome = true)
    (he : l = .erasing ↔ E = some k) : t.HasPlace E k := by
  subst hl
  exact ⟨hp, hr, hc, ho, hs, he⟩

namespace State.HasPlace

variable {k : DataSeg} (h : s.HasPlace E k)

include h

theorem not_pool (hl : (s.segments[k]'k.isLt).location ≠ .pool) : k ∉ s.pool := mt h.pool.1 hl

theorem not_reclaim (hl : (s.segments[k]'k.isLt).location ≠ .reclaim) : k ∉ s.reclaim := mt h.reclaim.1 hl

theorem not_chain (hl : (s.segments[k]'k.isLt).location ≠ .chain) (i : StreamId) :
    k ∉ (s.streams[i]'i.isLt).chain := fun hm => hl ((h.chain i).1 hm).1

theorem not_erasing (hl : (s.segments[k]'k.isLt).location ≠ .erasing) : E ≠ some k := mt h.erasing.2 hl

end State.HasPlace

/-- A segment of the retired list. -/
theorem State.HasPlace.of_retired {k : DataSeg} (hl : (t.segments[k]'k.isLt).location = .retired)
    (hr : (t.segments[k]'k.isLt).release = none)
    (hp : k ∉ t.pool) (hq : k ∉ t.reclaim) (hc : ∀ i : StreamId, k ∉ (t.streams[i]'i.isLt).chain) (he : E ≠ some k) : t.HasPlace E k :=
  .of_location hl (iff_of_false hp (by simp)) (iff_of_false hq (by simp)) (fun i => iff_of_false (hc i) (by simp)) (by simp)
    (iff_of_false (by simp) (by rw [hr]; simp)) (iff_of_false (by simp) he)

theorem nodup_concat {ks : List DataSeg} {k : DataSeg} (h : ks.Nodup) (hk : k ∉ ks) : (ks ++ [k]).Nodup := by
  rw [List.nodup_append]
  refine ⟨h, List.nodup_singleton k, fun a ha b hb e => hk ?_⟩
  rw [List.mem_singleton] at hb
  exact hb ▸ e ▸ ha

/-- A segment leaves the release list for the reclaim queue, or for the retired list (R101). -/
theorem State.PlacedWith.dispose (h : s.PlacedWith E) {k : DataSeg} (hk : (s.segments[k]'k.isLt).location = .release) :
    (s.dispose k).PlacedWith E := by
  have hpool : k ∉ (s.dispose k).pool := by
    rw [State.dispose_pool]
    exact (h.each k).not_pool (by rw [hk]; decide)
  have hout : k ∉ s.reclaim := (h.each k).not_reclaim (by rw [hk]; decide)
  have hchain : ∀ i : StreamId, k ∉ ((s.dispose k).streams[i]'i.isLt).chain := fun i => by
    rw [State.dispose_streams]
    exact (h.each k).not_chain (by rw [hk]; decide) i
  have herase : E ≠ some k := (h.each k).not_erasing (by rw [hk]; decide)
  have hseg : ((s.dispose k).segments[k]'k.isLt) = (s.segments[k]'k.isLt).disposed := by rw [State.dispose_segments, if_pos rfl]
  have hin : ∀ j, j ∈ (s.dispose k).reclaim ↔ j ∈ s.reclaim ∨ ((s.segments[k]'k.isLt).header ≠ .retirePending ∧ j = k) := fun j => by
    rw [State.dispose_reclaim, List.mem_append]
    by_cases hh : (s.segments[k]'k.isLt).header = .retirePending
    · rw [if_pos hh]
      simp [-Fin.getElem_fin, hh]
    · rw [if_neg hh]
      simp [-Fin.getElem_fin, hh]
  refine h.movesOne (k := k) ⟨fun j _ => by simp, fun j hj => by simp [hin, hj], fun j _ i => by simp, fun j hj => ?_⟩ (fun _ _ => Iff.rfl)
    (by simpa using h.pool_nodup) ?_ (fun i => by simpa using h.chain_nodup i) ?_
  · rw [State.dispose_segments, if_neg hj]
    exact .refl _
  · rw [State.dispose_reclaim]
    split
    · simpa using h.reclaim_nodup
    · exact nodup_concat h.reclaim_nodup hout
  · unfold Segment.disposed at hseg
    by_cases hh : (s.segments[k]'k.isLt).header = .retirePending
    · rw [if_pos hh] at hseg
      exact .of_retired (by rw [hseg]) (by rw [hseg]) hpool (fun hm => ((hin k).1 hm).elim hout fun hn => hn.1 hh) hchain herase
    · rw [if_neg hh] at hseg
      exact .of_location (l := .reclaim) (by rw [hseg]) (iff_of_false hpool (by simp)) (iff_of_true ((hin k).2 (.inr ⟨hh, rfl⟩)) rfl)
        (fun i => iff_of_false (hchain i) (by simp)) (by simp) (iff_of_false (by simp) (by rw [hseg]; simp)) (iff_of_false (by simp) herase)

theorem State.PlacedWith.disposeAll : ∀ (ks : List DataSeg) (s : State), s.PlacedWith E → ks.Nodup →
    (∀ k ∈ ks, (s.segments[k]'k.isLt).location = .release) → (s.disposeAll ks).PlacedWith E
  | [], _, h, _, _ => h
  | k :: ks, s, h, hn, hk => by
    rw [List.nodup_cons] at hn
    refine State.PlacedWith.disposeAll ks (s.dispose k) (h.dispose (hk k List.mem_cons_self)) hn.2 fun j hj => ?_
    rw [State.dispose_segments, if_neg fun (e : j = k) => hn.1 (e ▸ hj)]
    exact hk j (List.mem_cons_of_mem k hj)

/-- A completed entry hands on (R140). -/
theorem State.PlacedWith.handOn (h : s.PlacedWith E) (b : Bool) (r : Recorded) : (s.handOn b r).PlacedWith E := by
  have hs : SamePlaces s (s.recordedIn r) := ⟨rfl, rfl, fun i => ?_, fun _ => .refl _⟩
  · have hd : (s.disposedBy b r).PlacedWith E :=
      State.PlacedWith.disposeAll _ _ (h.congr hs) (satisfiedBy_nodup _ b r) fun k hk => (mem_satisfiedBy.1 hk).1
    rw [State.handOn_eq]
    generalize s.disposedBy b r = v at hd
    have hsat : (v.satisfy (v.syncedBy b r)).PlacedWith E := hd.congr (.of_eq rfl rfl rfl rfl)
    exact hsat.congr (samePlaces_evalSync _)
  · rw [State.recordedIn_streams]
    unfold Stream.handedOn
    split
    · split <;> rfl
    · rfl

/-- The pool head whose opening failed joins the retired list (R117). -/
theorem State.PlacedWith.withdrawn (h : s.PlacedWith E) {k : DataSeg} {ks : List DataSeg} (hk : s.pool = k :: ks) :
    (State.retire k { s with pool := s.pool.tail }).PlacedWith E := by
  have hkp : k ∈ s.pool := hk ▸ List.mem_cons_self
  have hl : (s.segments[k]'k.isLt).location = .pool := (h.each k).pool.1 hkp
  have hnodup := h.pool_nodup
  rw [hk, List.nodup_cons] at hnodup
  have htail : s.pool.tail = ks := by rw [hk]; rfl
  have hpool : (State.retire k { s with pool := s.pool.tail }).pool = ks := htail
  refine h.movesOne (k := k) ⟨fun j hj => ?_, fun j _ => Iff.rfl, fun j _ i => Iff.rfl, fun j hj => ?_⟩ (fun _ _ => Iff.rfl) ?_
    h.reclaim_nodup h.chain_nodup ?_
  · rw [hpool, hk, List.mem_cons]
    simp [hj]
  · have hg := State.updSegment_other { s with pool := s.pool.tail } k j
      (fun g => { g with location := .retired, release := none }) (Ne.symm hj)
    rw [show ((State.retire k { s with pool := s.pool.tail }).segments[j]'j.isLt) = (s.segments[j]'j.isLt) from hg]
    exact .refl _
  · exact hpool ▸ hnodup.2
  · have hg := State.retire_same { s with pool := s.pool.tail } k
    exact .of_retired (by rw [hg]) (by rw [hg]) (hpool ▸ hnodup.1) ((h.each k).not_reclaim (by rw [hl]; decide))
      ((h.each k).not_chain (by rw [hl]; decide)) ((h.each k).not_erasing (by rw [hl]; decide))

theorem State.chained_reclaim (s : State) (e : Entry) (k : DataSeg) : (s.chained e k).reclaim = s.reclaim := by
  unfold State.chained
  split
  · rfl
  · exact (stays_evalHeld _ _).1.reclaim
  · exact (stays_evalHeld _ _).1.reclaim

theorem State.chained_segments_other (s : State) (e : Entry) {k j : DataSeg} (h : j ≠ k) :
    ((s.chained e k).segments[j]'j.isLt) = (s.segments[j]'j.isLt) := by
  have hg : ((s.joinChain e k).segments[j]'j.isLt) = (s.segments[j]'j.isLt) :=
    State.updSegment_other s k j (fun g => g.openedFor e (s.streams[e.stream]'e.stream.isLt).epoch) h.symm
  unfold State.chained
  split
  · exact hg
  · rw [State.evalHeld_segments]
    exact hg
  · rw [State.evalHeld_segments]
    exact hg

theorem endRetire_other (s : State) {k j : DataSeg} (b ok : Bool) (h : j ≠ k) :
    ((s.endRetire k b ok).segments[j]'j.isLt) = (s.segments[j]'j.isLt) := by
  unfold State.endRetire State.retire
  rw [State.raise_segments, State.updSegment_other _ k j _ h.symm, State.updSegment_other s k j _ h.symm]

/-- The pool head joins the tail of a stream's chain (R116). -/
theorem State.PlacedWith.chained (h : s.PlacedWith E) (e : Entry) {k : DataSeg} {ks : List DataSeg} (hk : s.pool = k :: ks) :
    (s.chained e k).PlacedWith E := by
  have hl : (s.segments[k]'k.isLt).location = .pool := (h.each k).pool.1 (hk ▸ List.mem_cons_self)
  have hnodup := h.pool_nodup
  rw [hk, List.nodup_cons] at hnodup
  have hpool : (s.chained e k).pool = ks := by rw [State.chained_pool, hk]; rfl
  have hout := (h.each k).not_chain (by rw [hl]; decide)
  have hchain : ∀ i : StreamId, ((s.chained e k).streams[i]'i.isLt).chain
      = if i = e.stream then (s.streams[i]'i.isLt).chain ++ [k] else (s.streams[i]'i.isLt).chain := by
    intro i
    split
    next hi =>
      subst hi
      exact State.chained_chain s e k
    next hi => rw [State.chained_other i hi]
  have hreclaim := s.chained_reclaim e k
  refine h.movesOne (k := k) ⟨fun j hj => ?_, fun j _ => by rw [hreclaim], fun j hj i => ?_, fun j hj => ?_⟩ (fun _ _ => Iff.rfl) ?_
    (hreclaim ▸ h.reclaim_nodup) (fun i => ?_) ?_
  · rw [hpool, hk, List.mem_cons]
    simp [hj]
  · rw [hchain]
    split
    · simp [hj]
    · rfl
  · rw [State.chained_segments_other s e hj]
    exact .refl _
  · exact hpool ▸ hnodup.2
  · rw [hchain]
    split
    · exact nodup_concat (h.chain_nodup i) (hout i)
    · exact h.chain_nodup i
  · have hg := s.chained_segments e k
    refine .of_location (l := .chain) (by rw [hg]; rfl) (iff_of_false (hpool ▸ hnodup.1) (by simp))
      (iff_of_false (hreclaim ▸ (h.each k).not_reclaim (by rw [hl]; decide)) (by simp)) (fun i => ?_)
          (fun _ => by rw [hg]; simp [Segment.openedFor])
      (iff_of_false (by simp) ?_) (iff_of_false (by simp) ((h.each k).not_erasing (by rw [hl]; decide)))
    · rw [hchain, hg]
      split
      next hi => simp [hi, Segment.openedFor]
      next hi => exact iff_of_false (hout i) fun ho => hi (Option.some.inj ho.2).symm
    · rw [hg]
      exact mt (h.each k).release.2 (by rw [hl]; decide)

/-- The segment of a RECLAIM job leaves the queue at its first pulse, and is under erasure from then on (R102). -/
theorem State.InPlaces.pulsed (h : s.InPlaces) (r : Residue) {k : DataSeg} {n : Nat} (hj : s.engine.job = some (.reclaim k (.pulse n))) :
    (s.pulsed r k).PlacedWith (some k) := by
  have hloc : (s.segments[k]'k.isLt).location = .reclaim ∨ (s.segments[k]'k.isLt).location = .erasing := by
    cases n with
    | zero => exact .inl ((h.placed.each k).reclaim.1 (List.mem_of_mem_head? (h.first k hj)))
    | succ n => exact .inr ((h.placed.each k).erasing.2 (Engine.erasing_reclaim hj (by simp)))
  have hne : ∀ l : Location, l ≠ .reclaim → l ≠ .erasing → (s.segments[k]'k.isLt).location ≠ l := fun l h1 h2 he =>
    hloc.elim (fun h => h1 (he.symm.trans h)) fun h => h2 (he.symm.trans h)
  have he : ∀ j : DataSeg, j ≠ k → (some k = some j ↔ s.engine.erasing = some j) := fun j hjk => by
    cases n with
    | zero => simp [Engine.erasing_first hj, Ne.symm hjk]
    | succ n => rw [Engine.erasing_reclaim hj (by simp)]
  have hg := s.pulsed_same r k
  refine h.placed.movesOne (k := k) ⟨fun j _ => Iff.rfl, fun j hjk => ?_, fun j _ i => Iff.rfl, fun j hjk => ?_⟩ he
    h.placed.pool_nodup (h.placed.reclaim_nodup.filter _) h.placed.chain_nodup ?_
  · rw [show (s.pulsed r k).reclaim = s.reclaim.filter (· != k) from rfl, List.mem_filter]
    simp [hjk]
  · have ho := State.updSegment_other { s with
      array := erasePulse s.array k.index r, reclaim := s.reclaim.filter (· != k) } k j (fun g => { g with location := .erasing })
      (Ne.symm hjk)
    rw [show ((s.pulsed r k).segments[j]'j.isLt) = (s.segments[j]'j.isLt) from ho]
    exact .refl _
  · have hin : k ∉ (s.pulsed r k).reclaim := fun hm => by
      rw [show (s.pulsed r k).reclaim = s.reclaim.filter (· != k) from rfl, List.mem_filter] at hm
      simp at hm
    refine .of_location (l := .erasing) (by rw [hg]) (iff_of_false ((h.placed.each k).not_pool (hne _ (by decide) (by decide))) (by simp))
      (iff_of_false hin (by simp)) (fun i => iff_of_false ((h.placed.each k).not_chain (hne _ (by decide) (by decide)) i) (by simp))
      (by simp) (iff_of_false (by simp) ?_) (iff_of_true rfl rfl)
    rw [hg]
    exact mt (h.placed.each k).release.2 (hne _ (by decide) (by decide))

/-- An erased segment joins the pool tail (R123). -/
theorem State.PlacedWith.pooled {k : DataSeg} (h : s.PlacedWith (some k)) : (s.toPool k).PlacedWith none := by
  have hl : (s.segments[k]'k.isLt).location = .erasing := (h.each k).erasing.2 rfl
  have hout := (h.each k).not_pool (by rw [hl]; decide)
  have hg := s.toPool_same k
  have hpool : (s.toPool k).pool = s.pool ++ [k] := rfl
  refine h.movesOne (k := k) ⟨fun j hj => ?_, fun j _ => Iff.rfl, fun j _ i => Iff.rfl, fun j hj => ?_⟩
    (fun j hj => by simp [Ne.symm hj]) (nodup_concat h.pool_nodup hout) h.reclaim_nodup h.chain_nodup ?_
  · rw [hpool]
    simp [hj]
  · have ho := State.updSegment_other s k j (fun g => { g.erased with location := .pool, header := .free }) (Ne.symm hj)
    rw [show ((s.toPool k).segments[j]'j.isLt) = (s.segments[j]'j.isLt) from ho]
    exact .refl _
  · refine .of_location (l := .pool) (by rw [hg]) (iff_of_true (by rw [hpool]; simp) rfl)
      (iff_of_false ((h.each k).not_reclaim (by rw [hl]; decide)) (by simp))
      (fun i => iff_of_false ((h.each k).not_chain (by rw [hl]; decide) i) (by simp)) (by simp) (iff_of_false (by simp) ?_) (by simp)
    rw [hg]
    exact mt (h.each k).release.2 (by rw [hl]; decide)

/-- A segment whose erase has failed for good joins the retired list (R124, R125). -/
theorem State.PlacedWith.retired {k : DataSeg} (h : s.PlacedWith (some k)) (b ok : Bool) : (s.endRetire k b ok).PlacedWith none := by
  have hl : (s.segments[k]'k.isLt).location = .erasing := (h.each k).erasing.2 rfl
  have hg := endRetire_same s k b ok
  refine h.movesOne (k := k) ⟨fun j _ => Iff.rfl, fun j _ => Iff.rfl, fun j _ i => Iff.rfl, fun j hj => ?_⟩
    (fun j hj => by simp [Ne.symm hj]) h.pool_nodup h.reclaim_nodup h.chain_nodup ?_
  · rw [endRetire_other s b ok hj]
    exact .refl _
  · exact .of_retired (by rw [hg]) (by rw [hg]) ((h.each k).not_pool (by rw [hl]; decide)) ((h.each k).not_reclaim (by rw [hl]; decide))
      ((h.each k).not_chain (by rw [hl]; decide)) (by simp)

theorem samePlaces_captureImage (s : State) (c : Captured) : SamePlaces s (s.captureImage c) := .of_eq rfl rfl rfl rfl

/-! ### The steps of the jobs -/

/-- Of the data of a step, every segment has its place. -/
theorem StepData.placed (h : s.InPlaces) (hd : StepData s E v) : v.PlacedWith E := by
  cases hd with
  | same hv => exact h.placed.congr hv.samePlaces
  | released hv i => exact (h.placed.congr hv.samePlaces).releaseCovered i
  | withdrawn hv k ks hk => exact (h.placed.congr hv.samePlaces).withdrawn (hv.pool.trans hk)
  | chained hv e es k ks hs hk => exact (h.placed.congr hv.samePlaces).chained e (hv.pool.trans hk)
  | recorded hv e es k hs hk =>
    refine (h.placed.congr hv.samePlaces).congr ⟨State.recorded_pool _ e k, ?_, fun i => ?_, fun j => ?_⟩
    · simp [State.recorded, State.advanced]
    · by_cases hi : i = e.stream
      · subst hi
        rw [State.recorded_same]
        rfl
      · rw [State.recorded_other _ _ _ hi]
    · by_cases hj : j = k
      · subst hj
        rw [State.recorded_segment]
        exact ⟨rfl, rfl, rfl⟩
      · rw [State.recorded_segment_other _ _ _ hj]
        exact .refl _
  | failed hv e es hs => exact (h.placed.congr hv.samePlaces).congr (.of_eq rfl rfl rfl rfl)
  | pulsed r k n hj => exact h.pulsed r hj
  | counted hv k p hj hp => exact (Engine.erasing_reclaim hj hp ▸ h.placed).congr hv.samePlaces
  | pooled hv k p hj hp => exact ((Engine.erasing_reclaim hj hp ▸ h.placed).congr hv.samePlaces).pooled
  | retired hv k p hj hp b ok => exact ((Engine.erasing_reclaim hj hp ▸ h.placed).congr hv.samePlaces).retired b ok
  | captured hv => exact (h.placed.congr (samePlaces_captureImage s _)).congr hv.samePlaces
  | handed hv b r hr =>
    rcases hv with hv | hv
    · exact (h.placed.congr hv.samePlaces).handOn b r
    · exact ((h.placed.congr (samePlaces_captureImage s _)).congr hv.samePlaces).handOn b r

/-- Every step of a job other than FORMAT leaves every segment one place. -/
theorem Stepped.inPlaces (h : s.InPlaces) (hs : Stepped s u) : u.InPlaces := by
  obtain ⟨E, v, hd, he⟩ := hs
  exact ⟨he.erasing ▸ (hd.placed h).congr he.faults.samePlaces, he.first⟩

/-! ### The actions of the frames -/

/-- A frame that selects where the engine is IDLE. -/
theorem State.InPlaces.selectIfIdle (h : s.InPlaces) (hs : s.engine.sound = true) : s.selectIfIdle.InPlaces := by
  unfold State.selectIfIdle
  split
  next hi =>
    have hj : s.engine.job = none := (Engine.sound_iff.1 hs).1.1 hi
    have he : s.engine.erasing = s.engine.preempted.map Prod.fst := Engine.erasing_of_job (by simp [hj])
    obtain ⟨h1, h2⟩ := (select_selected s).erasing (Engine.sound_slot hs)
    exact ⟨h1 ▸ he ▸ h.placed.congr (faults_select s).samePlaces, h2⟩
  next => exact h

/-- Segments of a stream leave its chain for the release list, and the engine is as it was. -/
theorem State.InPlaces.leaveChain {i : StreamId} (h : s.InPlaces) (hl : LeaveChain s t i) (he : t.engine = s.engine) : t.InPlaces :=
  ⟨he ▸ h.placed.leaveChain hl, fun k hk => hl.reclaim ▸ h.first k (he ▸ hk)⟩

theorem State.InPlaces.evalPool (h : s.InPlaces) (n : Int) : (s.evalPool n).InPlaces :=
  h.congr (samePlaces_evalPool s n) (by simp) (by simp)

theorem State.InPlaces.evalUnread (h : s.InPlaces) (i : StreamId) : (s.evalUnread i).InPlaces :=
  h.congr (samePlaces_evalUnread s i) (by simp) (by simp)

theorem State.InPlaces.evalHeld (h : s.InPlaces) (i : StreamId) : (s.evalHeld i).InPlaces :=
  h.congr (samePlaces_evalHeld s i) (by simp) (by simp)

theorem State.InPlaces.updStream (h : s.InPlaces) (i : StreamId) (f : Stream → Stream)
    (hf : ∀ r, (f r).chain = r.chain := by exact fun _ => rfl) :
    (s.updStream i f).InPlaces := h.congr (samePlaces_updStream s i f hf) rfl rfl

theorem State.InPlaces.raise (h : s.InPlaces) (e : Event) : (s.raise e).InPlaces := h.congr (.of_eq rfl rfl rfl rfl) rfl rfl

theorem State.InPlaces.notify (h : s.InPlaces) (i : StreamId) (n : Notice) : (s.notify i n).InPlaces := h.updStream i _

theorem State.InPlaces.needImage (h : s.InPlaces) : s.needImage.InPlaces := h.congr (.of_eq rfl rfl rfl rfl) rfl rfl

theorem State.InPlaces.setStreamSides (h : s.InPlaces) (i : StreamId) : (s.setStreamSides i).InPlaces := h.updStream i _

theorem State.InPlaces.acceptEnd (h : s.InPlaces) (hs : s.engine.sound = true) (i : StreamId) (moved : Bool) (n : Int) :
    (s.acceptEnd i moved n).InPlaces := by
  unfold State.acceptEnd
  refine State.InPlaces.evalPool ?_ n
  split
  · exact ((h.selectIfIdle hs).evalHeld i).evalUnread i
  · exact (h.selectIfIdle hs).evalHeld i

theorem State.InPlaces.moveCursor (h : s.InPlaces) (i : StreamId) (q : Nat) : (s.moveCursor i q).InPlaces := by
  unfold State.moveCursor
  split
  · exact h
  · exact (h.updStream i _).evalUnread i

/-- RESET STREAM releases the chain of its stream (R44). -/
theorem leaveChain_resetEnd (h : s.InPlaces) (i : StreamId) : LeaveChain s (s.resetEnd i) i := by
  have hv := resetEnds s i
  obtain ⟨hchain, hlisted, hother⟩ := hv.segment
  have hempty : ((s.resetEnd i).streams[i]'i.isLt).chain = [] := by rw [hv.same]; rfl
  refine ⟨hv.pool, hv.reclaim, hempty ▸ List.nil_sublist _, fun j hj => by rw [hv.others j hj], fun k hk _ => ?_, fun k hk => ?_⟩
  · rw [hchain k hk]
    exact ⟨rfl, rfl⟩
  · have hn : k ∉ (s.streams[i]'i.isLt).chain := fun hm => by
      have hm' := hk hm
      rw [hempty] at hm'
      cases hm'
    by_cases hr : (s.segments[k]'k.isLt).location = .release ∧ (s.segments[k]'k.isLt).owner = some i
    · rw [hlisted k hn hr.1 hr.2]
      exact ⟨rfl, rfl, ((h.placed.each k).release.1 hr.1).symm⟩
    · rw [hother k hn (by tauto)]
      exact .refl _

theorem State.InPlaces.resetEnd (h : s.InPlaces) (i : StreamId) : (s.resetEnd i).InPlaces := by
  have hl := leaveChain_resetEnd h i
  by_cases hj : s.engine.job = some (.ledger (.note i))
  · obtain ⟨w, -, he⟩ := s.resetEnd_rechosen i hj
    have herase : s.engine.erasing = s.engine.preempted.map Prod.fst := Engine.erasing_of_job (by simp [hj])
    refine ⟨?_, .of_job (by simp [he])⟩
    rw [he, Engine.erasing_of_job (by simp), ← herase]
    exact h.placed.leaveChain hl
  · exact h.leaveChain hl (s.resetEnd_goesOn i hj)

/-- The oldest segment leaves its chain where it is dropped (R59). -/
theorem placeNew_drop {i : StreamId} {d : DataSeg} (h : s.placeNew i = .new (some d)) : s.dropCandidate i = some d := by
  have havail : ∀ x, s.ifAvailable x = .new (some d) → x = some d := by
    intro x hx
    unfold State.ifAvailable at hx
    split at hx
    · exact PlacementResult.new.inj hx
    · cases hx
  unfold State.placeNew at h
  split at h
  · cases havail _ h
  · split at h
    · cases h
    · split at h
      next d' hd => rw [hd, havail _ h]
      next => cases h

theorem State.InPlaces.makeRoom (h : s.InPlaces) {i : StreamId} {drop : Option DataSeg} (hd : s.placeNew i = .new drop) :
    (s.makeRoom i drop).InPlaces := by
  cases drop with
  | none => exact h.updStream i fun t => { t with reserved := t.reserved + 1 }
  | some d =>
    have hc := dropCandidate_head (placeNew_drop hd)
    have hrec : ((s.makeRoom i (some d)).streams[i]'i.isLt).chain = (s.streams[i]'i.isLt).chain.tail := by
      rw [State.makeRoom_same]
      rfl
    have hnodup := h.placed.chain_nodup i
    rw [hc, List.nodup_cons] at hnodup
    have hseg := State.makeRoom_some s i d
    refine h.leaveChain (i := i) ⟨by rw [hseg], by rw [hseg], hrec ▸ List.tail_sublist _, fun j hj => by rw [State.makeRoom_other _ _ _ hj],
      fun k hk ht => ?_, fun k hk => ?_⟩ (by rw [hseg])
    · rw [hrec] at ht
      rw [hc, List.mem_cons] at hk
      obtain rfl : k = d := hk.resolve_right ht
      rw [hseg]
      simp
    · have hkd : k ≠ d := by
        rintro rfl
        have hm := hk (hc ▸ List.mem_cons_self)
        rw [hrec] at hm
        exact hnodup.1 hm
      have hne : d.val ≠ k.val := fun e => hkd (Fin.ext e.symm)
      rw [hseg]
      simp only [Fin.getElem_fin, Vector.getElem_set_ne _ _ hne]
      exact .refl _

theorem samePlaces_numbered (s : State) (i : StreamId) (tag : Byte) (payload : List Byte) (p : Placement) :
    SamePlaces s (s.numbered i tag payload p) := by
  rw [State.numbered_eq]
  refine ⟨rfl, rfl, fun j => ?_, fun _ => .refl _⟩
  by_cases hj : j = i
  · subst hj
    simp only [Fin.getElem_fin, Vector.getElem_set_self]
    unfold Stream.numbered
    split <;> rfl
  · have hne : i.val ≠ j.val := fun e => hj (Fin.ext e.symm)
    simp only [Fin.getElem_fin, Vector.getElem_set_ne _ _ hne]

/-- A job that starts on an IDLE engine is no RECLAIM job here. -/
theorem State.InPlaces.run (h : s.InPlaces) (hs : s.engine.sound = true) (hi : s.engine.state = .idle) {j : Job}
    (hj : ∀ k p, j ≠ .reclaim k p) : (s.run j).InPlaces := by
  have hn : s.engine.job = none := (Engine.sound_iff.1 hs).1.1 hi
  have he : s.engine.erasing = s.engine.preempted.map Prod.fst := Engine.erasing_of_job (by simp [hn])
  have hj' : ∀ k p, (s.run j).engine.job ≠ some (.reclaim k p) := fun k p h => hj k p (Option.some.inj h)
  refine ⟨?_, .of_job hj'⟩
  rw [Engine.erasing_of_job hj', show (s.run j).engine.preempted = s.engine.preempted from rfl, ← he]
  exact h.placed.congr (.of_eq rfl rfl rfl rfl)

/-- Every action of a frame leaves every segment one place. -/
theorem ActionAct.inPlaces (h : s.InPlaces) (hs : s.engine.sound = true) (ha : ActionAct s t) : t.InPlaces := by
  cases ha with
  | nothing => exact h
  | clearEvents | setEnable | poolEmpty | doze => exact h.congr (.of_eq rfl rfl rfl rfl) rfl rfl
  | quotaFull i => exact (h.notify i _).raise _
  | configure i p q hw b => exact ((h.updStream i _).setStreamSides i).needImage.selectIfIdle hs
  | move i target => exact (h.updStream i _).needImage.selectIfIdle hs
  | resetStream i =>
    rw [State.resetStream_eq]
    refine ((h.resetEnd i).selectIfIdle ?_).evalPool _
    rw [State.resetEnd_engine]
    exact Engine.sound_rechoose (by rw [State.resetParts_eq]; exact hs) i
  | appendCurrent i tag payload =>
    have hv : s.numbered i tag payload .current = { s.numbered i tag payload .current with engine := s.engine } := by
      rw [State.numbered_eq]
    rw [State.acceptCurrent_eq]
    exact (h.congr (samePlaces_numbered s i tag payload .current) (by rw [hv]) (by rw [hv])).selectIfIdle (by rw [hv]; exact hs)
  | appendNew i tag payload drop hf hd =>
    rw [State.acceptNew_eq]
    have he : (s.admitted i tag payload drop).engine = s.engine := (s.admitted_rest i tag payload drop).2.2.2.2.1
    have hr : (s.makeRoom i drop).engine = s.engine := by
      rw [← he, State.admitted, State.numbered_eq]
    exact ((h.makeRoom hd).congr (samePlaces_numbered _ i tag payload .new) (by rw [hr, ← he]; rfl) (by rw [hr, ← he]; rfl)).acceptEnd
      (he ▸ hs) i _ _
  | sync =>
    rw [State.recordSync_eq, State.syncRecorded_eq]
    exact State.InPlaces.selectIfIdle (h.congr (.of_eq rfl rfl rfl rfl) rfl rfl) hs
  | ack i q =>
    rw [State.acknowledge_eq]
    have hends := ackEnds s i q (decide (((s.streams[i]'i.isLt).acked q).cursor ≠ (s.streams[i]'i.isLt).cursor))
    refine State.InPlaces.selectIfIdle ?_ (hends.engine ▸ hs)
    unfold State.ackEnd
    have hv : (s.acked i q).InPlaces := h.updStream i _
    have hw : ((s.acked i q).releaseCovered i).InPlaces :=
      ⟨by simpa using hv.placed.releaseCovered i, fun k hk => by simpa using hv.first k (by simpa using hk)⟩
    split
    · exact hw.evalUnread i
    · exact hw
  | push i =>
    unfold State.pushMark
    dsimp only
    have hv := h.updStream i (fun t => { t with marks := (t.cursor :: t.marks).take Config.markDepth }) fun _ => rfl
    split
    · exact (hv.notify i _).raise _
    · exact hv
  | pop i => exact h.updStream i _
  | rewind i q => exact h.moveCursor i q
  | rewindPop i q => exact (h.moveCursor i q).updStream i _
  | suspend | resume => exact h.congr (.of_eq rfl rfl rfl rfl) rfl rfl
  | deviceConfig n => exact State.InPlaces.selectIfIdle (h.congr (.of_eq rfl rfl rfl rfl) rfl rfl) hs
  | format hi => exact State.InPlaces.run (s := { s with sync := none }) (h.congr (.of_eq rfl rfl rfl rfl) rfl rfl) hs hi (by simp)
  | writeGuard m locks f =>
    unfold State.writeGuard
    dsimp only
    split
    · exact State.InPlaces.selectIfIdle (h.congr (.of_eq rfl rfl rfl rfl) rfl rfl) hs
    · exact h.congr (.of_eq rfl rfl rfl rfl) rfl rfl
  | vault w hi => exact h.run hs hi (by simp)

theorem OutputAct.inPlaces (h : s.InPlaces) (ha : OutputAct s t) : t.InPlaces := by
  cases ha with
  | nothing => exact h
  | clearNotices i m => exact h.updStream i _
  | advance b f count w n i => exact (h.updStream i _).evalUnread i

theorem PortOnly.inPlaces (hp : PortOnly s t) (h : s.InPlaces) : t.InPlaces :=
  h.congr (.of_eq hp.pool hp.reclaim hp.streams hp.segments) (by rw [hp.engine]) (by rw [hp.engine])

theorem FormatAct.formatRuns {c : Instr} (h : FormatAct s c t) (hr : s.engine.runs = true) : s.engine.formatRuns = true := by
  have hof : ∀ b w, s.engine.job = some (.format b w) → s.engine.formatRuns = true := fun b w hj => by
    unfold Engine.formatRuns
    rw [hj]
    exact hr
  cases h with
  | pulse r b k n hj => exact hof _ _ hj
  | freeStage p b k c hj => exact hof _ _ hj
  | retire p b k c e hj => exact hof _ _ hj
  | anchorPulse r b w hj => exact hof _ _ hj
  | image p b w hj => exact hof _ _ hj

/-! ### Every row -/

/-- Outside recovery and FORMAT, every row leaves every segment one place. -/
theorem Row.inPlaces {c : Instr} (h : Row s c t) (hp : s.power.holds = true) (hf : s.engine.formatRuns = false)
    (hs : s.engineSound = true) (hi : s.InPlaces) (ht : t.power.holds = true) : t.InPlaces := by
  have hsound : s.engine.sound = true := (EngineOk.of_engineSound hs hp).sound
  cases h with
  | port c h => exact h.only.inPlaces hi
  | action c hpow hu h ht => exact ht.only.inPlaces (h.inPlaces (hu.only.inPlaces hi) (hu.only.engine ▸ hsound))
  | output c hu h ht => exact ht.only.inPlaces (h.inPlaces (hu.only.inPlaces hi))
  | wake | wakeEnd => exact hi.congr (.of_eq rfl rfl rfl rfl) rfl rfl
  | softReset => cases ht
  | powerLoss => cases ht
  | powerOn => cases ht
  | recovered c hr =>
    rw [hr] at hp
    cases hp
  | step hpow hr h => exact ((h.stepped hsound hr).inPlaces hi).evalPool _
  | format hpow hr h =>
    rw [h.formatRuns hr] at hf
    cases hf

/-- Settles O7: what a row makes of the places of the segments, from the state that it finds. -/
theorem stepKeepsPlaces : Obligations.StepKeepsPlaces := by
  intro s t hp hf hs hi h ht
  have hok : s.engine.sound = true := (EngineOk.of_engineSound hs hp).sound
  rcases step_cases h with rfl | ⟨c, rest, -, hexec⟩
  · exact hi
  · have hrow := exec_row hexec
    have hte := hrow.engineSound hs
    refine (placed_iff (EngineOk.of_engineSound hte ht).sound).2 (hrow.inPlaces hp hf hs ?_ ht)
    exact ((placed_iff hok).1 hi).congr (.of_eq rfl rfl rfl rfl) rfl rfl

end Sys2Proof.Machine
end

section
/-! The relations of the stream records (R29), stream by stream: what keeps them, and what the steps and actions make of them. -/

namespace Sys2Proof.Machine

-- One proof after the other: the stacks of proofs elaborated side by side come near the memory that a check may take.
set_option Elab.async false

open Sys2Proof

variable {s t u v : State}

/-! ### The relations of one stream -/

/-- The sequences that a stream has staged. -/
def State.stagedSeqs (s : State) (i : StreamId) : List Nat := (s.stagedOf i).map fun e => e.seq

/-- The relations 1 to 3 of one stream, with what the chain and a captured image hold in their support (R29). -/
structure State.RelatedIn (s : State) (i : StreamId) : Prop where
  ordered : (s.streams[i]'i.isLt).ordered = true
  staged : s.stagedInOrder i
  chained : ∀ k : DataSeg, k ∈ (s.streams[i]'i.isLt).chain → (s.segments[k]'k.isLt).last ≤ (s.streams[i]'i.isLt).lastCommitted
  captured : ∀ c : Captured, s.ledger.captured = some c → (c.content.streams[i]'i.isLt).epoch ≤ (s.streams[i]'i.isLt).epoch
    ∧ ((c.content.streams[i]'i.isLt).epoch = (s.streams[i]'i.isLt).epoch
        → (c.content.streams[i]'i.isLt).frontier ≤ (s.streams[i]'i.isLt).volatileFrontier)

/-- A verdict of a FETCH by CURSOR counts no record above the last committed one. -/
def State.Fetches (s : State) : Prop := ∀ (n : Snapshot) (b f c : Byte) (w : Word32) (i : StreamId), s.port.snapshot = some n →
  n.command = .fetch b f w c → n.verdict = .done → f = 0 → streamOf b = some i →
  (s.streams[i]'i.isLt).volatileFrontier + 1 ≤ n.start ∧ n.start + n.recordEnds.length ≤ (s.streams[i]'i.isLt).lastCommitted + 1

theorem related_iff : s.Related ↔ (∀ i : StreamId, s.RelatedIn i) ∧ s.Fetches :=
  ⟨fun h => ⟨fun i => ⟨h.ordered i, h.staged i, h.chained i, fun c hc => ⟨h.captured_epoch c i hc, h.captured_frontier c i hc⟩⟩,
      h.fetching⟩,
    fun ⟨h, hf⟩ => ⟨fun i => (h i).ordered, fun i => (h i).staged, fun i => (h i).chained, fun c i hc => ((h i).captured c hc).1,
      fun c i hc => ((h i).captured c hc).2, hf⟩⟩

theorem Stream.ordered_iff {r : Stream} : r.ordered = true ↔ r.durableFrontier ≤ r.volatileFrontier ∧ r.volatileFrontier ≤ r.lastCommitted
    ∧ r.lastCommitted < r.nextSeq ∧ r.volatileFrontier + 1 ≤ r.cursor ∧ r.cursor ≤ r.lastCommitted + 1 := by
  simp only [Stream.ordered, Bool.and_eq_true, decide_eq_true_eq, and_assoc]

/-! ### What keeps them -/

/-- The counts of a stream record that its relations are about. -/
structure Stream.SameCounts (r r' : Stream) : Prop where
  epoch : r'.epoch = r.epoch
  nextSeq : r'.nextSeq = r.nextSeq
  lastCommitted : r'.lastCommitted = r.lastCommitted
  volatileFrontier : r'.volatileFrontier = r.volatileFrontier
  durableFrontier : r'.durableFrontier = r.durableFrontier
  cursor : r'.cursor = r.cursor

theorem Stream.SameCounts.refl (r : Stream) : r.SameCounts r := ⟨rfl, rfl, rfl, rfl, rfl, rfl⟩

/-- A captured image is one that was captured before. -/
theorem State.RelatedIn.captured_from {i : StreamId} (h : s.RelatedIn i) {l : Ledger} (hl : s.ledger.CapturedFrom l) :
    ∀ c : Captured, l.captured = some c → (c.content.streams[i]'i.isLt).epoch ≤ (s.streams[i]'i.isLt).epoch
      ∧ ((c.content.streams[i]'i.isLt).epoch = (s.streams[i]'i.isLt).epoch
          → (c.content.streams[i]'i.isLt).frontier ≤ (s.streams[i]'i.isLt).volatileFrontier) := by
  intro c' hc'
  obtain ⟨c, hc, he⟩ := hl c' hc'
  rw [he]
  exact h.captured c hc

/-- The chain of a stream has lost segments at most, and what it has left ends as before. -/
def ChainKept (s t : State) (i : StreamId) : Prop :=
  ∀ k : DataSeg, k ∈ (t.streams[i]'i.isLt).chain → k ∈ (s.streams[i]'i.isLt).chain
      ∧ (t.segments[k]'k.isLt).last = (s.segments[k]'k.isLt).last

theorem State.RelatedIn.congr {i : StreamId} (h : s.RelatedIn i) (hr : (s.streams[i]'i.isLt).SameCounts (t.streams[i]'i.isLt))
    (hs : t.stagedSeqs i = s.stagedSeqs i) (hc : ChainKept s t i) (hl : s.ledger.CapturedFrom t.ledger) : t.RelatedIn i := by
  refine ⟨?_, ?_, fun k hk => ?_, fun c hcap => ?_⟩
  · rw [Stream.ordered_iff, hr.durableFrontier, hr.volatileFrontier, hr.lastCommitted, hr.nextSeq, hr.cursor]
    exact Stream.ordered_iff.1 h.ordered
  · have hst := h.staged
    unfold State.stagedInOrder at hst ⊢
    rw [hr.lastCommitted, hr.nextSeq]
    exact hs.trans hst
  · obtain ⟨hm, hlast⟩ := hc k hk
    rw [hlast, hr.lastCommitted]
    exact h.chained k hm
  · rw [hr.epoch, hr.volatileFrontier]
    exact h.captured_from hl c hcap

theorem chainKept_of_eq {i : StreamId} (hs : (t.streams[i]'i.isLt).chain = (s.streams[i]'i.isLt).chain)
    (hg : t.segments = s.segments) : ChainKept s t i :=
  fun k hk => ⟨hs ▸ hk, by rw [hg]⟩

theorem stagedSeqs_of_eq (i : StreamId) (h : t.staging = s.staging) : t.stagedSeqs i = s.stagedSeqs i := by
  unfold State.stagedSeqs State.stagedOf
  rw [h]

/-- A state that has its streams, staging buffer, segments and ledger from another. -/
theorem State.RelatedIn.of_eq {i : StreamId} (h : s.RelatedIn i) (hr : (t.streams[i]'i.isLt) = (s.streams[i]'i.isLt))
    (hst : t.staging = s.staging)
    (hg : t.segments = s.segments) (hl : t.ledger.captured = s.ledger.captured) : t.RelatedIn i :=
  h.congr (hr ▸ .refl _) (stagedSeqs_of_eq i hst) (chainKept_of_eq (by rw [hr]) hg) (.of_eq hl)

theorem SameRecords.relatedIn {i : StreamId} (hv : SameRecords s v) (h : s.RelatedIn i) : v.RelatedIn i :=
  h.congr (by rw [hv.streams]; exact .refl _) (stagedSeqs_of_eq i hv.staging)
      (fun k hk => ⟨by rwa [hv.streams] at hk, hv.last k⟩) hv.captured

/-! ### Faults (R34) -/

theorem stagedSeqs_faultStream (s : State) {i j : StreamId} (h : j ≠ i) : (s.faultStream i).stagedSeqs j = s.stagedSeqs j := by
  unfold State.stagedSeqs State.stagedOf
  rw [(stays_faultStream s i).2, List.filter_filter]
  congr 1
  refine List.filter_congr fun e _ => ?_
  by_cases he : e.stream = j
  · simp [he, h]
  · simp [he]

theorem relatedIn_faultStream (i j : StreamId) (h : s.RelatedIn j) : (s.faultStream i).RelatedIn j := by
  have hst := (stays_faultStream s i).1
  by_cases hj : j = i
  · subst hj
    obtain ⟨h1, h2, h3, h4, h5⟩ := Stream.ordered_iff.1 h.ordered
    have hrec : ((s.faultStream j).streams[j]'j.isLt) = (s.streams[j]'j.isLt).faultedRecord.heldEvaluated := State.faultStream_same s j
    have hlast : ((s.faultStream j).streams[j]'j.isLt).lastCommitted = (s.streams[j]'j.isLt).lastCommitted := by rw [hrec]; rfl
    have hnext : ((s.faultStream j).streams[j]'j.isLt).nextSeq = (s.streams[j]'j.isLt).lastCommitted + 1 := by rw [hrec]; rfl
    refine ⟨?_, ?_, fun k hk => ?_, fun c hc => ?_⟩
    · rw [Stream.ordered_iff, hrec]
      exact ⟨h1, h2, Nat.lt_succ_self _, h4, h5⟩
    · unfold State.stagedInOrder
      rw [hlast, hnext]
      have hnone : (s.faultStream j).stagedOf j = [] := by
        unfold State.stagedOf
        rw [(stays_faultStream s j).2, List.filter_filter]
        simp
      rw [hnone]
      simp
    · rw [hst.segments, hlast]
      rw [hrec] at hk
      exact h.chained k hk
    · rw [hst.ledger] at hc
      rw [hrec]
      exact h.captured c hc
  · exact h.congr (by rw [State.faultStream_other _ _ _ hj]; exact .refl _) (stagedSeqs_faultStream s hj)
      (chainKept_of_eq (by rw [State.faultStream_other _ _ _ hj]) hst.segments) (.of_eq (by rw [hst.ledger]))

theorem Faults.relatedIn (h : Faults s t) {i : StreamId} (hs : s.RelatedIn i) : t.RelatedIn i := by
  induction h with
  | none => exact hs
  | fault e he _ ih => exact relatedIn_faultStream e.stream i ih
  | engine e _ ih => exact ih.of_eq rfl rfl rfl rfl

/-! ### The sides (R167 to R171) -/

theorem relatedIn_evalHeld (i j : StreamId) (h : s.RelatedIn j) : (s.evalHeld i).RelatedIn j := by
  have hst := (stays_evalHeld s i).1
  have hr : (s.streams[j]'j.isLt).SameCounts ((s.evalHeld i).streams[j]'j.isLt)
      ∧ ((s.evalHeld i).streams[j]'j.isLt).chain = (s.streams[j]'j.isLt).chain := by
    by_cases hj : j = i
    · subst hj
      rw [State.evalHeld_same]
      exact ⟨⟨rfl, rfl, rfl, rfl, rfl, rfl⟩, rfl⟩
    · rw [State.evalHeld_other _ _ _ hj]
      exact ⟨.refl _, rfl⟩
  exact h.congr hr.1 (stagedSeqs_of_eq j (stays_evalHeld s i).2) (chainKept_of_eq hr.2 hst.segments) (.of_eq (by rw [hst.ledger]))

theorem relatedIn_evalUnread (i j : StreamId) (h : s.RelatedIn j) : (s.evalUnread i).RelatedIn j := by
  have hr : (s.streams[j]'j.isLt).SameCounts ((s.evalUnread i).streams[j]'j.isLt)
      ∧ ((s.evalUnread i).streams[j]'j.isLt).chain = (s.streams[j]'j.isLt).chain := by
    by_cases hj : j = i
    · subst hj
      rw [State.evalUnread_same]
      exact ⟨⟨rfl, rfl, rfl, rfl, rfl, rfl⟩, rfl⟩
    · rw [State.evalUnread_other _ _ _ hj]
      exact ⟨.refl _, rfl⟩
  exact h.congr hr.1 (stagedSeqs_of_eq j (by simp)) (chainKept_of_eq hr.2 (by simp)) (.of_eq (by simp))

theorem relatedIn_evalPool (n : Int) (j : StreamId) (h : s.RelatedIn j) : (s.evalPool n).RelatedIn j := by
  rw [State.evalPool_eq]
  exact h.of_eq rfl rfl rfl rfl

/-! ### Releases (R82, R101) -/

theorem releaseCovered_counts (s : State) (i j : StreamId) : (s.streams[j]'j.isLt).SameCounts ((s.releaseCovered i).streams[j]'j.isLt) := by
  by_cases hj : j = i
  · subst hj
    have hsame := s.releaseCovered_same j
    refine ⟨?_, ?_, ?_, ?_, ?_, ?_⟩
    · have hx := congrArg Stream.epoch hsame
      exact hx
    · have hx := congrArg Stream.nextSeq hsame
      exact hx
    · have hx := congrArg Stream.lastCommitted hsame
      exact hx
    · have hx := congrArg Stream.volatileFrontier hsame
      exact hx
    · have hx := congrArg Stream.durableFrontier hsame
      exact hx
    · have hx := congrArg Stream.cursor hsame
      exact hx
  · rw [State.releaseCovered_other s i j hj]
    exact .refl _

theorem relatedIn_releaseCovered (i j : StreamId) (h : s.RelatedIn j) : (s.releaseCovered i).RelatedIn j := by
  have hseg : ∀ k : DataSeg, ((s.releaseCovered i).segments[k]'k.isLt).last = (s.segments[k]'k.isLt).last := fun k => by
    rw [State.releaseCovered_segments]
    split <;> rfl
  have hstaged : (s.releaseCovered i).stagedSeqs j = s.stagedSeqs j := stagedSeqs_of_eq j (State.releaseCovered_staging s i)
  have hcap : s.ledger.CapturedFrom (s.releaseCovered i).ledger := .of_eq (by
    rw [State.releaseCovered_ledger]
    split <;> rfl)
  refine h.congr (releaseCovered_counts s i j) hstaged (fun k hk => ⟨?_, hseg k⟩) hcap
  by_cases hj : j = i
  · subst hj
    rw [State.releaseCovered_chain] at hk
    rw [← s.walked_append j]
    exact List.mem_append_right _ hk
  · rwa [State.releaseCovered_other s i j hj] at hk

end Sys2Proof.Machine
end

section
/-! The relations of the stream records through the steps of the jobs other than FORMAT (R29). -/

namespace Sys2Proof.Machine

-- One proof after the other: the stacks of proofs elaborated side by side come near the memory that a check may take.
set_option Elab.async false

open Sys2Proof

variable {s t u v : State} {E : Option DataSeg}

/-! ### The head of the staging buffer (R29 relation 3) -/

theorem stagedSeqs_cons {e : Entry} {es : List Entry} (hs : s.staging = e :: es) :
    s.stagedSeqs e.stream = e.seq :: (es.filter fun x => x.stream == e.stream).map fun x => x.seq := by
  unfold State.stagedSeqs State.stagedOf
  rw [hs]
  simp

theorem stagedSeqs_cons_other {e : Entry} {es : List Entry} (hs : s.staging = e :: es) {j : StreamId} (h : j ≠ e.stream) :
    s.stagedSeqs j = (es.filter fun x => x.stream == j).map fun x => x.seq := by
  unfold State.stagedSeqs State.stagedOf
  rw [hs]
  simp [h.symm]

/-- The head entry of a stream carries the sequence after the last committed one, and the rest of the stream's follow. -/
theorem staged_head {e : Entry} {es : List Entry} (h : s.RelatedIn e.stream) (hs : s.staging = e :: es) :
    e.seq = (s.streams[e.stream]'e.stream.isLt).lastCommitted + 1
        ∧ (s.streams[e.stream]'e.stream.isLt).lastCommitted + 1 < (s.streams[e.stream]'e.stream.isLt).nextSeq
      ∧ ((es.filter fun x => x.stream == e.stream).map fun x => x.seq)
        = List.range' (e.seq + 1) ((s.streams[e.stream]'e.stream.isLt).nextSeq - (e.seq + 1)) := by
  have hst : s.stagedSeqs e.stream = _ := h.staged
  rw [stagedSeqs_cons hs] at hst
  generalize hn : (s.streams[e.stream]'e.stream.isLt).nextSeq - ((s.streams[e.stream]'e.stream.isLt).lastCommitted + 1) = n at hst
  cases n with
  | zero => cases hst
  | succ n =>
    rw [List.range'_succ, List.cons.injEq] at hst
    obtain ⟨hseq, hrest⟩ := hst
    refine ⟨hseq, by omega, ?_⟩
    rw [hrest, hseq]
    congr 1
    omega

/-! ### The opening of a segment (R116) -/

theorem chained_counts (s : State) (e : Entry) (k : DataSeg) (j : StreamId) :
    (s.streams[j]'j.isLt).SameCounts ((s.chained e k).streams[j]'j.isLt) := by
  by_cases hj : j = e.stream
  · subst hj
    cases hp : e.placement with
    | new =>
      rw [(State.chained_new hp).1]
      exact ⟨rfl, rfl, rfl, rfl, rfl, rfl⟩
    | awaiting =>
      rw [(State.chained_awaiting hp).1]
      exact ⟨rfl, rfl, rfl, rfl, rfl, rfl⟩
    | current =>
      have hrec : ((s.chained e k).streams[e.stream]'e.stream.isLt) = ((s.streams[e.stream]'e.stream.isLt).extended k).heldEvaluated := by
        unfold State.chained
        rw [hp]
        dsimp only
        rw [State.evalHeld_same, ← s.joinChain_same e k]
        rfl
      rw [hrec]
      exact ⟨rfl, rfl, rfl, rfl, rfl, rfl⟩
  · rw [State.chained_other j hj]
    exact .refl _

/-- The staged sequences are those of the entries with their streams. -/
theorem stagedSeqs_of_map (h : (t.staging.map fun e => (e.stream, e.seq)) = s.staging.map fun e => (e.stream, e.seq)) (j : StreamId) :
    t.stagedSeqs j = s.stagedSeqs j := by
  have hof : ∀ u : State, u.stagedSeqs j = ((u.staging.map fun e => (e.stream, e.seq)).filter fun x => x.1 == j).map fun x => x.2 := by
    intro u
    rw [List.filter_map, List.map_map]
    rfl
  rw [hof, hof, h]

/-- Placing entries leaves their streams and sequences. -/
theorem stagedSeqs_map {f : Entry → Entry} (hf : ∀ e, (f e).stream = e.stream ∧ (f e).seq = e.seq) (h : t.staging = s.staging.map f)
    (j : StreamId) : t.stagedSeqs j = s.stagedSeqs j := by
  refine stagedSeqs_of_map ?_ j
  rw [h, List.map_map]
  exact List.map_congr_left fun e _ => Prod.ext (hf e).1 (hf e).2

theorem chained_stagedSeqs (s : State) (e : Entry) (k : DataSeg) (j : StreamId) : (s.chained e k).stagedSeqs j = s.stagedSeqs j := by
  have hplace : ((s.joinChain e k).placeAwaiting e.stream).stagedSeqs j = s.stagedSeqs j :=
    stagedSeqs_map (f := fun x => if x.stream = e.stream ∧ x.placement = .awaiting then { x with placement := .current } else x)
      (fun x => by split <;> exact ⟨rfl, rfl⟩) rfl j
  unfold State.chained
  split
  · rfl
  · exact (stagedSeqs_of_eq j (by simp)).trans hplace
  · exact (stagedSeqs_of_eq j (by simp)).trans hplace

theorem chained_ledger (s : State) (e : Entry) (k : DataSeg) : (s.chained e k).ledger = s.ledger := by
  unfold State.chained
  split
  · rfl
  · exact (stays_evalHeld _ _).1.ledger
  · exact (stays_evalHeld _ _).1.ledger

theorem relatedIn_chained {e : Entry} {es : List Entry} {k : DataSeg} (hp : s.PlacedWith E) (h : ∀ i : StreamId, s.RelatedIn i)
    (hs : s.staging = e :: es) (hk : k ∈ s.pool) (j : StreamId) : (s.chained e k).RelatedIn j := by
  have hpool : (s.segments[k]'k.isLt).location = .pool := (hp.each k).pool.1 hk
  have hout := (hp.each k).not_chain (by rw [hpool]; decide)
  have hcounts := chained_counts s e k j
  have hlast : ∀ k' : DataSeg, k' ≠ k → ((s.chained e k).segments[k']'k'.isLt).last = (s.segments[k']'k'.isLt).last := fun k' hk' => by
    rw [State.chained_segments_other s e hk']
  by_cases hj : j = e.stream
  · subst hj
    obtain ⟨hseq, -, -⟩ := staged_head (h _) hs
    obtain ⟨h1, h2, h3, h4⟩ := h e.stream
    refine ⟨?_, ?_, fun k' hk' => ?_, fun c hc => ?_⟩
    · rw [Stream.ordered_iff, hcounts.durableFrontier, hcounts.volatileFrontier, hcounts.lastCommitted, hcounts.nextSeq, hcounts.cursor]
      exact Stream.ordered_iff.1 h1
    · have hst : s.stagedSeqs e.stream = _ := h2
      unfold State.stagedInOrder
      rw [hcounts.lastCommitted, hcounts.nextSeq]
      exact (chained_stagedSeqs s e k e.stream).trans hst
    · rw [State.chained_chain, List.mem_append, List.mem_singleton] at hk'
      rw [hcounts.lastCommitted]
      by_cases hkk : k' = k
      · subst hkk
        rw [State.chained_segments]
        change e.seq - 1 ≤ _
        omega
      · rw [hlast k' hkk]
        exact h3 k' (hk'.resolve_right hkk)
    · rw [chained_ledger] at hc
      rw [hcounts.epoch, hcounts.volatileFrontier]
      exact h4 c hc
  · refine (h j).congr hcounts (chained_stagedSeqs s e k j) (fun k' hk' => ?_) (.of_eq (by rw [chained_ledger]))
    rw [State.chained_other j hj] at hk'
    exact ⟨hk', hlast k' fun e => hout j (e ▸ hk')⟩

/-! ### A committed record (R118) -/

theorem recorded_ledger (s : State) (e : Entry) (k : DataSeg) : (s.recorded e k).ledger = s.ledger := by
  simp [State.recorded, State.advanced]

theorem relatedIn_recorded {e : Entry} {es : List Entry} {k : DataSeg} (hp : s.PlacedWith E) (h : ∀ i : StreamId, s.RelatedIn i)
    (hs : s.staging = e :: es) (hk : s.headSegment e = some k) (j : StreamId) : (s.recorded e k).RelatedIn j := by
  have hchain : k ∈ (s.streams[e.stream]'e.stream.isLt).chain := List.mem_of_getLast? hk
  have hstaging : (s.recorded e k).staging = es := by rw [State.recorded_staging, hs]; rfl
  by_cases hj : j = e.stream
  · subst hj
    obtain ⟨hseq, hlt, hrest⟩ := staged_head (h _) hs
    obtain ⟨h1, h2, h3, h4⟩ := h e.stream
    obtain ⟨o1, o2, o3, o4, o5⟩ := Stream.ordered_iff.1 h1
    have hrec := s.recorded_same e k
    refine ⟨?_, ?_, fun k' hk' => ?_, fun c hc => ?_⟩
    · rw [Stream.ordered_iff, hrec]
      refine ⟨o1, ?_, ?_, o4, ?_⟩
      · change (s.streams[e.stream]'e.stream.isLt).volatileFrontier ≤ e.seq
        omega
      · change e.seq < (s.streams[e.stream]'e.stream.isLt).nextSeq
        omega
      · change (s.streams[e.stream]'e.stream.isLt).cursor ≤ e.seq + 1
        omega
    · unfold State.stagedInOrder State.stagedOf
      rw [hstaging, hrec]
      exact hrest
    · rw [hrec] at hk' ⊢
      change _ ≤ e.seq
      by_cases hkk : k' = k
      · subst hkk
        rw [State.recorded_segment]
      · rw [State.recorded_segment_other _ _ _ hkk]
        have hle := h3 k' hk'
        omega
    · rw [recorded_ledger] at hc
      rw [hrec]
      exact h4 c hc
  · have hrec := s.recorded_other e k hj
    refine (h j).congr (hrec ▸ .refl _) ?_ (fun k' hk' => ?_) (.of_eq (by rw [recorded_ledger]))
    · rw [stagedSeqs_cons_other hs hj]
      unfold State.stagedSeqs State.stagedOf
      rw [hstaging]
    · rw [hrec] at hk'
      refine ⟨hk', ?_⟩
      rw [State.recorded_segment_other _ _ _ fun hkk => ?_]
      subst hkk
      have ho := (((hp.each k').chain e.stream).1 hchain).2
      exact hj (Option.some.inj ((((hp.each k').chain j).1 hk').2.symm.trans ho))

/-! ### Images and notes (R138 to R140) -/

theorem freshCapture_stream (s : State) (i : StreamId) : (s.freshCapture.content.streams[i]'i.isLt).epoch = (s.streams[i]'i.isLt).epoch
    ∧ (s.freshCapture.content.streams[i]'i.isLt).frontier = (s.streams[i]'i.isLt).volatileFrontier := by
  rw [show s.freshCapture.content = s.imageContent from rfl, imageContent_stream]
  exact ⟨rfl, rfl⟩

theorem relatedIn_captureImage {i : StreamId} (h : s.RelatedIn i) : (s.captureImage s.freshCapture).RelatedIn i := by
  refine ⟨h.ordered, h.staged, h.chained, fun c hc => ?_⟩
  obtain rfl : s.freshCapture = c := Option.some.inj hc
  obtain ⟨he, hf⟩ := freshCapture_stream s i
  exact ⟨Nat.le_of_eq he, fun _ => Nat.le_of_eq hf⟩

/-- No entry records a frontier above the volatile one of the same epoch. -/
theorem State.Records.le {r : Recorded} (h : s.Records r) {i : StreamId} (hs : s.RelatedIn i) {f : Nat}
    (hr : r i = some ((s.streams[i]'i.isLt).epoch, f)) : f ≤ (s.streams[i]'i.isLt).volatileFrontier := by
  rcases h with ⟨c, rfl, hc⟩ | ⟨j, rfl⟩
  · have hr' := Option.some.inj hr
    rw [Prod.mk.injEq] at hr'
    obtain ⟨he, rfl⟩ := hr'
    rcases hc with hc | rfl
    · exact (hs.captured c hc).2 he
    · exact Nat.le_of_eq (freshCapture_stream s i).2
  · unfold noteRecorded at hr
    split at hr
    next hij =>
      subst hij
      rw [Option.some.injEq, Prod.mk.injEq] at hr
      exact Nat.le_of_eq hr.2.symm
    next => cases hr

theorem handOn_last (s : State) (b : Bool) (r : Recorded) (k : DataSeg) : (s.handOn b r).segments[k].last = s.segments[k].last := by
  rw [State.handOn_eq, State.evalSync_segments, State.satisfy_segments, State.disposedBy,
    State.disposeAll_segments _ _ (satisfiedBy_nodup _ b r)]
  split <;> rfl

theorem relatedIn_handOn {r : Recorded} (b : Bool) {i : StreamId} (h : v.RelatedIn i)
    (hr : ∀ f, r i = some (v.streams[i].epoch, f) → f ≤ v.streams[i].volatileFrontier) : (v.handOn b r).RelatedIn i := by
  have hstreams := v.handOn_streams b r i
  by_cases hx : ∃ f, r i = some (v.streams[i].epoch, f)
  · obtain ⟨f, hf⟩ := hx
    have hle := hr f hf
    obtain ⟨o1, o2, o3, o4, o5⟩ := Stream.ordered_iff.1 h.ordered
    have hrec : (v.handOn b r).streams[i] = { v.streams[i] with durableFrontier := max v.streams[i].durableFrontier f } := by
      rw [hstreams, hf]
      exact if_pos rfl
    refine ⟨?_, ?_, fun k hk => ?_, fun c hc => ?_⟩
    · rw [Stream.ordered_iff, hrec]
      exact ⟨Nat.max_le.2 ⟨o1, hle⟩, o2, o3, o4, o5⟩
    · have hst := h.staged
      unfold State.stagedInOrder State.stagedOf at hst ⊢
      rw [State.handOn_staging, hrec]
      exact hst
    · rw [hrec] at hk ⊢
      rw [handOn_last]
      exact h.chained k hk
    · rw [State.handOn_ledger] at hc
      rw [hrec]
      exact h.captured c hc
  · have hrec : (v.handOn b r).streams[i] = v.streams[i] := by
      rw [hstreams]
      unfold Stream.handedOn
      split
      next e f he =>
        refine if_neg fun hee => hx ⟨f, ?_⟩
        rw [he, hee]
      next => rfl
    exact h.congr (by rw [hrec]; exact .refl _) (stagedSeqs_of_eq i (by simp))
      (fun k hk => ⟨by rwa [hrec] at hk, handOn_last v b r k⟩) (.of_eq (by simp))

/-! ### Every step -/

/-- A segment that is in no chain may take any last sequence. -/
theorem State.RelatedIn.of_outside {i : StreamId} {k : DataSeg} (h : s.RelatedIn i) (hk : k ∉ (s.streams[i]'i.isLt).chain)
    (hs : t.streams = s.streams) (hst : t.staging = s.staging) (hl : t.ledger = s.ledger)
    (hg : ∀ j : DataSeg, j ≠ k → (t.segments[j]'j.isLt).last = (s.segments[j]'j.isLt).last) : t.RelatedIn i :=
  h.congr (by rw [hs]; exact .refl _) (stagedSeqs_of_eq i hst)
    (fun j hj => ⟨by rwa [hs] at hj, hg j fun e => hk (by rw [hs] at hj; exact e ▸ hj)⟩) (.of_eq (by rw [hl]))

theorem relatedIn_failed {e : Entry} {es : List Entry} {i : StreamId} (h : s.RelatedIn i) (hs : s.staging = e :: es) :
    State.RelatedIn { s with staging := { e with placement := .awaiting } :: markAwaiting e.stream s.staging.tail } i := by
  refine h.congr (.refl _) (stagedSeqs_of_map ?_ i) (chainKept_of_eq rfl rfl) (.of_eq rfl)
  have hmap := congrArg (List.map fun x : StreamId × Nat × Byte × List Byte => (x.1, x.2.1)) (markAwaiting_map e.stream es)
  rw [List.map_map, List.map_map] at hmap
  rw [hs, List.tail_cons, List.map_cons, List.map_cons]
  exact congrArg _ hmap

theorem SameRecords.not_chain {k : DataSeg} (hv : SameRecords s v) (hi : s.InPlaces) (hl : (s.segments[k]'k.isLt).location ≠ .chain)
    {i : StreamId} :
    k ∉ (v.streams[i]'i.isLt).chain := by
  rw [hv.streams]
  exact (hi.placed.each k).not_chain hl i

theorem State.InPlaces.not_chain_erasing {k : DataSeg} {p : ErasePhase} (hi : s.InPlaces) (hj : s.engine.job = some (.reclaim k p))
    (hp : p ≠ .pulse 0) : (s.segments[k]'k.isLt).location ≠ .chain := by
  rw [(hi.placed.each k).erasing.2 (Engine.erasing_reclaim hj hp)]
  decide

/-- The relations of every stream hold in the data that a step leaves. -/
theorem StepData.relatedIn (hi : s.InPlaces) (h : ∀ i : StreamId, s.RelatedIn i) (hd : StepData s E v) (i : StreamId) : v.RelatedIn i := by
  cases hd with
  | same hv => exact hv.relatedIn (h i)
  | released hv j => exact relatedIn_releaseCovered j i (hv.relatedIn (h i))
  | @withdrawn v hv k ks hk =>
    have hl : (s.segments[k]'k.isLt).location = .pool := (hi.placed.each k).pool.1 (hk ▸ List.mem_cons_self)
    refine (hv.relatedIn (h i)).of_outside (hv.not_chain hi (by rw [hl]; decide)) rfl rfl rfl fun j hj => ?_
    have hg := State.updSegment_other { v with pool := v.pool.tail } k j
      (fun g => { g with location := .retired, release := none }) (Ne.symm hj)
    exact congrArg Segment.last hg
  | chained hv e es k ks hs hk =>
    exact relatedIn_chained (hi.placed.congr hv.samePlaces) (fun j => hv.relatedIn (h j)) (hv.staging.trans hs)
      (hv.pool ▸ hk ▸ List.mem_cons_self) i
  | recorded hv e es k hs hk =>
    refine relatedIn_recorded (hi.placed.congr hv.samePlaces) (fun j => hv.relatedIn (h j)) (hv.staging.trans hs) ?_ i
    unfold State.headSegment at hk ⊢
    rw [hv.streams]
    exact hk
  | failed hv e es hs => exact relatedIn_failed (hv.relatedIn (h i)) (hv.staging.trans hs)
  | pulsed r k n hj =>
    refine (h i).congr (.refl _) rfl (fun j hj => ⟨hj, ?_⟩) (.of_eq rfl)
    by_cases hjk : j = k
    · subst hjk
      rw [State.pulsed_same]
    · have hg := State.updSegment_other { s with
        array := erasePulse s.array k.index r, reclaim := s.reclaim.filter (· != k) } k j (fun g => { g with location := .erasing })
        (Ne.symm hjk)
      exact congrArg Segment.last hg
  | counted hv k p hj hp => exact hv.relatedIn (h i)
  | @pooled v hv k p hj hp =>
    refine (hv.relatedIn (h i)).of_outside (hv.not_chain hi (hi.not_chain_erasing hj hp)) rfl rfl rfl fun j hj => ?_
    have hg := State.updSegment_other v k j (fun g => { g.erased with location := .pool, header := .free }) (Ne.symm hj)
    exact congrArg Segment.last hg
  | @retired v hv k p hj hp b ok =>
    refine (hv.relatedIn (h i)).of_outside (hv.not_chain hi (hi.not_chain_erasing hj hp)) rfl rfl rfl fun j hj => ?_
    rw [endRetire_other v b ok hj]
  | captured hv => exact hv.relatedIn (relatedIn_captureImage (h i))
  | @handed v hv b r hr =>
    have hv' : v.streams = s.streams := hv.elim (·.streams) (·.streams)
    refine relatedIn_handOn b ?_ fun f hf => ?_
    · rcases hv with hv | hv
      · exact hv.relatedIn (h i)
      · exact hv.relatedIn (relatedIn_captureImage (h i))
    · rw [hv'] at hf ⊢
      exact hr.le (h i) hf

end Sys2Proof.Machine
end

section
/-! The relations of the stream records through the frames (R29). Settles O8. -/

namespace Sys2Proof.Machine

-- One proof after the other: the stacks of proofs elaborated side by side come near the memory that a check may take.
set_option Elab.async false

open Sys2Proof

variable {s t u v : State} {j : StreamId}

/-! ### Changes of one record -/

/-- A stream record changes, and the rest of what the relations are about stays. -/
theorem relatedIn_updStream (i : StreamId) {f : Stream → Stream} (h : s.RelatedIn j)
    (hf : j = i → (f (s.streams[i]'i.isLt)).ordered = true ∧ (f (s.streams[i]'i.isLt)).epoch = (s.streams[i]'i.isLt).epoch
      ∧ (f (s.streams[i]'i.isLt)).nextSeq = (s.streams[i]'i.isLt).nextSeq
          ∧ (f (s.streams[i]'i.isLt)).lastCommitted = (s.streams[i]'i.isLt).lastCommitted
      ∧ (s.streams[i]'i.isLt).volatileFrontier ≤ (f (s.streams[i]'i.isLt)).volatileFrontier
          ∧ (f (s.streams[i]'i.isLt)).chain.Sublist (s.streams[i]'i.isLt).chain) :
    (s.updStream i f).RelatedIn j := by
  by_cases hj : j = i
  · subst hj
    obtain ⟨hord, hepoch, hnext, hlast, hfront, hchain⟩ := hf rfl
    have hrec : ((s.updStream j f).streams[j]'j.isLt) = f (s.streams[j]'j.isLt) := State.updStream_same s j f
    refine ⟨hrec ▸ hord, ?_, fun k hk => ?_, fun c hc => ?_⟩
    · have hst := h.staged
      unfold State.stagedInOrder at hst ⊢
      rw [hrec, hlast, hnext]
      exact hst
    · rw [hrec] at hk ⊢
      rw [hlast]
      exact h.chained k (hchain.subset hk)
    · obtain ⟨h1, h2⟩ := h.captured c hc
      rw [hrec, hepoch]
      exact ⟨h1, fun he => (h2 he).trans hfront⟩
  · have hrec : ((s.updStream i f).streams[j]'j.isLt) = (s.streams[j]'j.isLt) := State.updStream_other s i j f (Ne.symm hj)
    exact h.of_eq hrec rfl rfl rfl

/-- A change of a record that leaves the counts and the chain. -/
theorem relatedIn_counts (i : StreamId) {f : Stream → Stream} (h : s.RelatedIn j)
    (hf : ∀ r : Stream, r.SameCounts (f r) := by exact fun _ => ⟨rfl, rfl, rfl, rfl, rfl, rfl⟩)
    (hc : ∀ r : Stream, (f r).chain = r.chain := by exact fun _ => rfl) : (s.updStream i f).RelatedIn j := by
  refine relatedIn_updStream i h fun hj => ?_
  subst hj
  obtain ⟨h1, h2, h3, h4, h5, h6⟩ := hf (s.streams[j]'j.isLt)
  refine ⟨?_, h1, h2, h3, Nat.le_of_eq h4.symm, by rw [hc]⟩
  rw [Stream.ordered_iff, h2, h3, h4, h5, h6]
  exact Stream.ordered_iff.1 h.ordered

theorem relatedIn_notify (i : StreamId) (n : Notice) (h : s.RelatedIn j) : (s.notify i n).RelatedIn j := relatedIn_counts i h

theorem relatedIn_setStreamSides (i : StreamId) (h : s.RelatedIn j) : (s.setStreamSides i).RelatedIn j := relatedIn_counts i h

theorem relatedIn_selectIfIdle (h : s.RelatedIn j) : s.selectIfIdle.RelatedIn j := (faults_selectIfIdle s).relatedIn h

theorem relatedIn_needImage (h : s.RelatedIn j) : s.needImage.RelatedIn j := h.of_eq rfl rfl rfl rfl

theorem relatedIn_raise (e : Event) (h : s.RelatedIn j) : (s.raise e).RelatedIn j := h.of_eq rfl rfl rfl rfl

/-- The cursor of a stream moves to a position that it may take. -/
theorem relatedIn_cursor (i : StreamId) {q : Nat} (h : s.RelatedIn j)
    (hq : (s.streams[i]'i.isLt).volatileFrontier + 1 ≤ q ∧ q ≤ (s.streams[i]'i.isLt).lastCommitted + 1) :
    (s.updStream i fun t => { t with cursor := q }).RelatedIn j := by
  refine relatedIn_updStream i h fun hj => ⟨?_, rfl, rfl, rfl, Nat.le_refl _, List.Sublist.refl _⟩
  subst hj
  obtain ⟨o1, o2, o3, -, -⟩ := Stream.ordered_iff.1 h.ordered
  exact Stream.ordered_iff.2 ⟨o1, o2, o3, hq.1, hq.2⟩

theorem relatedIn_moveCursor (i : StreamId) {q : Nat} (h : ∀ i : StreamId, s.RelatedIn i) (hq : (s.streams[i]'i.isLt).Reaches q) :
    (s.moveCursor i q).RelatedIn j := by
  unfold State.moveCursor
  split
  · exact h j
  · exact relatedIn_evalUnread i j (relatedIn_cursor i (h j) (hq (Stream.ordered_iff.1 (h i).ordered).2.1))

/-! ### APPEND (R58, R59) -/

/-- A record is staged with the stream's next sequence (R58). -/
theorem relatedIn_numbered (i : StreamId) (tag : Byte) (payload : List Byte) (p : Placement) (h : s.RelatedIn j) :
    (s.numbered i tag payload p).RelatedIn j := by
  have heq := s.numbered_eq i tag payload p
  have hcap : (s.numbered i tag payload p).ledger.captured = s.ledger.captured := by
    rw [heq]
    dsimp only
    split <;> rfl
  have hsegs : (s.numbered i tag payload p).segments = s.segments := by rw [heq]
  have hstaged : (s.numbered i tag payload p).stagedOf j = s.stagedOf j ++ if i = j then [s.stagedEntry i tag payload p] else [] := by
    unfold State.stagedOf
    rw [heq, List.filter_append]
    by_cases hij : i = j <;> simp [hij, State.stagedEntry]
  by_cases hj : i = j
  · subst hj
    rw [if_pos rfl] at hstaged
    have hrec : ((s.numbered i tag payload p).streams[i]'i.isLt) = (s.streams[i]'i.isLt).numbered := by
      rw [heq]
      exact Vector.getElem_set_self _
    obtain ⟨o1, o2, o3, o4, o5⟩ := Stream.ordered_iff.1 h.ordered
    have hnext : (s.streams[i]'i.isLt).numbered.nextSeq = (s.streams[i]'i.isLt).nextSeq + 1 := by
      unfold Stream.numbered
      split <;> rfl
    have hsame : (s.streams[i]'i.isLt).numbered.epoch = (s.streams[i]'i.isLt).epoch
        ∧ (s.streams[i]'i.isLt).numbered.lastCommitted = (s.streams[i]'i.isLt).lastCommitted
        ∧ (s.streams[i]'i.isLt).numbered.volatileFrontier = (s.streams[i]'i.isLt).volatileFrontier
        ∧ (s.streams[i]'i.isLt).numbered.durableFrontier = (s.streams[i]'i.isLt).durableFrontier
            ∧ (s.streams[i]'i.isLt).numbered.cursor = (s.streams[i]'i.isLt).cursor
        ∧ (s.streams[i]'i.isLt).numbered.chain = (s.streams[i]'i.isLt).chain := by
      unfold Stream.numbered
      split <;> exact ⟨rfl, rfl, rfl, rfl, rfl, rfl⟩
    obtain ⟨h1, h2, h3, h4, h5, h6⟩ := hsame
    refine ⟨?_, ?_, fun k hk => ?_, fun c hc => ?_⟩
    · rw [Stream.ordered_iff, hrec, h2, h3, h4, h5, hnext]
      exact ⟨o1, o2, by omega, o4, o5⟩
    · have hst := h.staged
      unfold State.stagedInOrder at hst ⊢
      rw [hstaged, hrec, h2, hnext, List.map_append, hst]
      have hlen : (s.streams[i]'i.isLt).nextSeq + 1 - ((s.streams[i]'i.isLt).lastCommitted + 1)
          = (s.streams[i]'i.isLt).nextSeq - ((s.streams[i]'i.isLt).lastCommitted + 1) + 1 := by omega
      rw [hlen, List.range'_concat]
      congr 1
      change [(s.streams[i]'i.isLt).nextSeq] = _
      congr 1
      omega
    · rw [hrec, h6] at hk
      rw [hrec, h2, hsegs]
      exact h.chained k hk
    · rw [hcap] at hc
      rw [hrec, h1, h3]
      exact h.captured c hc
  · rw [if_neg hj, List.append_nil] at hstaged
    have hne : i.val ≠ j.val := fun e => hj (Fin.ext e)
    have hrec : ((s.numbered i tag payload p).streams[j]'j.isLt) = (s.streams[j]'j.isLt) := by
      rw [heq]
      exact Vector.getElem_set_ne i.isLt j.isLt hne
    refine h.congr (by rw [hrec]; exact .refl _) ?_ (chainKept_of_eq (by rw [hrec]) hsegs) (.of_eq hcap)
    unfold State.stagedSeqs
    rw [hstaged]

/-- Where a segment is dropped, frontier and cursor move within what is committed (R59). -/
theorem relatedIn_makeRoom (i : StreamId) {drop : Option DataSeg} (h : s.RelatedIn j) (hd : s.placeNew i = .new drop) :
    (s.makeRoom i drop).RelatedIn j := by
  cases drop with
  | none => exact relatedIn_counts (f := fun t => { t with reserved := t.reserved + 1 }) i h
  | some d =>
    have hc := dropCandidate_head (placeNew_drop hd)
    have heq := s.makeRoom_some i d
    have hlast : ∀ k : DataSeg, ((s.makeRoom i (some d)).segments[k]'k.isLt).last = (s.segments[k]'k.isLt).last := fun k => by
      rw [heq]
      by_cases hk : k = d
      · subst hk
        simp
      · have hne : d.val ≠ k.val := fun e => hk (Fin.ext e.symm)
        simp [hne]
    have hstaged : (s.makeRoom i (some d)).stagedSeqs j = s.stagedSeqs j := stagedSeqs_of_eq j (by rw [heq])
    have hcap : (s.makeRoom i (some d)).ledger.captured = s.ledger.captured := by rw [heq]
    by_cases hj : j = i
    · subst hj
      have hrec := s.makeRoom_same j (some d)
      obtain ⟨o1, o2, o3, o4, o5⟩ := Stream.ordered_iff.1 h.ordered
      have hle : (s.segments[d]'d.isLt).last ≤ (s.streams[j]'j.isLt).lastCommitted := h.chained d (hc ▸ List.mem_cons_self)
      refine ⟨?_, ?_, fun k hk => ?_, fun c hcc => ?_⟩
      · rw [Stream.ordered_iff, hrec]
        change (s.streams[j]'j.isLt).durableFrontier ≤ max (s.streams[j]'j.isLt).volatileFrontier (s.segments[d]'d.isLt).last
          ∧ max (s.streams[j]'j.isLt).volatileFrontier (s.segments[d]'d.isLt).last ≤ (s.streams[j]'j.isLt).lastCommitted
          ∧ (s.streams[j]'j.isLt).lastCommitted < (s.streams[j]'j.isLt).nextSeq
          ∧ max (s.streams[j]'j.isLt).volatileFrontier (s.segments[d]'d.isLt).last + 1
            ≤ max (s.streams[j]'j.isLt).cursor (max (s.streams[j]'j.isLt).volatileFrontier (s.segments[d]'d.isLt).last + 1)
          ∧ max (s.streams[j]'j.isLt).cursor (max (s.streams[j]'j.isLt).volatileFrontier (s.segments[d]'d.isLt).last + 1) ≤
              (s.streams[j]'j.isLt).lastCommitted + 1
        omega
      · have hst : s.stagedSeqs j = _ := h.staged
        unfold State.stagedInOrder
        rw [hrec]
        exact hstaged.trans hst
      · rw [hrec] at hk ⊢
        rw [hlast]
        exact h.chained k (List.mem_of_mem_tail hk)
      · rw [hcap] at hcc
        obtain ⟨h1, h2⟩ := h.captured c hcc
        rw [hrec]
        exact ⟨h1, fun he => (h2 he).trans (Nat.le_max_left _ _)⟩
    · have hrec := s.makeRoom_other i (some d) hj
      exact h.congr (by rw [hrec]; exact .refl _) hstaged (fun k hk => ⟨by rwa [hrec] at hk, hlast k⟩) (.of_eq hcap)

theorem relatedIn_acceptEnd (i : StreamId) (moved : Bool) (n : Int) (h : s.RelatedIn j) : (s.acceptEnd i moved n).RelatedIn j := by
  unfold State.acceptEnd
  refine relatedIn_evalPool n j ?_
  have hs := relatedIn_evalHeld i j (relatedIn_selectIfIdle h)
  split
  · exact relatedIn_evalUnread i j hs
  · exact hs

/-! ### RESET STREAM (R43, R44) -/

theorem relatedIn_resetEnd (i : StreamId) (h : s.RelatedIn j) : (s.resetEnd i).RelatedIn j := by
  have hv := resetEnds s i
  obtain ⟨hchain, hlisted, hother⟩ := hv.segment
  have hcap : (s.resetEnd i).ledger.captured = s.ledger.captured := by rw [hv.ledger]
  by_cases hj : j = i
  · subst hj
    have hrec := hv.same
    refine ⟨?_, ?_, fun k hk => ?_, fun c hc => ?_⟩
    · rw [hrec]
      rfl
    · unfold State.stagedInOrder State.stagedOf
      rw [hv.staging, hrec, List.filter_filter]
      simp [Stream.resetRecord, Stream.reset]
    · rw [hrec] at hk
      cases hk
    · rw [hcap] at hc
      obtain ⟨h1, -⟩ := h.captured c hc
      rw [hrec]
      exact ⟨Nat.le_succ_of_le h1, fun he => absurd he (Nat.ne_of_lt (Nat.lt_succ_of_le h1))⟩
  · have hrec := hv.others j hj
    refine h.congr (by rw [hrec]; exact .refl _) ?_ (fun k hk => ⟨by rwa [hrec] at hk, ?_⟩) (.of_eq hcap)
    · unfold State.stagedSeqs State.stagedOf
      rw [hv.staging, List.filter_filter]
      congr 1
      refine List.filter_congr fun e _ => ?_
      by_cases he : e.stream = j
      · simp [he, hj]
      · simp [he]
    · by_cases hk : k ∈ (s.streams[i]'i.isLt).chain
      · rw [hchain k hk]
      · by_cases hr : (s.segments[k]'k.isLt).location = .release ∧ (s.segments[k]'k.isLt).owner = some i
        · rw [hlisted k hk hr.1 hr.2]
        · rw [hother k hk (by tauto)]

/-! ### Every action -/

theorem ActionAct.relatedIn (h : ∀ i : StreamId, s.RelatedIn i) (ha : ActionAct s t) (j : StreamId) : t.RelatedIn j := by
  cases ha with
  | nothing => exact h j
  | clearEvents | setEnable | poolEmpty | doze | suspend | resume | format | vault => exact (h j).of_eq rfl rfl rfl rfl
  | quotaFull i => exact relatedIn_raise _ (relatedIn_notify i _ (h j))
  | configure i p q hw b =>
    exact relatedIn_selectIfIdle (relatedIn_needImage (relatedIn_setStreamSides i (relatedIn_counts i (h j))))
  | move i target => exact relatedIn_selectIfIdle (relatedIn_needImage (relatedIn_counts i (h j)))
  | resetStream i =>
    rw [State.resetStream_eq]
    exact relatedIn_evalPool _ j (relatedIn_selectIfIdle (relatedIn_resetEnd i (h j)))
  | appendCurrent i tag payload =>
    rw [State.acceptCurrent_eq]
    exact relatedIn_selectIfIdle (relatedIn_numbered i tag payload _ (h j))
  | appendNew i tag payload drop hf hd =>
    rw [State.acceptNew_eq]
    exact relatedIn_acceptEnd i _ _ (relatedIn_numbered i tag payload _ (relatedIn_makeRoom i (h j) hd))
  | sync =>
    rw [State.recordSync_eq, State.syncRecorded_eq]
    exact relatedIn_selectIfIdle ((h j).of_eq rfl rfl rfl rfl)
  | ack i q hq hf =>
    rw [State.acknowledge_eq]
    have hv : (s.acked i q).RelatedIn j := by
      refine relatedIn_updStream i (h j) fun hj => ⟨?_, rfl, rfl, rfl, Nat.le_of_lt hf, List.Sublist.refl _⟩
      subst hj
      obtain ⟨o1, o2, o3, o4, o5⟩ := Stream.ordered_iff.1 (h j).ordered
      rw [Stream.ordered_iff]
      dsimp only
      omega
    have hw := relatedIn_releaseCovered i j hv
    unfold State.ackEnd
    refine relatedIn_selectIfIdle ?_
    split
    · exact relatedIn_evalUnread i j hw
    · exact hw
  | push i =>
    have hv := relatedIn_counts (f := fun t => { t with marks := (t.cursor :: t.marks).take Config.markDepth }) i (h j)
    unfold State.pushMark
    dsimp only
    split
    · exact relatedIn_raise _ (relatedIn_notify i _ hv)
    · exact hv
  | pop i => exact relatedIn_counts i (h j)
  | rewind i q hq => exact relatedIn_moveCursor i h hq
  | rewindPop i q qs hq => exact relatedIn_counts i (relatedIn_moveCursor i h hq)
  | deviceConfig n => exact relatedIn_selectIfIdle ((h j).of_eq rfl rfl rfl rfl)
  | writeGuard m locks f =>
    unfold State.writeGuard
    dsimp only
    split
    · exact relatedIn_selectIfIdle ((h j).of_eq rfl rfl rfl rfl)
    · exact (h j).of_eq rfl rfl rfl rfl

/-! ### A FETCH in progress (R70, R72, R78) -/

theorem length_endsFrom (n : Nat) : ∀ rs : List (List Byte), (endsFrom n rs).length = rs.length := by
  intro rs
  induction rs generalizing n with
  | nil => rfl
  | cons r rs ih => simp [endsFrom, ih]

theorem snapshotOf_command (s : State) (c : OutputCommand) : (s.snapshotOf c).command = c := by
  unfold State.snapshotOf State.activeSnapshot State.fetchSnapshot State.streamInfoSnapshot State.vaultSnapshot
  repeat' (first | rfl | split)

/-- A verdict formed now counts no record above the last committed one (R73, R75). -/
theorem fetches_snapshotOf (h : ∀ i : StreamId, s.RelatedIn i) {c : OutputCommand} {b f n : Byte} {w : Word32} {i : StreamId}
    (hc : (s.snapshotOf c).command = .fetch b f w n) (hv : (s.snapshotOf c).verdict = .done) (hf : f = 0) (hb : streamOf b = some i) :
    (s.streams[i]'i.isLt).volatileFrontier + 1 ≤ (s.snapshotOf c).start
      ∧ (s.snapshotOf c).start + (s.snapshotOf c).recordEnds.length ≤ (s.streams[i]'i.isLt).lastCommitted + 1 := by
  obtain rfl : c = .fetch b f w n := (snapshotOf_command s c).symm.trans hc
  subst hf
  obtain ⟨o1, o2, o3, o4, o5⟩ := Stream.ordered_iff.1 (h i).ordered
  unfold State.snapshotOf at hv ⊢
  split at hv
  · cases hv
  rename_i hrec
  rw [if_neg hrec]
  change (s.fetchSnapshot (.fetch b 0 w n) b 0 w n).verdict = .done at hv
  change _ ≤ (s.fetchSnapshot (.fetch b 0 w n) b 0 w n).start
    ∧ (s.fetchSnapshot (.fetch b 0 w n) b 0 w n).start + (s.fetchSnapshot (.fetch b 0 w n) b 0 w n).recordEnds.length ≤ _
  unfold State.fetchSnapshot at hv ⊢
  simp only [hb] at hv ⊢
  by_cases hw : w = 0
  · have hl : locatorOf 0 w = some .cursor := by
      unfold locatorOf
      rw [if_pos rfl, if_pos hw]
    simp only [hl, Locator.start] at hv ⊢
    split at hv
    · cases hv
    · rename_i hn
      rw [if_neg hn]
      split at hv
      · cases hv
      · rename_i hb
        rw [if_neg hb]
        split at hv
        · rename_i hres
          rw [if_pos hres]
          dsimp only
          rw [length_endsFrom, State.delivery, List.length_map, List.length_range, Int.toNat_natCast]
          omega
        · rename_i hres
          exact absurd hv hres
  · have hl : locatorOf 0 w = none := by
      unfold locatorOf
      rw [if_pos rfl, if_neg hw]
    simp only [hl] at hv
    cases hv

theorem PortOnly.relatedIn (hp : PortOnly s t) (h : s.RelatedIn j) : t.RelatedIn j :=
  h.of_eq (by rw [hp.streams]) hp.staging hp.segments (by rw [hp.ledger])

theorem PortStep.fetches (hp : PortStep s t) (h : ∀ i : StreamId, s.RelatedIn i) (hf : s.Fetches) : t.Fetches := by
  intro n b f c w i hn hc hv h0 hb
  rw [hp.only.streams]
  rcases hp.snapshot with hs | hs | ⟨r, d, hr, hs⟩
  · rw [hs] at hn
    cases hn
  · exact hf n b f c w i (hs ▸ hn) hc hv h0 hb
  · obtain rfl : r.snapshotOf d = n := Option.some.inj (hs.symm.trans hn)
    have hfr := fetches_snapshotOf (fun i => hr.relatedIn (h i)) hc hv h0 hb
    rwa [hr.streams] at hfr

/-- Frontiers that stay and last committed sequences that do not fall keep a verdict within what is committed. -/
theorem State.Fetches.congr (h : s.Fetches) (hp : t.port.snapshot = s.port.snapshot)
    (hv : ∀ i : StreamId, (t.streams[i]'i.isLt).volatileFrontier = (s.streams[i]'i.isLt).volatileFrontier)
    (hl : ∀ i : StreamId, (s.streams[i]'i.isLt).lastCommitted ≤ (t.streams[i]'i.isLt).lastCommitted) : t.Fetches := by
  intro n b f c w i hn hc hd h0 hb
  obtain ⟨h1, h2⟩ := h n b f c w i (hp ▸ hn) hc hd h0 hb
  rw [hv]
  exact ⟨h1, h2.trans (Nat.succ_le_succ (hl i))⟩

theorem evalUnread_counts (s : State) (i j : StreamId) : (s.streams[j]'j.isLt).SameCounts ((s.evalUnread i).streams[j]'j.isLt) := by
  by_cases hj : j = i
  · subst hj
    rw [State.evalUnread_same]
    exact ⟨rfl, rfl, rfl, rfl, rfl, rfl⟩
  · rw [State.evalUnread_other _ _ _ hj]
    exact .refl _

theorem OutputAct.relatedIn (h : ∀ i : StreamId, s.RelatedIn i) (hf : s.Fetches) (ha : OutputAct s t) (j : StreamId) : t.RelatedIn j := by
  cases ha with
  | nothing => exact h j
  | clearNotices i m => exact relatedIn_counts i (h j)
  | advance b f count w n i bytes hs hc hv h0 hb hn =>
    obtain ⟨h1, h2⟩ := hf n b f count w i hs hc hv h0 hb
    have hle : n.counted bytes ≤ n.recordEnds.length := List.length_filter_le _ _
    exact relatedIn_evalUnread i j (relatedIn_cursor i (h j) ⟨by omega, by omega⟩)

theorem OutputAct.fetches (hf : s.Fetches) (ha : OutputAct s t) : t.Fetches := by
  have hupd : ∀ (i : StreamId) (f : Stream → Stream), (∀ r : Stream, (f r).volatileFrontier = r.volatileFrontier) →
      (∀ r : Stream, (f r).lastCommitted = r.lastCommitted) → (s.updStream i f).Fetches := by
    intro i f h1 h2
    refine hf.congr rfl (fun j => ?_) fun j => ?_
    · by_cases hj : i = j
      · subst hj
        rw [State.updStream_same, h1]
      · rw [State.updStream_other _ _ _ _ hj]
    · by_cases hj : i = j
      · subst hj
        rw [State.updStream_same, h2]
      · rw [State.updStream_other _ _ _ _ hj]
  cases ha with
  | nothing => exact hf
  | clearNotices i m => exact hupd i _ (fun _ => rfl) fun _ => rfl
  | advance b f count w n i bytes hs hc hv h0 hb hn =>
    exact (hupd i (fun t => { t with cursor := n.start + n.counted bytes }) (fun _ => rfl) fun _ => rfl).congr
      (congrArg Port.snapshot (kept_evalUnread _ i).port) (fun j => (evalUnread_counts _ i j).volatileFrontier)
      fun j => Nat.le_of_eq (evalUnread_counts _ i j).lastCommitted.symm

/-! ### Every row -/

/-- A step of a job moves no volatile frontier and takes no commitment back (R29, R118). -/
theorem StepData.counts {E : Option DataSeg} (h : ∀ i : StreamId, s.RelatedIn i) (hd : StepData s E v) (i : StreamId) :
    (v.streams[i]'i.isLt).volatileFrontier = (s.streams[i]'i.isLt).volatileFrontier
        ∧ (s.streams[i]'i.isLt).lastCommitted ≤ (v.streams[i]'i.isLt).lastCommitted := by
  have hof : ∀ {v w : State}, v.streams = s.streams → (v.streams[i]'i.isLt).SameCounts (w.streams[i]'i.isLt) →
      (w.streams[i]'i.isLt).volatileFrontier = (s.streams[i]'i.isLt).volatileFrontier
          ∧ (s.streams[i]'i.isLt).lastCommitted ≤ (w.streams[i]'i.isLt).lastCommitted := by
    intro v w hv hw
    rw [hw.volatileFrontier, hw.lastCommitted, hv]
    exact ⟨rfl, Nat.le_refl _⟩
  cases hd with
  | same hv | counted hv => exact hof hv.streams (.refl _)
  | captured hv => exact hof hv.streams (.refl _)
  | withdrawn hv | failed hv | pooled hv | retired hv => exact hof hv.streams (.refl _)
  | pulsed => exact hof rfl (.refl _)
  | released hv j => exact hof hv.streams (releaseCovered_counts _ j i)
  | chained hv e es k => exact hof hv.streams (chained_counts _ e k i)
  | @recorded v hv e es k hs hk =>
    by_cases hj : i = e.stream
    · subst hj
      obtain ⟨hseq, -, -⟩ := staged_head (hv.relatedIn (h _)) (hv.staging.trans hs)
      rw [State.recorded_same]
      change (v.streams[e.stream]'e.stream.isLt).volatileFrontier = _ ∧ _ ≤ e.seq
      rw [hseq, hv.streams]
      exact ⟨rfl, Nat.le_succ _⟩
    · rw [State.recorded_other _ _ _ hj, hv.streams]
      exact ⟨rfl, Nat.le_refl _⟩
  | @handed v hv b r =>
    have hv' : v.streams = s.streams := hv.elim (·.streams) (·.streams)
    rw [State.handOn_streams, Stream.handedOn_volatileFrontier, ← hv']
    refine ⟨rfl, Nat.le_of_eq ?_⟩
    unfold Stream.handedOn
    split
    · split <;> rfl
    · rfl

theorem Stepped.fetches (hs : Stepped s u) (h : ∀ i : StreamId, s.RelatedIn i) (hp : u.port = s.port) (hf : s.Fetches) : u.Fetches := by
  obtain ⟨E, v, hd, he⟩ := hs
  refine hf.congr (by rw [hp]) (fun i => ?_) fun i => ?_
  · have hx := congrArg Stream.volatileFrontier (he.faults.kept i).frame
    exact hx.trans (hd.counts h i).1
  · have hx := congrArg Stream.lastCommitted (he.faults.kept i).frame
    exact (hd.counts h i).2.trans (Nat.le_of_eq hx.symm)

theorem Stepped.relatedIn (hs : Stepped s u) (hi : s.InPlaces) (h : ∀ i : StreamId, s.RelatedIn i) (j : StreamId) : u.RelatedIn j := by
  obtain ⟨E, v, hd, he⟩ := hs
  exact he.faults.relatedIn (hd.relatedIn hi h j)

theorem StepAct.port {c : Instr} (hr : s.engine.runs = true) (h : StepAct s c u) : u.port = s.port := by
  obtain ⟨w, hw, hk⟩ := h.worked hr
  exact hk.port.trans (by cases hw <;> rfl)

/-- Outside recovery and FORMAT, every row keeps the relations of the stream records. -/
theorem Row.related {c : Instr} (h : Row s c t) (hp : s.power.holds = true) (hf : s.engine.formatRuns = false)
    (hs : s.engineSound = true) (hi : s.InPlaces) (hr : ∀ i : StreamId, s.RelatedIn i) (hfetch : s.Fetches)
    (ht : t.power.holds = true) : (∀ i : StreamId, t.RelatedIn i) ∧ t.Fetches := by
  have hsound : s.engine.sound = true := (EngineOk.of_engineSound hs hp).sound
  have hnone : t.port.snapshot = none → t.Fetches := fun hn n b f c w i hc => by
    rw [hn] at hc
    cases hc
  cases h with
  | port c h => exact ⟨fun i => h.only.relatedIn (hr i), h.fetches hr hfetch⟩
  | action c hpow hu h ht hn =>
    exact ⟨fun i => ht.only.relatedIn (h.relatedIn (fun i => hu.only.relatedIn (hr i)) i), hnone hn⟩
  | output c hu h ht =>
    have hru := fun i => hu.only.relatedIn (hr i)
    have hfu := hu.fetches hr hfetch
    have hrv := h.relatedIn hru hfu
    exact ⟨fun i => ht.only.relatedIn (hrv i), ht.fetches hrv (h.fetches hfu)⟩
  | wake => exact ⟨fun i => (hr i).of_eq rfl rfl rfl rfl, hfetch.congr rfl (fun _ => rfl) fun _ => Nat.le_refl _⟩
  | wakeEnd => exact ⟨fun i => (hr i).of_eq rfl rfl rfl rfl, hfetch.congr rfl (fun _ => rfl) fun _ => Nat.le_refl _⟩
  | softReset => cases ht
  | powerLoss => cases ht
  | powerOn => cases ht
  | recovered c hrec =>
    rw [hrec] at hp
    cases hp
  | @step c u hpow hrun h =>
    have hst := h.stepped hsound hrun
    have hpool : (u.evalPool s.available).streams = u.streams := by rw [State.evalPool_eq]
    exact ⟨fun i => relatedIn_evalPool _ i (hst.relatedIn hi hr i),
      (hst.fetches hr (h.port hrun) hfetch).congr (by rw [(kept_evalPool _ _).port]) (fun i => by rw [hpool])
        fun i => by rw [hpool]⟩
  | format hpow hrun h =>
    rw [h.formatRuns hrun] at hf
    cases hf

/-- Settles O8: what a row makes of each stream's relations, from the state that it finds, and the verdict of the frame at hand. -/
theorem stepKeepsStreamRelations : Obligations.StepKeepsStreamRelations := by
  intro s t hp hf hs hi hr h ht
  have hok : s.engine.sound = true := (EngineOk.of_engineSound hs hp).sound
  rcases step_cases h with rfl | ⟨c, rest, -, hexec⟩
  · exact hr
  · obtain ⟨hrel, hfetch⟩ := related_iff.1 hr
    refine related_iff.2 ((exec_row hexec).related hp hf hs ?_ (fun i => (hrel i).of_eq rfl rfl rfl rfl) ?_ ht)
    · exact ((placed_iff hok).1 hi).congr (.of_eq rfl rfl rfl rfl) rfl rfl
    · exact hfetch.congr rfl (fun _ => rfl) fun _ => Nat.le_refl _

end Sys2Proof.Machine
end

section
/-! What the information commands shift out, field by field (R47, R105, R106, R172, R180, R181, R184, R185). Settles O22. -/

namespace Sys2Proof.Machine

-- One proof after the other: the stacks of proofs elaborated side by side come near the memory that a check may take.
set_option Elab.async false

open Sys2Proof

variable {s t : State}

/-! ### Fields -/

theorem fromBE_byte (b : Byte) : fromBE [b] = b.toNat := by simp [fromBE]

theorem fromBE_low8 (n : Nat) : fromBE [byteOf n] = n % 2 ^ 8 := by simp [fromBE]

theorem fromBE_low16 (n : Nat) : fromBE (be16 n) = n % 2 ^ 16 := by
  simp [fromBE, be16]
  omega

theorem fromBE_low24 (n : Nat) : fromBE (be24 n) = n % 2 ^ 24 := by
  simp [fromBE, be24]
  omega

theorem fromBE_low32 (n : Nat) : fromBE (be32 n) = n % 2 ^ 32 := by
  simp [fromBE, be32]
  omega

theorem fieldAt_byte_skip (b : Byte) (d : List Byte) (o n : Nat) : fieldAt (b :: d) (o + 1) n = fieldAt d o n := rfl

theorem fieldAt_be16_skip (x : Nat) (d : List Byte) (o n : Nat) : fieldAt (be16 x ++ d) (o + 2) n = fieldAt d o n := rfl

theorem fieldAt_be24_skip (x : Nat) (d : List Byte) (o n : Nat) : fieldAt (be24 x ++ d) (o + 3) n = fieldAt d o n := rfl

theorem fieldAt_be32_skip (x : Nat) (d : List Byte) (o n : Nat) : fieldAt (be32 x ++ d) (o + 4) n = fieldAt d o n := rfl

theorem fieldAt_byte (b : Byte) (d : List Byte) : fieldAt (b :: d) 0 1 = b.toNat := fromBE_byte b

theorem toNat_byteOf (n : Nat) : (byteOf n).toNat = n % 2 ^ 8 := BitVec.toNat_ofNat n 8

theorem fieldAt_be16 (n : Nat) (d : List Byte) : fieldAt (be16 n ++ d) 0 2 = n % 2 ^ 16 := fromBE_low16 n

theorem fieldAt_be24 (n : Nat) (d : List Byte) : fieldAt (be24 n ++ d) 0 3 = n % 2 ^ 24 := fromBE_low24 n

theorem fieldAt_be32 (n : Nat) (d : List Byte) : fieldAt (be32 n ++ d) 0 4 = n % 2 ^ 32 := fromBE_low32 n

theorem fieldAt_last (n : Nat) : fieldAt (be32 n) 0 4 = n % 2 ^ 32 := fromBE_low32 n

theorem fromBE_append (a b : List Byte) : fromBE (a ++ b) = fromBE a * 256 ^ b.length + fromBE b := by
  induction b using List.reverseRecOn with
  | nil => simp [fromBE]
  | append_singleton b x ih =>
    have hx : ∀ c : List Byte, fromBE (c ++ [x]) = fromBE c * 256 + x.toNat := fun c => by
      unfold fromBE
      rw [List.foldl_append]
      rfl
    rw [← List.append_assoc, hx, hx, ih, List.length_append, List.length_singleton, Nat.pow_succ]
    ring

theorem fromBE_low64 (n : Nat) : fromBE (be32 (n / 4294967296) ++ be32 n) = n % 2 ^ 64 := by
  rw [fromBE_append, fromBE_low32, fromBE_low32, show (be32 n).length = 4 from rfl]
  omega

theorem fieldAt_low64 (n : Nat) : fieldAt (be32 (n / 4294967296) ++ be32 n) 0 8 = n % 2 ^ 64 := fromBE_low64 n

/-! ### The stream descriptor (R47) -/

theorem streamDescriptor_eq (s : State) (i : StreamId) :
    s.streamDescriptor i = byteOf i.val :: streamStateCode (s.streams[i]'i.isLt).state :: policyCode (s.streams[i]'i.isLt).policy
    :: (be32 (s.streams[i]'i.isLt).epoch ++ (be16 (s.streams[i]'i.isLt).quota
        ++ (be16 (s.streams[i]'i.isLt).highWater ++ (be16 (s.streams[i]'i.isLt).backlog
    ++ (be32 (s.streams[i]'i.isLt).nextSeq ++ (be32 (s.streams[i]'i.isLt).lastCommitted ++ (be32 (s.streams[i]'i.isLt).volatileFrontier
    ++ (be32 (s.streams[i]'i.isLt).durableFrontier ++ (be32 (s.streams[i]'i.isLt).cursor ++ (be32 (s.streams[i]'i.isLt).unread
    ++ byteOf (s.streams[i]'i.isLt).marks.length :: (be32 ((s.streams[i]'i.isLt).marks.getD 0 0)
        ++ (be32 ((s.streams[i]'i.isLt).marks.getD 1 0)
    ++ (be32 ((s.streams[i]'i.isLt).marks.getD 2 0) ++ (be32 ((s.streams[i]'i.isLt).marks.getD 3 0) ++ (be16 (s.streams[i]'i.isLt).held
    ++ (be16 (s.streams[i]'i.isLt).reserved ++ byteOf (s.stagedCount i) :: (be16 (s.streams[i]'i.isLt).chain.length
    ++ (s.streams[i]'i.isLt).notices :: be32 (s.streams[i]'i.isLt).overrun))))))))))))))))) := by
  unfold State.streamDescriptor markBytes
  simp only [List.append_assoc, List.cons_append, List.nil_append]

theorem streamDescriptor_fields (s : State) (i : StreamId) : (s.streamDescriptor i).length = 66
      ∧ fieldAt (s.streamDescriptor i) 0 1 = i.val
      ∧ fieldAt (s.streamDescriptor i) 1 1
        = (match (s.streams[i]'i.isLt).state with | .idle => 0 | .opened => 1 | .sealed => 2 | .faulted => 3)
      ∧ fieldAt (s.streamDescriptor i) 2 1 = (match (s.streams[i]'i.isLt).policy with | .block => 0 | .wrap => 1)
      ∧ fieldAt (s.streamDescriptor i) 3 4 = (s.streams[i]'i.isLt).epoch % 2 ^ 32
      ∧ fieldAt (s.streamDescriptor i) 7 2 = (s.streams[i]'i.isLt).quota % 2 ^ 16
      ∧ fieldAt (s.streamDescriptor i) 9 2 = (s.streams[i]'i.isLt).highWater % 2 ^ 16
      ∧ fieldAt (s.streamDescriptor i) 11 2 = (s.streams[i]'i.isLt).backlog % 2 ^ 16
      ∧ fieldAt (s.streamDescriptor i) 13 4 = (s.streams[i]'i.isLt).nextSeq % 2 ^ 32
      ∧ fieldAt (s.streamDescriptor i) 17 4 = (s.streams[i]'i.isLt).lastCommitted % 2 ^ 32
      ∧ fieldAt (s.streamDescriptor i) 21 4 = (s.streams[i]'i.isLt).volatileFrontier % 2 ^ 32
      ∧ fieldAt (s.streamDescriptor i) 25 4 = (s.streams[i]'i.isLt).durableFrontier % 2 ^ 32
      ∧ fieldAt (s.streamDescriptor i) 29 4 = (s.streams[i]'i.isLt).cursor % 2 ^ 32
      ∧ fieldAt (s.streamDescriptor i) 33 4 = (s.streams[i]'i.isLt).unread % 2 ^ 32
      ∧ fieldAt (s.streamDescriptor i) 37 1 = (s.streams[i]'i.isLt).marks.length % 2 ^ 8
      ∧ (∀ j : Fin 4, fieldAt (s.streamDescriptor i) (38 + 4 * j.val) 4 = (s.streams[i]'i.isLt).marks.getD j.val 0 % 2 ^ 32)
      ∧ fieldAt (s.streamDescriptor i) 54 2 = (s.streams[i]'i.isLt).held % 2 ^ 16
      ∧ fieldAt (s.streamDescriptor i) 56 2 = (s.streams[i]'i.isLt).reserved % 2 ^ 16
      ∧ fieldAt (s.streamDescriptor i) 58 1 = s.stagedCount i % 2 ^ 8
      ∧ fieldAt (s.streamDescriptor i) 59 2 = (s.streams[i]'i.isLt).chain.length % 2 ^ 16
      ∧ fieldAt (s.streamDescriptor i) 61 1 = (s.streams[i]'i.isLt).notices.toNat
      ∧ fieldAt (s.streamDescriptor i) 62 4 = (s.streams[i]'i.isLt).overrun % 2 ^ 32 := by
  rw [streamDescriptor_eq]
  refine ⟨by simp [be16, be32], ?id, ?state, ?policy, ?_, ?_, ?_, ?_, ?_, ?_, ?_, ?_, ?_, ?_, ?_, fun j => ?marks, ?_, ?_, ?_, ?_,
    ?_, ?_⟩
  case marks =>
    match j with
    | 0 =>
      show fieldAt _ 38 4 = (s.streams[i]'i.isLt).marks.getD 0 0 % 2 ^ 32
      simp only [fieldAt_byte_skip, fieldAt_be16_skip, fieldAt_be32_skip, fieldAt_be32]
    | 1 =>
      show fieldAt _ 42 4 = (s.streams[i]'i.isLt).marks.getD 1 0 % 2 ^ 32
      simp only [fieldAt_byte_skip, fieldAt_be16_skip, fieldAt_be32_skip, fieldAt_be32]
    | 2 =>
      show fieldAt _ 46 4 = (s.streams[i]'i.isLt).marks.getD 2 0 % 2 ^ 32
      simp only [fieldAt_byte_skip, fieldAt_be16_skip, fieldAt_be32_skip, fieldAt_be32]
    | 3 =>
      show fieldAt _ 50 4 = (s.streams[i]'i.isLt).marks.getD 3 0 % 2 ^ 32
      simp only [fieldAt_byte_skip, fieldAt_be16_skip, fieldAt_be32_skip, fieldAt_be32]
  all_goals
    simp only [fieldAt_byte_skip, fieldAt_be16_skip, fieldAt_be32_skip, fieldAt_byte, fieldAt_be16, fieldAt_be32, fieldAt_last,
      toNat_byteOf]
  case id => exact Nat.mod_eq_of_lt (Nat.lt_trans i.isLt (by decide))
  case state => cases (s.streams[i]'i.isLt).state <;> rfl
  case policy => cases (s.streams[i]'i.isLt).policy <;> rfl

/-! ### The segment descriptor (R105) -/

theorem segmentDescriptor_data (s : State) (k : DataSeg) : s.segmentDescriptor (k.val + 2) = s.dataDescriptor k := by
  have h : dataSegOf (k.val + 2) = some k := by
    unfold dataSegOf
    rw [dif_pos (show k.val + 2 - 2 < 510 by have := k.isLt; omega), if_pos (Nat.le_add_left 2 k.val)]
    rfl
  unfold State.segmentDescriptor
  rw [h]

theorem segmentDescriptor_anchor (s : State) (a : AnchorSeg) : s.segmentDescriptor a.val = s.anchorDescriptor a := by
  have h : dataSegOf a.val = none := by
    unfold dataSegOf
    rw [dif_pos (show a.val - 2 < 510 by have := a.isLt; omega), if_neg (by have := a.isLt; omega)]
  unfold State.segmentDescriptor
  rw [h]
  match a with
  | 0 => rfl
  | 1 => rfl

theorem owned_iff (h : HeaderState) : h.owned = true ↔ h = .opened ∨ h = .sealed ∨ h = .retirePending := by
  cases h <;> simp [HeaderState.owned]

theorem ownerBytes_owned {g : Segment} {o : StreamId} (ho : g.owner = some o) (hh : g.header.owned = true) :
    g.ownerBytes = byteOf o.val :: (be32 g.epoch ++ (be32 g.first ++ be32 g.last)) := by
  unfold Segment.ownerBytes
  rw [ho, ← List.append_assoc]
  exact if_pos hh

theorem ownerBytes_absent {g : Segment} (hh : g.header.owned = false) :
    g.ownerBytes = 0xFF :: (be32 0 ++ (be32 0 ++ be32 0)) := by
  unfold Segment.ownerBytes
  split
  · rw [if_neg (by simp [hh])]
    rfl
  · rfl

/-- Owner, epoch and sequences take 13 bytes in either form (R105). -/
theorem ownerBytes_form (g : Segment) : ∃ b e f l, g.ownerBytes = b :: (be32 e ++ (be32 f ++ be32 l)) := by
  cases hh : g.header.owned with
  | false => exact ⟨_, _, _, _, ownerBytes_absent hh⟩
  | true =>
    cases ho : g.owner with
    | none =>
      refine ⟨0xFF, 0, 0, 0, ?_⟩
      unfold Segment.ownerBytes
      rw [ho]
      rfl
    | some o => exact ⟨_, _, _, _, ownerBytes_owned ho hh⟩

/-- A release condition takes 5 bytes in either form (R105). -/
theorem releaseBytes_form (r : Option ReleaseCond) : ∃ (k : Byte) (n : Nat), releaseBytes r = k :: be32 n := by
  match r with
  | none => exact ⟨0, 0, rfl⟩
  | some (.frontier q) => exact ⟨1, q, rfl⟩
  | some (.image e) => exact ⟨2, e, rfl⟩

/-- The bytes of a segment descriptor (R105), from its parts. -/
def segmentBytes (index : Nat) (l h f : Byte) (owner : List Byte) (erases used : Nat) (release : List Byte) : List Byte :=
  be16 index ++ (l :: h :: f :: (owner ++ (be24 erases ++ (be16 used ++ release))))

theorem dataDescriptor_eq (s : State) (k : DataSeg) : s.dataDescriptor k
    = segmentBytes k.index (locationCode (s.segments[k]'k.isLt).location) (headerCode (s.segments[k]'k.isLt).header)
        (flagCode (s.segments[k]'k.isLt).poisoned)
      (s.segments[k]'k.isLt).ownerBytes ((s.segments[k]'k.isLt).eraseCount.getD 0xFFFFFF) (s.segments[k]'k.isLt).bytesUsed
      (releaseBytes (s.segments[k]'k.isLt).release) := by
  unfold State.dataDescriptor segmentBytes
  simp only [List.append_assoc, List.cons_append, List.nil_append]

theorem anchorDescriptor_eq (s : State) (a : AnchorSeg) : s.anchorDescriptor a
    = segmentBytes a.val 6 0xFF (if s.ledger.current == some a then 2 else 0) (0xFF :: (be32 0 ++ (be32 0 ++ be32 0)))
      (s.ledger.anchorErases[a]'a.isLt) (if s.ledger.current == some a then 32 * s.ledger.nextFree else 0) (releaseBytes none) := by
  unfold State.anchorDescriptor segmentBytes
  simp only [List.append_assoc, List.cons_append, List.nil_append]

/-- What the fields of a segment descriptor read; its owner part has 13 bytes and its release part 5. -/
structure ShowsSegment (d : List Byte) (index : Nat) (l h f b : Byte) (e q r erases used : Nat) (c : Byte) (n : Nat) : Prop where
  length : d.length = 28
  index : fieldAt d 0 2 = index % 2 ^ 16
  location : fieldAt d 2 1 = l.toNat
  header : fieldAt d 3 1 = h.toNat
  flag : fieldAt d 4 1 = f.toNat
  owner : fieldAt d 5 1 = b.toNat
  epoch : fieldAt d 6 4 = e % 2 ^ 32
  first : fieldAt d 10 4 = q % 2 ^ 32
  last : fieldAt d 14 4 = r % 2 ^ 32
  owned : fieldAt d 6 12 = fromBE (be32 e ++ (be32 q ++ be32 r))
  erases : fieldAt d 18 3 = erases % 2 ^ 24
  used : fieldAt d 21 2 = used % 2 ^ 16
  kind : fieldAt d 23 1 = c.toNat
  value : fieldAt d 24 4 = n % 2 ^ 32
  release : fieldAt d 23 5 = fromBE (c :: be32 n)

theorem segmentBytes_shows (index : Nat) (l h f b : Byte) (e q r erases used : Nat) (c : Byte) (n : Nat) :
    ShowsSegment (segmentBytes index l h f (b :: (be32 e ++ (be32 q ++ be32 r))) erases used (c :: be32 n))
      index l h f b e q r erases used c n := by
  unfold segmentBytes
  refine ⟨by simp [be16, be24, be32], ?_, ?_, ?_, ?_, ?_, ?_, ?_, ?_, ?owned, ?_, ?_, ?_, ?_, ?release⟩
  all_goals
    simp only [List.append_assoc, List.cons_append, fieldAt_byte_skip, fieldAt_be16_skip, fieldAt_be24_skip, fieldAt_be32_skip,
      fieldAt_byte, fieldAt_be16, fieldAt_be24, fieldAt_be32, fieldAt_last]
  all_goals rfl

theorem showsData (s : State) (k : DataSeg) {b : Byte} {e q r : Nat}
    (ho : (s.segments[k]'k.isLt).ownerBytes = b :: (be32 e ++ (be32 q ++ be32 r)))
    {c : Byte} {n : Nat} (hr : releaseBytes (s.segments[k]'k.isLt).release = c :: be32 n) :
    ShowsSegment (s.segmentDescriptor (k.val + 2)) k.index (locationCode (s.segments[k]'k.isLt).location)
        (headerCode (s.segments[k]'k.isLt).header)
      (flagCode (s.segments[k]'k.isLt).poisoned) b e q r ((s.segments[k]'k.isLt).eraseCount.getD 0xFFFFFF)
          (s.segments[k]'k.isLt).bytesUsed c n := by
  rw [segmentDescriptor_data, dataDescriptor_eq, ho, hr]
  exact segmentBytes_shows _ _ _ _ _ _ _ _ _ _ _ _

theorem showsAnchor (s : State) (a : AnchorSeg) : ShowsSegment (s.segmentDescriptor a.val) a.val 6 0xFF
    (if s.ledger.current == some a then 2 else 0) 0xFF 0 0 0 (s.ledger.anchorErases[a]'a.isLt)
    (if s.ledger.current == some a then 32 * s.ledger.nextFree else 0) 0 0 := by
  rw [segmentDescriptor_anchor, anchorDescriptor_eq]
  exact segmentBytes_shows _ _ _ _ _ _ _ _ _ _ _ _

/-- The clause of O22 on the descriptor of a data segment. -/
theorem segmentDescriptor_fields (s : State) (k : DataSeg) : (s.segmentDescriptor (k.val + 2)).length = 28
      ∧ fieldAt (s.segmentDescriptor (k.val + 2)) 0 2 = k.val + 2
      ∧ fieldAt (s.segmentDescriptor (k.val + 2)) 2 1 = (match (s.segments[k]'k.isLt).location with
          | .pool => 0 | .chain => 1 | .release => 2 | .reclaim => 3 | .erasing => 4 | .retired => 5)
      ∧ fieldAt (s.segmentDescriptor (k.val + 2)) 3 1 = (match (s.segments[k]'k.isLt).header with
          | .free => 0 | .opened => 1 | .sealed => 2 | .retirePending => 3 | .retired => 4 | .invalid => 5 | .blank => 6)
      ∧ fieldAt (s.segmentDescriptor (k.val + 2)) 4 1 = (if (s.segments[k]'k.isLt).poisoned = true then 1 else 0)
      ∧ (∀ o : StreamId, (s.segments[k]'k.isLt).owner = some o
          → ((s.segments[k]'k.isLt).header = .opened ∨ (s.segments[k]'k.isLt).header = .sealed
            ∨ (s.segments[k]'k.isLt).header = .retirePending) →
          fieldAt (s.segmentDescriptor (k.val + 2)) 5 1 = o.val
          ∧ fieldAt (s.segmentDescriptor (k.val + 2)) 6 4 = (s.segments[k]'k.isLt).epoch % 2 ^ 32
          ∧ fieldAt (s.segmentDescriptor (k.val + 2)) 10 4 = (s.segments[k]'k.isLt).first % 2 ^ 32
          ∧ fieldAt (s.segmentDescriptor (k.val + 2)) 14 4 = (s.segments[k]'k.isLt).last % 2 ^ 32)
      ∧ ((s.segments[k]'k.isLt).header ≠ .opened → (s.segments[k]'k.isLt).header ≠ .sealed
          → (s.segments[k]'k.isLt).header ≠ .retirePending →
          fieldAt (s.segmentDescriptor (k.val + 2)) 5 1 = 0xFF ∧ fieldAt (s.segmentDescriptor (k.val + 2)) 6 12 = 0)
      ∧ (∀ x, (s.segments[k]'k.isLt).eraseCount = some x → fieldAt (s.segmentDescriptor (k.val + 2)) 18 3 = x % 2 ^ 24)
      ∧ ((s.segments[k]'k.isLt).eraseCount = none → fieldAt (s.segmentDescriptor (k.val + 2)) 18 3 = 0xFFFFFF)
      ∧ fieldAt (s.segmentDescriptor (k.val + 2)) 21 2 = (s.segments[k]'k.isLt).bytesUsed % 2 ^ 16
      ∧ ((s.segments[k]'k.isLt).release = none → fieldAt (s.segmentDescriptor (k.val + 2)) 23 5 = 0)
      ∧ (∀ q, (s.segments[k]'k.isLt).release = some (.frontier q) → fieldAt (s.segmentDescriptor (k.val + 2)) 23 1 = 1
          ∧ fieldAt (s.segmentDescriptor (k.val + 2)) 24 4 = q % 2 ^ 32)
      ∧ ∀ e, (s.segments[k]'k.isLt).release = some (.image e) → fieldAt (s.segmentDescriptor (k.val + 2)) 23 1 = 2
          ∧ fieldAt (s.segmentDescriptor (k.val + 2)) 24 4 = e % 2 ^ 32 := by
  obtain ⟨b, e, q, r, ho⟩ := ownerBytes_form (s.segments[k]'k.isLt)
  obtain ⟨c, n, hr⟩ := releaseBytes_form (s.segments[k]'k.isLt).release
  have hd := showsData s k ho hr
  refine ⟨hd.length, ?index, ?location, ?header, ?flag, fun o hso hh => ?owned, fun h1 h2 h3 => ?absent, fun x hx => ?erases,
    fun hx => ?unknown, hd.used, fun h => ?none, fun q h => ?frontier, fun e h => ?image⟩
  case index =>
    rw [hd.index]
    have := k.isLt
    exact Nat.mod_eq_of_lt (show k.val + 2 < 2 ^ 16 by omega)
  case location =>
    rw [hd.location]
    cases (s.segments[k]'k.isLt).location <;> rfl
  case header =>
    rw [hd.header]
    cases (s.segments[k]'k.isLt).header <;> rfl
  case flag =>
    rw [hd.flag]
    cases (s.segments[k]'k.isLt).poisoned <;> rfl
  case owned =>
    have hd := showsData s k (ownerBytes_owned hso ((owned_iff _).2 hh)) hr
    refine ⟨?_, hd.epoch, hd.first, hd.last⟩
    rw [hd.owner, toNat_byteOf]
    exact Nat.mod_eq_of_lt (Nat.lt_trans o.isLt (by decide))
  case absent =>
    have hh : (s.segments[k]'k.isLt).header.owned = false := by
      rw [Bool.eq_false_iff, Ne, owned_iff]
      exact fun h => h.elim h1 (·.elim h2 h3)
    have hd := showsData s k (ownerBytes_absent hh) hr
    exact ⟨hd.owner, hd.owned⟩
  case erases => rw [hd.erases, hx, Option.getD_some]
  case unknown =>
    rw [hd.erases, hx]
    rfl
  case none => exact (showsData s k ho (by rw [h]; rfl)).release
  case frontier =>
    have hd := showsData s k ho (c := 1) (n := q) (by rw [h]; rfl)
    exact ⟨hd.kind, hd.value⟩
  case image =>
    have hd := showsData s k ho (c := 2) (n := e) (by rw [h]; rfl)
    exact ⟨hd.kind, hd.value⟩

/-- The clause of O22 on the descriptor of an anchor segment. -/
theorem anchorDescriptor_fields (s : State) (a : AnchorSeg) : (s.segmentDescriptor a.val).length = 28
      ∧ fieldAt (s.segmentDescriptor a.val) 0 2 = a.val ∧ fieldAt (s.segmentDescriptor a.val) 2 1 = 6
      ∧ fieldAt (s.segmentDescriptor a.val) 3 1 = 0xFF ∧ fieldAt (s.segmentDescriptor a.val) 5 1 = 0xFF
      ∧ fieldAt (s.segmentDescriptor a.val) 6 12 = 0
      ∧ fieldAt (s.segmentDescriptor a.val) 18 3 = (s.ledger.anchorErases[a]'a.isLt) % 2 ^ 24
      ∧ fieldAt (s.segmentDescriptor a.val) 23 5 = 0
      ∧ (s.ledger.current = some a → fieldAt (s.segmentDescriptor a.val) 4 1 = 2
          ∧ fieldAt (s.segmentDescriptor a.val) 21 2 = 32 * s.ledger.nextFree % 2 ^ 16)
      ∧ (s.ledger.current ≠ some a → fieldAt (s.segmentDescriptor a.val) 4 1 = 0
          ∧ fieldAt (s.segmentDescriptor a.val) 21 2 = 0) := by
  have hd := showsAnchor s a
  refine ⟨hd.length, ?index, hd.location, hd.header, hd.owner, hd.owned, hd.erases, hd.release, fun h => ?current, fun h => ?other⟩
  case index =>
    rw [hd.index]
    exact Nat.mod_eq_of_lt (Nat.lt_trans a.isLt (by decide))
  case current =>
    rw [hd.flag, hd.used, if_pos (beq_iff_eq.2 h), if_pos (beq_iff_eq.2 h)]
    exact ⟨rfl, rfl⟩
  case other =>
    have hb : ¬ (s.ledger.current == some a) = true := fun hb => h (beq_iff_eq.1 hb)
    rw [hd.flag, hd.used, if_neg hb, if_neg hb]
    exact ⟨rfl, rfl⟩

theorem segmentDescriptor_length (s : State) {k : Nat} (hk : k < 512) : (s.segmentDescriptor k).length = 28 := by
  rcases Nat.lt_or_ge k 2 with h | h
  · exact (anchorDescriptor_fields s ⟨k, h⟩).1
  · have hd := (segmentDescriptor_fields s ⟨k - 2, by omega⟩).1
    rwa [show k - 2 + 2 = k by omega] at hd

/-! ### DEVICE INFO (R106) -/

theorem segmentsAt_length_le (s : State) (l : Location) : (s.segmentsAt l).length ≤ 510 :=
  Nat.le_trans (List.length_filter_le _ _) (Nat.le_of_eq List.length_finRange)

theorem mem_segmentsAt {k : DataSeg} {l : Location} : k ∈ s.segmentsAt l ↔ (s.segments[k]'k.isLt).location = l := by
  unfold State.segmentsAt
  rw [List.mem_filter, beq_iff_eq]
  exact and_iff_right (List.mem_finRange k)

/-- The segment index that DEVICE INFO shows as under erasure, FFFFh where there is none (R106). -/
def State.erasingIndex (s : State) : Nat :=
  match s.segmentsAt .erasing with
  | k :: _ => k.index
  | [] => 0xFFFF

theorem erasingIndex_of {k : DataSeg} (hk : (s.segments[k]'k.isLt).location = .erasing)
    (h : ∀ j : DataSeg, (s.segments[j]'j.isLt).location = .erasing → j = k) : s.erasingIndex = k.index := by
  unfold State.erasingIndex
  split
  · rename_i j l hl
    rw [h j (mem_segmentsAt.1 (by rw [hl]; exact List.mem_cons_self))]
  · rename_i hl
    have hm := mem_segmentsAt.2 hk
    rw [hl] at hm
    cases hm

theorem erasingIndex_none (h : ∀ k : DataSeg, (s.segments[k]'k.isLt).location ≠ .erasing) : s.erasingIndex = 0xFFFF := by
  unfold State.erasingIndex
  split
  · rename_i j l hl
    exact absurd (mem_segmentsAt.1 (by rw [hl]; exact List.mem_cons_self)) (h j)
  · rfl

/-- The anchor segment that DEVICE INFO shows as current (R106). -/
def Ledger.currentIndex (l : Ledger) : Nat :=
  match l.current with
  | some a => a.val
  | none => 0

theorem deviceInfo_eq (s : State) : s.deviceInfo = be16 s.pool.length ++ (signedBytes s.available ++ (be16 s.reclaim.length
    ++ (be16 (s.segmentsAt .release).length ++ (be16 (s.segmentsAt .retired).length ++ (be16 s.erasingIndex
    ++ (engineCode s.engine.state :: jobCode s.engine.job :: s.deviceFlags :: byteOf s.ledger.currentIndex
    :: byteOf s.ledger.nextFree :: (be32 s.ledger.generation.toNat ++ byteOf s.lowWater :: (be16 s.stagedBytes
    ++ [byteOf s.staging.length, byteOf s.totalReserved])))))))) := by
  unfold State.deviceInfo State.erasingIndex Ledger.currentIndex
  cases s.segmentsAt .erasing <;> cases s.ledger.current
  all_goals simp only [List.append_assoc, List.cons_append, List.nil_append]

/-- The bits of the flags byte (R106). -/
theorem flagBits : ∀ a b c d e f : Bool, ∀ w : Byte, w = ((if a then (0x01 : Byte) else 0) ||| (if b then 0x02 else 0)
      ||| (if c then 0x04 else 0) ||| (if d then 0x08 else 0) ||| (if e then 0x10 else 0) ||| (if f then 0x20 else 0)) →
    w.getLsbD 0 = a ∧ w.getLsbD 1 = b ∧ w.getLsbD 2 = c ∧ w.getLsbD 3 = d ∧ w.getLsbD 4 = e ∧ w.getLsbD 5 = f
      ∧ w.getLsbD 6 = false ∧ w.getLsbD 7 = false := by
  rintro a b c d e f _ rfl
  revert a b c d e f
  decide

theorem lowestNote_isSome (l : Ledger) : l.lowestNote.isSome = true ↔ ∃ i : StreamId, (l.pendingNotes[i]'i.isLt) = true := by
  unfold Ledger.lowestNote
  rw [List.find?_isSome]
  exact ⟨fun ⟨i, _, hi⟩ => ⟨i, hi⟩, fun ⟨i, hi⟩ => ⟨i, List.mem_finRange i, hi⟩⟩

/-- A signed field shows its number where 16 bits hold it (R106). -/
theorem fieldAt_signed (n : Int) (d : List Byte) (hl : -(2 ^ 15 : Int) ≤ n) (hu : n < 2 ^ 15) :
    (BitVec.ofNat 16 (fieldAt (signedBytes n ++ d) 0 2)).toInt = n := by
  unfold signedBytes
  rw [fieldAt_be16, Nat.mod_eq_of_lt (BitVec.isLt _), BitVec.ofNat_toNat, BitVec.setWidth_eq, BitVec.toInt_ofInt]
  exact Int.bmod_eq_of_le (by simpa using hl) (by simpa using hu)

theorem fieldAt_signed_skip (x : Int) (d : List Byte) (o n : Nat) : fieldAt (signedBytes x ++ d) (o + 2) n = fieldAt d o n := rfl

/-- The clause of O22 on DEVICE INFO. -/
theorem deviceInfo_fields (s : State) : s.deviceInfo.length = 26
      ∧ fieldAt s.deviceInfo 0 2 = s.pool.length % 2 ^ 16
      ∧ (-(2 ^ 15 : Int) ≤ s.available → s.available < 2 ^ 15 →
          (BitVec.ofNat 16 (fieldAt s.deviceInfo 2 2)).toInt = s.available)
      ∧ fieldAt s.deviceInfo 4 2 = s.reclaim.length % 2 ^ 16
      ∧ fieldAt s.deviceInfo 6 2 = ((List.finRange 510).filter fun k => (s.segments[k]'k.isLt).location == .release).length
      ∧ fieldAt s.deviceInfo 8 2 = ((List.finRange 510).filter fun k => (s.segments[k]'k.isLt).location == .retired).length
      ∧ (∀ k : DataSeg, (s.segments[k]'k.isLt).location = .erasing → (∀ j : DataSeg, (s.segments[j]'j.isLt).location = .erasing → j = k) →
          fieldAt s.deviceInfo 10 2 = k.val + 2)
      ∧ ((∀ k : DataSeg, (s.segments[k]'k.isLt).location ≠ .erasing) → fieldAt s.deviceInfo 10 2 = 0xFFFF)
      ∧ fieldAt s.deviceInfo 12 1
        = (match s.engine.state with | .idle => 0 | .running => 1 | .suspendPending => 2 | .suspended => 3)
      ∧ fieldAt s.deviceInfo 13 1 = (match s.engine.job with
          | none => 0 | some (.ledger _) => 1 | some (.commit _) => 2 | some (.reclaim _ _) => 3 | some (.vault _) => 4
          | some (.format _ _) => 5)
      ∧ (∀ f : Byte, f.toNat = fieldAt s.deviceInfo 14 1 → f.getLsbD 0 = s.engine.preempted.isSome
          ∧ f.getLsbD 1 = s.engine.resumeLock ∧ f.getLsbD 2 = s.ledger.imageNeeded
          ∧ (f.getLsbD 3 = true ↔ ∃ i : StreamId, (s.ledger.pendingNotes[i]'i.isLt) = true)
          ∧ f.getLsbD 4 = s.sync.isSome ∧ f.getLsbD 5 = s.ledger.halted ∧ f.getLsbD 6 = false ∧ f.getLsbD 7 = false)
      ∧ (∀ a, s.ledger.current = some a → fieldAt s.deviceInfo 15 1 = a.val)
      ∧ fieldAt s.deviceInfo 16 1 = s.ledger.nextFree % 2 ^ 8
      ∧ fieldAt s.deviceInfo 17 4 = s.ledger.generation.toNat
      ∧ fieldAt s.deviceInfo 21 1 = s.lowWater % 2 ^ 8
      ∧ fieldAt s.deviceInfo 22 2 = (s.staging.map fun e => footprint e.payload.length).sum % 2 ^ 16
      ∧ fieldAt s.deviceInfo 24 1 = s.staging.length % 2 ^ 8
      ∧ fieldAt s.deviceInfo 25 1 = (s.streams.toList.map fun t => t.reserved).sum % 2 ^ 8 := by
  have hle := segmentsAt_length_le s
  rw [deviceInfo_eq]
  refine ⟨by simp [be16, be32, signedBytes], ?_, fun hl hu => ?signed, ?_, ?release, ?retired, fun k hk h => ?erasing,
    fun h => ?calm, ?engine, ?job, fun f hf => ?flags, fun a ha => ?current, ?_, ?generation, ?_, ?staged, ?_, ?reserved⟩
  case signed => exact fieldAt_signed _ _ hl hu
  all_goals
    simp only [fieldAt_byte_skip, fieldAt_be16_skip, fieldAt_be32_skip, fieldAt_signed_skip, fieldAt_byte, fieldAt_be16,
      fieldAt_be32, toNat_byteOf] at *
  case release => exact Nat.mod_eq_of_lt (Nat.lt_of_le_of_lt (hle .release) (by decide))
  case retired => exact Nat.mod_eq_of_lt (Nat.lt_of_le_of_lt (hle .retired) (by decide))
  case erasing =>
    rw [erasingIndex_of hk h]
    have := k.isLt
    exact Nat.mod_eq_of_lt (show k.val + 2 < 2 ^ 16 by omega)
  case calm =>
    rw [erasingIndex_none h]
    rfl
  case engine => cases s.engine.state <;> rfl
  case job => rcases s.engine.job with _ | _ | _ | _ | _ | _ <;> rfl
  case flags =>
    obtain ⟨h0, h1, h2, h3, h4, h5, h6, h7⟩ := flagBits _ _ _ _ _ _ f (BitVec.eq_of_toNat_eq hf)
    exact ⟨h0, h1, h2, by rw [h3, lowestNote_isSome], h4, h5, h6, h7⟩
  case current =>
    unfold Ledger.currentIndex
    rw [ha]
    exact Nat.mod_eq_of_lt (Nat.lt_trans a.isLt (by decide))
  case generation => exact Nat.mod_eq_of_lt s.ledger.generation.isLt
  case staged => rfl
  case reserved => rfl

/-! ### The frames that show them (R4, R9) -/

/-- What the frame of an output command shifts out on a serving device. -/
theorem exec_output_sout (h : Serving s) {c : OutputCommand} {n : Nat} (hn : c.argBytes + 1 ≤ n) :
    ∃ t, exec (c.row n) s = .next t ∧ t.port.sout = (s.beginFrame.formVerdict c).port.frameOutput n := by
  refine ⟨_, (exec_outputRow c n s).trans (outputFrame_serving h hn), ?_⟩
  unfold State.outputEnd
  rw [closeFrame_sout]
  split
  · rw [outputAct_port]
  · rfl

/-- A frame of an information command that is just long enough for its data. -/
theorem exec_output_whole (h : Serving s) (hi : s.port.frameState = .idle) {c : OutputCommand} {d : List Byte} {v : Snapshot}
    (hs : s.snapshotOf c = v) (hc : v.cyclic = false) (hv : v.verdict = .done) (hd : v.data = d) {n : Nat}
    (hn : n = positionOfVerdict c + 1 + d.length) : ∃ t, exec (c.row n) s = .next t
      ∧ t.port.sout = [s.statusByte, s.port.outcome.byte] ++ List.replicate (positionOfVerdict c - 2) 0 ++ 0 :: d := by
  subst hs
  subst hd
  have hp := two_le_positionOfVerdict c
  have ha : c.argBytes + 1 ≤ n := by
    have : c.argBytes + 1 ≤ positionOfVerdict c := Nat.le_max_right _ _
    omega
  obtain ⟨t, ht, hout⟩ := exec_output_sout h ha
  refine ⟨t, ht, ?_⟩
  rw [hout, formVerdict_frameOutput hi hc, answerBytes_eq, shownBytes_whole _ _ _ hp hn, hv]
  rfl

/-- A frame of a command without arguments that goes on beyond its data. -/
theorem exec_output_padded (h : Serving s) (hi : s.port.frameState = .idle) {c : OutputCommand} {d : List Byte} {v : Snapshot}
    (hs : s.snapshotOf c = v) (hc : v.cyclic = false) (hv : v.verdict = .done) (hd : v.data = d) (hpos : positionOfVerdict c = 2)
    {n : Nat} (hn : 3 + d.length ≤ n) : ∃ t, exec (c.row n) s = .next t
      ∧ t.port.sout = [s.statusByte, s.port.outcome.byte, 0] ++ d ++ List.replicate (n - (3 + d.length)) 0 := by
  subst hs
  subst hd
  have ha : c.argBytes + 1 ≤ n := by
    have : c.argBytes + 1 ≤ positionOfVerdict c := Nat.le_max_right _ _
    omega
  obtain ⟨t, ht, hout⟩ := exec_output_sout h ha
  refine ⟨t, ht, ?_⟩
  rw [hout, formVerdict_frameOutput hi hc, answerBytes_eq, hpos, shownBytes_padded _ _ _ _ _ hn, hv]
  rfl

theorem pageFrom_length (s : State) (p : Fin 4) {o : Nat} (ho : o < 128) : (s.pageFrom p o).length = 128 := by
  unfold State.pageFrom
  rw [List.length_append, List.length_drop, List.length_take, Vector.length_toList]
  omega

/-- The page as VAULT READ cycles through it from an offset (R181). -/
theorem pageFrom_get (s : State) (p : Fin 4) {o : Nat} (ho : o < 128) {m : Nat} (hm : m < 128) {q : Fin 128}
    (hq : (o + m) % 128 = q.val) : (s.pageFrom p o).getD m 0 = (s.vault[p]'p.isLt)[q] := by
  have hlen : (s.vault[p]'p.isLt).toList.length = 128 := Vector.length_toList
  have hget : ∀ j : Nat, j = q.val → (s.vault[p]'p.isLt).toList[j]? = some (s.vault[p]'p.isLt)[q] := by
    rintro _ rfl
    rw [Vector.getElem?_toList, Vector.getElem?_eq_getElem q.isLt]
    rfl
  unfold State.pageFrom
  rw [List.getD_eq_getElem?_getD]
  rcases Nat.lt_or_ge m (128 - o) with h | h
  · rw [List.getElem?_append_left (by rw [List.length_drop, hlen]; exact h), List.getElem?_drop, hget _ (by omega)]
    rfl
  · rw [List.getElem?_append_right (by rw [List.length_drop, hlen]; exact h), List.length_drop, hlen,
      List.getElem?_take_of_lt (by omega), hget _ (by omega)]
    rfl

/-- The frame of VAULT READ cycles through its page (R181). -/
theorem exec_vaultRead_sout (h : Serving s) {b o : Byte} {p : Fin 4} {n : Nat} (hb : b.toNat = p.val) (ho : o.toNat < 128)
    (hv : s.engine.vaultRuns = false) (hn : 3 ≤ n) : ∃ t, exec (.vaultRead b o n) s = .next t ∧ t.port.sout.length = n
      ∧ ∀ (j : Nat) (q : Fin 128), 4 + j < n → (o.toNat + j) % 128 = q.val → t.port.sout[4 + j]? = some (s.vault[p]'p.isLt)[q] := by
  obtain ⟨t, ht, hout⟩ := exec_output_sout h (c := .vaultRead b o) hn
  refine ⟨t, ht, by rw [hout, Port.frameOutput, List.length_map, List.length_range], fun j q hj hq => ?_⟩
  have hs : (s.beginFrame.formVerdict (.vaultRead b o)).port.snapshot
      = some { Snapshot.answer (.vaultRead b o) (s.pageFrom p o.toNat) with cyclic := true } := by
    rw [← snapshotOf_vaultRead h.active hb ho hv, ← snapshotOf_beginFrame]
    rfl
  have hpos : positionOfVerdict (.vaultRead b o) = 3 := rfl
  rw [hout, Port.frameOutput, List.getElem?_map, List.getElem?_range hj]
  refine congrArg some ?_
  simp only [Port.outByte, hs, Snapshot.answer, hpos]
  rw [if_neg (by omega), if_neg (by omega), if_neg (by omega), if_neg (by omega), show 4 + j - 3 - 1 = j by omega]
  unfold Snapshot.dataByte
  rw [if_pos rfl, if_pos rfl]
  show (s.pageFrom p o.toNat).getD (j % (s.pageFrom p o.toNat).length) 0 = _
  rw [pageFrom_length s p ho]
  exact pageFrom_get s p ho (Nat.mod_lt _ (by decide)) (by omega)

/-- The two bytes of an event word. -/
theorem be16_word (w : Word16) : be16 w.toNat = [w.extractLsb' 8 8, w.extractLsb' 0 8] := by
  unfold be16 byteOf
  refine congrArg₂ (fun a b => [a, b]) (BitVec.eq_of_toNat_eq ?_) (BitVec.eq_of_toNat_eq ?_)
  · rw [BitVec.toNat_ofNat, BitVec.extractLsb'_toNat, Nat.shiftRight_eq_div_pow]
  · rw [BitVec.toNat_ofNat, BitVec.extractLsb'_toNat, Nat.shiftRight_zero]

/-- Settles O22: the descriptors field by field, and the frames that show them. -/
theorem answersOfInformationCommands : Obligations.AnswersOfInformationCommands := by
  refine ⟨fun s h hi => ⟨?events, ?guard, fun b m i hb => ?stream, fun k hk => ?segment, ?device, fun b o p n hb ho hv hn => ?vault,
    ?identify, ?descriptor⟩, streamDescriptor_fields, segmentDescriptor_fields, anchorDescriptor_fields, deviceInfo_fields, rfl, rfl⟩
  case events =>
    obtain ⟨t, ht, hout⟩ := exec_output_padded h hi (c := .readEvents) (snapshotOf_active h.active _) rfl rfl
      (show _ = be16 s.eventLatch.toNat ++ be16 s.eventEnable.toNat from rfl) rfl (n := 8) (Nat.le_add_right 7 1)
    refine ⟨t, ht, ?_⟩
    rw [hout, be16_word, be16_word]
    rfl
  case guard =>
    exact exec_output_whole h hi (c := .readGuard) (snapshotOf_active h.active _) rfl rfl
      (show _ = s.guardBytes from rfl) (n := 8) rfl
  case stream =>
    obtain ⟨t, ht, hout⟩ := exec_output_whole h hi (snapshotOf_streamInfo h.active m hb) rfl rfl
      (show _ = s.streamDescriptor i from rfl) (n := 70)
      (by rw [(streamDescriptor_fields s i).1]; rfl)
    refine ⟨t, s.streamDescriptor i, ht, ?_, rfl⟩
    rw [hout]
    generalize s.streamDescriptor i = d
    rfl
  case segment =>
    obtain ⟨t, ht, hout⟩ := exec_output_whole h hi (snapshotOf_segmentInfo h.active hk) rfl rfl
      (show _ = s.segmentDescriptor k.toNat from rfl) (n := 32) (by rw [segmentDescriptor_length s hk]; rfl)
    exact ⟨t, ht, hout⟩
  case device =>
    obtain ⟨t, ht, hout⟩ := exec_output_whole h hi (c := .deviceInfo) (snapshotOf_active h.active _) rfl rfl
      (show _ = s.deviceInfo from rfl) (n := 29) (by rw [(deviceInfo_fields s).1]; rfl)
    exact ⟨t, ht, hout⟩
  case vault => exact exec_vaultRead_sout h hb ho hv hn
  case identify =>
    obtain ⟨t, ht, hout⟩ := exec_output_whole h hi (c := .identify) (snapshotOf_active h.active _) rfl rfl
      (show _ = identityBytes from rfl) (n := 15) rfl
    refine ⟨t, be32 (Config.uniqueId.toNat / 4294967296) ++ be32 Config.uniqueId.toNat, ht, hout, rfl, ?_⟩
    rw [fieldAt_low64, Nat.mod_eq_of_lt Config.uniqueId.isLt]
  case descriptor =>
    exact exec_output_padded h hi (c := .descriptor) (snapshotOf_active h.active _) rfl rfl
      (show _ = descriptorBytes from rfl) rfl (n := 36) (by decide)

end Sys2Proof.Machine
end

section
/-! FETCH: its verdict by locator form, what it delivers byte by byte, and how its frame's end moves the cursor (R70 to R79). Settles
O37. -/

namespace Sys2Proof.Machine

-- One proof after the other: the stacks of proofs elaborated side by side come near the memory that a check may take.
set_option Elab.async false

open Sys2Proof

variable {s t : State}

/-! ### Locators (R70, R72, R73) -/

theorem signed16_toNat {w : Word32} : signed16 w.toNat = (w.setWidth 16).toInt := by
  unfold signed16
  rw [BitVec.ofNat_toNat]

/-- A legal form and operand make a locator, which starts where the obligation's reading of R72 says. -/
theorem locatorOf_legal {form : Byte} {w : Word32} (h : LocatorLegal form w) : ∃ l, locatorOf form w = some l
    ∧ (l = .cursor ↔ form = 0) ∧ ∀ (r : Stream) (q : Int), r.startsAt form w q → l.start r = some q := by
  rcases h with ⟨rfl, rfl⟩ | rfl | ⟨hlow, hhigh, hw⟩
  · exact ⟨.cursor, rfl, by simp, fun r q hq => by rw [hq.1 rfl]; rfl⟩
  · exact ⟨.absolute w.toNat, rfl, by simp, fun r q hq => by rw [hq.2.1 rfl]; rfl⟩
  · have hform : form = 2 ∨ form = 3 ∨ form = 4 ∨ form = 5 := by
      have hval : ∀ n : Nat, n < 256 → form.toNat = n → form = BitVec.ofNat 8 n := fun n hn h =>
        BitVec.eq_of_toNat_eq (by rw [h, BitVec.toNat_ofNat, Nat.mod_eq_of_lt hn])
      rcases (by omega : form.toNat = 2 ∨ form.toNat = 3 ∨ form.toNat = 4 ∨ form.toNat = 5) with h | h | h | h
      · exact .inl (hval 2 (by decide) h)
      · exact .inr (.inl (hval 3 (by decide) h))
      · exact .inr (.inr (.inl (hval 4 (by decide) h)))
      · exact .inr (.inr (.inr (hval 5 (by decide) h)))
    unfold locatorOf
    simp only [if_pos hw]
    rcases hform with rfl | rfl | rfl | rfl
    · exact ⟨_, rfl, by simp, fun r q ⟨_, _, hq, _⟩ => by rw [hq rfl, ← signed16_toNat]; rfl⟩
    · refine ⟨_, rfl, by simp, fun r q hq => ?_⟩
      obtain ⟨-, -, -, hmark, -⟩ := hq
      obtain ⟨m, ms, hm, rfl⟩ := hmark rfl
      rw [← signed16_toNat, Locator.start, hm]
      rfl
    · exact ⟨_, rfl, by simp, fun r q ⟨_, _, _, _, hq, _⟩ => by rw [hq rfl, ← signed16_toNat]; rfl⟩
    · exact ⟨_, rfl, by simp, fun r q ⟨_, _, _, _, _, hq⟩ => by rw [hq rfl, ← signed16_toNat]; rfl⟩

theorem locatorOf_illegal {form : Byte} {w : Word32} (h : ¬ LocatorLegal form w) : locatorOf form w = none := by
  unfold LocatorLegal at h
  unfold locatorOf
  by_cases h0 : form = 0
  · rw [if_pos h0, if_neg fun hw => h (.inl ⟨h0, hw⟩)]
  · have h1 : ¬ form = 1 := fun h1 => h (.inr (.inl h1))
    rw [if_neg h0, if_neg h1]
    split
    · rename_i hw
      have hno : ∀ x : Byte, 2 ≤ x.toNat → x.toNat ≤ 5 → ¬ form = x := fun x hx hx' hf => h (.inr (.inr ⟨hf ▸ hx, hf ▸ hx', hw⟩))
      rw [if_neg (hno 2 (by decide) (by decide)), if_neg (hno 3 (by decide) (by decide)), if_neg (hno 4 (by decide) (by decide)),
        if_neg (hno 5 (by decide) (by decide))]
    · rfl

/-! ### The verdict (R71 to R75) -/

/-- What a FETCH that is served shows (R74, R75, R77, R78). -/
def State.fetched (s : State) (c : OutputCommand) (i : StreamId) (q m : Nat) : Snapshot :=
  { command := c, verdict := .done, data := (s.delivery i q m).flatten ++ endMarker i (q + m), cyclic := false, start := q
    recordEnds := endsFrom 0 (s.delivery i q m), notices := 0 }

section Verdict

variable {b form c : Byte} {w : Word32} {i : StreamId} {l : Locator}

theorem snapshotOf_fetch (hp : s.power = .active) (b form c : Byte) (w : Word32) :
    s.snapshotOf (.fetch b form w c) = s.fetchSnapshot (.fetch b form w c) b form w c := by
  rw [snapshotOf_active hp]
  rfl

theorem fetch_noStream (hp : s.power = .active) (hb : 8 ≤ b.toNat) :
    s.snapshotOf (.fetch b form w c) = Snapshot.refusal (.fetch b form w c) .noStream := by
  rw [snapshotOf_fetch hp, State.fetchSnapshot, streamOf_eq_none hb]

theorem fetch_badArgument (hp : s.power = .active) (hb : b.toNat < 8)
    (h : ¬ LocatorLegal form w ∨ c.toNat = 0 ∨ 16 < c.toNat) :
    s.snapshotOf (.fetch b form w c) = Snapshot.refusal (.fetch b form w c) .badArgument := by
  rw [snapshotOf_fetch hp, State.fetchSnapshot, streamOf_of_toNat (i := ⟨b.toNat, hb⟩) rfl]
  rcases h with h | h
  · simp only [locatorOf_illegal h]
  · cases locatorOf form w with
    | none => rfl
    | some l => exact if_pos h

/-- Past the checks of form the verdict of a FETCH depends on where its locator starts. -/
theorem fetch_legal (hp : s.power = .active) (hb : b.toNat = i.val) (hl : locatorOf form w = some l) (h1 : 1 ≤ c.toNat)
    (h16 : c.toNat ≤ 16) : s.snapshotOf (.fetch b form w c) = if s.engine.runs then Snapshot.refusal (.fetch b form w c) .busy else
      match l.start (s.streams[i]'i.isLt) with
      | none => Snapshot.refusal (.fetch b form w c) .markEmpty
      | some start =>
        if l.resolve (s.streams[i]'i.isLt) start = .done then s.fetched (.fetch b form w c) i start.toNat
          (min c.toNat ((s.streams[i]'i.isLt).lastCommitted + 1 - start.toNat))
        else Snapshot.refusal (.fetch b form w c) (l.resolve (s.streams[i]'i.isLt) start) := by
  rw [snapshotOf_fetch hp, State.fetchSnapshot, streamOf_of_toNat hb]
  simp only [hl]
  rw [if_neg (by omega)]
  rfl

theorem fetch_busy (hp : s.power = .active) (hb : b.toNat = i.val) (hl : LocatorLegal form w) (h1 : 1 ≤ c.toNat)
    (h16 : c.toNat ≤ 16) (hr : s.engine.runs = true) :
    s.snapshotOf (.fetch b form w c) = Snapshot.refusal (.fetch b form w c) .busy := by
  obtain ⟨l, hl, -, -⟩ := locatorOf_legal hl
  rw [fetch_legal hp hb hl h1 h16, if_pos hr]

theorem fetch_markEmpty (hp : s.power = .active) (hb : b.toNat = i.val) (hw : w.toNat < 65536) (h1 : 1 ≤ c.toNat)
    (h16 : c.toNat ≤ 16) (hr : s.engine.runs = false) (hm : (s.streams[i]'i.isLt).marks = []) :
    s.snapshotOf (.fetch b 3 w c) = Snapshot.refusal (.fetch b 3 w c) .markEmpty := by
  have hl : locatorOf 3 w = some (.markRel (signed16 w.toNat)) := if_pos hw
  rw [fetch_legal hp hb hl h1 h16, if_neg (by simp [hr])]
  simp only [Locator.start, hm]
  rfl

/-- The three outcomes of a start sequence (R73). -/
theorem fetch_resolved (hp : s.power = .active) (hb : b.toNat = i.val) (hl : LocatorLegal form w) (h1 : 1 ≤ c.toNat)
    (h16 : c.toNat ≤ 16) (hr : s.engine.runs = false) {q : Int} (hq : (s.streams[i]'i.isLt).startsAt form w q) :
    (q < 1 ∨ q ≤ ((s.streams[i]'i.isLt).volatileFrontier : Int) →
        s.snapshotOf (.fetch b form w c) = Snapshot.refusal (.fetch b form w c) .expired)
      ∧ (1 ≤ q → ((s.streams[i]'i.isLt).volatileFrontier : Int) < q → ((s.streams[i]'i.isLt).lastCommitted : Int) < q → form ≠ 0 →
        s.snapshotOf (.fetch b form w c) = Snapshot.refusal (.fetch b form w c) .notYet)
      ∧ (1 ≤ q → ((s.streams[i]'i.isLt).volatileFrontier : Int) < q → q ≤ ((s.streams[i]'i.isLt).lastCommitted : Int) ∨ form = 0 →
        s.snapshotOf (.fetch b form w c) = s.fetched (.fetch b form w c) i q.toNat
          (min c.toNat ((s.streams[i]'i.isLt).lastCommitted + 1 - q.toNat))) := by
  obtain ⟨l, hl, hc, hs⟩ := locatorOf_legal hl
  rw [fetch_legal hp hb hl h1 h16, if_neg (by simp [hr]), hs _ _ hq]
  dsimp only
  refine ⟨fun h => ?_, fun ha hv hn hf => ?_, fun ha hv hn => ?_⟩
  · have hres : l.resolve (s.streams[i]'i.isLt) q = .expired := if_pos h
    rw [hres, if_neg (by simp)]
  · have hres : l.resolve (s.streams[i]'i.isLt) q = .notYet := by
      rw [Locator.resolve, if_neg (by omega), if_pos hn, if_neg fun h => hf (hc.1 h)]
    rw [hres, if_neg (by simp)]
  · have hres : l.resolve (s.streams[i]'i.isLt) q = .done := by
      rw [Locator.resolve, if_neg (by omega)]
      split
      · rw [if_pos (hc.2 (hn.resolve_left (by omega)))]
      · rfl
    rw [if_pos hres]

end Verdict

/-! ### Where each record ends (R78) -/

theorem endsFrom_eq (rs : List (List Byte)) : ∀ n, endsFrom n rs
    = (List.range rs.length).map fun j => n + (rs.take (j + 1)).flatten.length := by
  induction rs with
  | nil => exact fun n => rfl
  | cons r rs ih =>
    intro n
    rw [endsFrom, ih, List.length_cons, List.range_succ_eq_map, List.map_cons, List.map_map]
    refine congrArg₂ List.cons (by simp) (List.map_congr_left fun j _ => ?_)
    simp only [Function.comp, List.take_succ_cons, List.flatten_cons, List.length_append]
    omega

/-- What has been taken so far only grows. -/
theorem flatten_take_le (rs : List (List Byte)) {a b : Nat} (h : a ≤ b) :
    (rs.take a).flatten.length ≤ (rs.take b).flatten.length := by
  obtain ⟨n, rfl⟩ := Nat.exists_eq_add_of_le h
  rw [List.take_add, List.flatten_append, List.length_append]
  exact Nat.le_add_right _ _

theorem length_filter_below (j n : Nat) : ((List.range n).filter fun x => decide (x < j)).length = min j n := by
  induction n with
  | zero => simp
  | succ n ih =>
    rw [List.range_succ, List.filter_append, List.length_append, ih]
    by_cases h : n < j
    · rw [List.filter_cons_of_pos (by simpa using h)]
      simp
      omega
    · rw [List.filter_cons_of_neg (by simpa using h)]
      simp
      omega

/-- The records whose last byte is out are the first ones (R78). -/
theorem counted_of (rs : List (List Byte)) {n j : Nat} (hj : j ≤ rs.length) (hout : j = 0 ∨ 9 + (rs.take j).flatten.length ≤ n)
    (hnext : j < rs.length → n < 9 + (rs.take (j + 1)).flatten.length) :
    ((endsFrom 0 rs).filter fun e => decide (9 + e ≤ n)).length = j := by
  have hsplit : ∀ x ∈ List.range rs.length, (decide (9 + (0 + (rs.take (x + 1)).flatten.length) ≤ n)) = decide (x < j) := by
    intro x hx
    rw [List.mem_range] at hx
    rw [decide_eq_decide]
    constructor
    · intro h
      by_contra hc
      have := flatten_take_le rs (a := j + 1) (b := x + 1) (by omega)
      have := hnext (by omega)
      omega
    · intro h
      have := flatten_take_le rs (a := x + 1) (b := j) h
      omega
  rw [endsFrom_eq, List.filter_map, List.length_map]
  refine (congrArg List.length (List.filter_congr hsplit)).trans ?_
  rw [length_filter_below, Nat.min_eq_left hj]

/-! ### The cursor at the frame's end (R78, R79, R169) -/

/-- The cursor of a stream stands at a sequence, its unread side evaluated, and nothing else outside the port has changed. -/
structure State.CursorMoved (s t : State) (i : StreamId) (q : Nat) : Prop where
  cursor : (t.streams[i]'i.isLt).cursor = q
  unread : s.UnreadEvaluated t i
  frame : { (t.streams[i]'i.isLt) with
    cursor := (s.streams[i]'i.isLt).cursor, notices := (s.streams[i]'i.isLt).notices
    unreadAbove := (s.streams[i]'i.isLt).unreadAbove } = (s.streams[i]'i.isLt)
  others : ∀ x : StreamId, x ≠ i → (t.streams[x]'x.isLt) = (s.streams[x]'x.isLt)
  latch : ∀ x : Nat, x ≠ 2 → t.eventLatch.getLsbD x = s.eventLatch.getLsbD x
  only : { t with port := s.port, streams := s.streams, eventLatch := s.eventLatch } = s

/-- A stream's record with the cursor at a sequence. -/
def Stream.fetchedTo (q : Nat) (r : Stream) : Stream := { r with cursor := q }

theorem cursorMoved_evalUnread (s : State) (i : StreamId) (q : Nat) :
    s.CursorMoved ((s.updStream i (Stream.fetchedTo q)).evalUnread i) i q := by
  have hsame : ((s.updStream i (Stream.fetchedTo q)).evalUnread i).streams[i]'i.isLt
      = (Stream.fetchedTo q (s.streams[i]'i.isLt)).unreadEvaluated := by
    rw [State.evalUnread_same, State.updStream_same s i (Stream.fetchedTo q)]
  have hlatch : ∀ n, ((s.updStream i (Stream.fetchedTo q)).evalUnread i).eventLatch.getLsbD n
      = (s.eventLatch.getLsbD n || (n == 2 && (Stream.fetchedTo q (s.streams[i]'i.isLt)).unreadArrives)) := fun n => by
    rw [State.evalUnread_getLsbD, State.updStream_same s i (Stream.fetchedTo q)]
    rfl
  refine ⟨by rw [hsame]; rfl, ?_, by rw [hsame]; rfl, fun x hx => ?_, fun x hx => ?_, by rw [State.evalUnread_eq]; rfl⟩
  · exact unreadEvaluated_of (r := Stream.fetchedTo q (s.streams[i]'i.isLt)) rfl rfl (by rw [hsame]; rfl) (by rw [hsame]; rfl)
      (by rw [hsame]) (hlatch 2)
  · exact (State.evalUnread_other _ _ _ hx).trans (State.updStream_other s i x _ hx.symm)
  · rw [hlatch, beq_false_of_ne hx, Bool.false_and, Bool.or_false]

/-- The port is no part of it. -/
theorem State.CursorMoved.of_port {u : State} {i : StreamId} {q : Nat} (h : u.CursorMoved t i q)
    (hu : { u with port := s.port } = s) {v : State} (hv : { v with port := s.port } = { t with port := s.port }) :
    s.CursorMoved v i q := by
  have hstreams : v.streams = t.streams := by
    have h := congrArg State.streams hv
    exact h
  have hlatch : v.eventLatch = t.eventLatch := by
    have h := congrArg State.eventLatch hv
    exact h
  have hs : s.streams = u.streams := (congrArg State.streams hu).symm
  have hl : s.eventLatch = u.eventLatch := (congrArg State.eventLatch hu).symm
  obtain ⟨side, event, notice⟩ := h.unread
  refine ⟨by rw [hstreams]; exact h.cursor, ⟨by rw [hstreams]; exact side, ?_, ?_⟩, ?_, fun x hx => ?_, fun x hx => ?_, ?_⟩
  · rw [hlatch, hl, hstreams, hs]
    exact event
  · rw [hstreams, hs]
    exact notice
  · rw [hstreams, hs]
    exact h.frame
  · rw [hstreams, hs]
    exact h.others x hx
  · rw [hlatch, hl]
    exact h.latch x hx
  · have hv' := congrArg (fun x : State => { x with streams := u.streams, eventLatch := u.eventLatch }) hv
    have ht := congrArg (fun x : State => { x with port := s.port }) h.only
    rw [hs, hl]
    exact hv'.trans (ht.trans hu)

section Cursor

variable {b form c : Byte} {w : Word32} {i : StreamId}

/-- The SEL-high action of FETCH: the CURSOR form past at least one record moves the cursor, every other leaves the state. -/
theorem advanceCursor_cases (hb : b.toNat = i.val) (n : Nat) (v : Snapshot) (u : State) :
    (form = 0 → 1 ≤ v.counted n → State.advanceCursor b form n v u
        = (u.updStream i (Stream.fetchedTo (v.start + v.counted n))).evalUnread i)
      ∧ (form ≠ 0 ∨ v.counted n = 0 → State.advanceCursor b form n v u = u) := by
  unfold State.advanceCursor
  rw [streamOf_of_toNat hb]
  exact ⟨fun hf hj => if_pos ⟨hf, hj⟩, fun h => if_neg fun ⟨hf, hj⟩ => h.elim (· hf) fun h0 => by omega⟩

/-- The end of a FETCH frame whose verdict is DONE, in a state that has the port alone from the frame. -/
theorem fetchEnd (hb : b.toNat = i.val) {u : State} (hu : { u with port := s.port } = s) (n : Nat) (v : Snapshot) :
    (form = 0 → 1 ≤ v.counted n →
        s.CursorMoved ((State.advanceCursor b form n v u).closeFrame .plain n .done) i (v.start + v.counted n))
      ∧ (form ≠ 0 ∨ v.counted n = 0 →
        { (State.advanceCursor b form n v u).closeFrame .plain n .done with port := s.port } = s) := by
  obtain ⟨hmoves, hstays⟩ := advanceCursor_cases (form := form) hb n v u
  refine ⟨fun hf hj => ?_, fun h => ?_⟩
  · rw [hmoves hf hj]
    exact (cursorMoved_evalUnread u i _).of_port hu (closeFrame_setPort _ rfl _ _ _)
  · rw [hstays h, closeFrame_setPort _ rfl, hu]

end Cursor

/-! ### The records of a segment (R76, R96) -/

section Records

variable (s : State) (k : DataSeg)

/-- What FETCH finds where so many steps lead in a segment (R76): the record, if every length on the way can be used. -/
structure State.LocatedAt (x : Nat) (e : Located) : Prop where
  found : (∀ j ≤ x, s.lengthUsable k j) → e = .found (readRecord s.array (recordAddr k (s.recordOffset k x)))
  lost : (∃ j ≤ x, ¬ s.lengthUsable k j) → e = .unlocatable

theorem length_locateFrom (m : Memory) (used : Nat) : ∀ n p, (locateFrom m k used p n).length = n := by
  intro n
  induction n with
  | zero => exact fun p => rfl
  | succ n ih =>
    intro p
    unfold locateFrom
    dsimp only
    split
    · rw [List.length_cons, ih]
    · exact List.length_replicate

/-- The model's walk from a record on finds what stands there. -/
theorem locateFrom_get : ∀ n a : Nat, (∀ j < a, s.lengthUsable k j) → ∀ x < n,
    ∃ e, (locateFrom s.array k (s.segments[k]'k.isLt).bytesUsed (s.recordOffset k a) n)[x]? = some e ∧ s.LocatedAt k (a + x) e := by
  intro n
  induction n with
  | zero => exact fun a _ x hx => absurd hx (Nat.not_lt_zero x)
  | succ n ih =>
    intro a ha x hx
    have hiff : s.lengthUsable k a ↔ 1 ≤ storedLength s.array (recordAddr k (s.recordOffset k a))
        ∧ storedLength s.array (recordAddr k (s.recordOffset k a)) ≤ Config.maxPayload
        ∧ s.recordOffset k a + footprint (storedLength s.array (recordAddr k (s.recordOffset k a)))
          ≤ (s.segments[k]'k.isLt).bytesUsed := Iff.rfl
    unfold locateFrom
    dsimp only
    by_cases hu : s.lengthUsable k a
    · rw [if_pos (hiff.1 hu)]
      cases x with
      | zero =>
        refine ⟨_, rfl, fun _ => rfl, fun ⟨j, hj, hn⟩ => ?_⟩
        rcases Nat.lt_or_eq_of_le hj with hj | rfl
        · exact absurd (ha j hj) hn
        · exact absurd hu hn
      | succ x =>
        have hstep : ∀ j < a + 1, s.lengthUsable k j := fun j hj =>
          (Nat.lt_or_eq_of_le (Nat.le_of_lt_succ hj)).elim (ha j) fun h => h ▸ hu
        obtain ⟨e, he, hl⟩ := ih (a + 1) hstep x (Nat.lt_of_succ_lt_succ hx)
        rw [Nat.add_assoc, Nat.add_comm 1 x] at hl
        exact ⟨e, he, hl⟩
    · rw [if_neg (hu ∘ hiff.2)]
      exact ⟨_, List.getElem?_replicate_of_lt hx, fun h => absurd (h a (Nat.le_add_right a x)) hu, fun _ => rfl⟩

/-- The record of a segment with a sequence in its range. -/
theorem segmentRecords_find {x q : Nat} (hq : (s.segments[k]'k.isLt).first + x = q) (hl : q ≤ (s.segments[k]'k.isLt).last) :
    ∃ e, (s.segmentRecords k).find? (fun r => r.1 == q) = some (q, e) ∧ s.LocatedAt k x e := by
  obtain ⟨e, he, hloc⟩ := locateFrom_get s k ((s.segments[k]'k.isLt).last + 1 - (s.segments[k]'k.isLt).first) 0
    (fun j hj => absurd hj (Nat.not_lt_zero j)) x (by omega)
  rw [Nat.zero_add] at hloc
  refine ⟨e, ?_, hloc⟩
  have hget : ∀ j, (s.segmentRecords k)[j]? = ((List.range ((s.segments[k]'k.isLt).last + 1 - (s.segments[k]'k.isLt).first)).zip
      (locateFrom s.array k (s.segments[k]'k.isLt).bytesUsed 0 ((s.segments[k]'k.isLt).last + 1 - (s.segments[k]'k.isLt).first)))[j]?.map
        fun r : Nat × Located => ((s.segments[k]'k.isLt).first + r.1, r.2) := fun j => List.getElem?_map
  have hkey : ∀ (j : Nat) (r : Nat × Located), (s.segmentRecords k)[j]? = some r → r.1 = (s.segments[k]'k.isLt).first + j := by
    intro j r hr
    rw [hget, Option.map_eq_some_iff] at hr
    obtain ⟨z, hz, rfl⟩ := hr
    rw [List.getElem?_zip_eq_some] at hz
    have hrange := (List.getElem?_eq_some_iff.1 hz.1).choose_spec
    rw [List.getElem_range] at hrange
    rw [← hrange]
  have hx : (s.segmentRecords k)[x]? = some (q, e) := by
    rw [hget, Option.map_eq_some_iff]
    refine ⟨(x, e), List.getElem?_zip_eq_some.2 ⟨List.getElem?_range (by omega), he⟩, by rw [hq]⟩
  obtain ⟨hlt, heq⟩ := List.getElem?_eq_some_iff.1 hx
  rw [List.find?_eq_some_iff_getElem]
  refine ⟨by simp, x, hlt, heq, fun j hj => ?_⟩
  have := hkey j _ (List.getElem?_eq_getElem (Nat.lt_trans hj hlt))
  simp only [Bool.not_eq_eq_eq_not, Bool.not_true, beq_eq_false_iff_ne, ne_eq]
  omega

/-- FETCH finds a sequence in the first segment of the chain whose range holds it. -/
theorem recordAt_of {us vs : List DataSeg} {x q : Nat}
    (hus : ∀ u ∈ us, q < (s.segments[u]'u.isLt).first ∨ (s.segments[u]'u.isLt).last < q)
    (hq : (s.segments[k]'k.isLt).first + x = q) (hl : q ≤ (s.segments[k]'k.isLt).last) :
    s.LocatedAt k x (s.recordAt (us ++ k :: vs) q) := by
  have hfind : (us ++ k :: vs).find? (fun k => decide ((s.segments[k]'k.isLt).first ≤ q) && decide (q ≤ (s.segments[k]'k.isLt).last))
      = some k := by
    rw [List.find?_append, List.find?_eq_none.2, Option.none_or, List.find?_cons_of_pos]
    · simp only [Bool.and_eq_true, decide_eq_true_eq]
      omega
    · intro u hu
      have := hus u hu
      simp only [Bool.and_eq_true, decide_eq_true_eq]
      omega
  obtain ⟨e, he, hloc⟩ := segmentRecords_find s k hq hl
  unfold State.recordAt
  rw [hfind]
  dsimp only
  rw [he]
  exact hloc

/-! ### What is delivered of it (R75 to R77) -/

theorem recordPasses_iff (i : StreamId) (q a : Nat) : s.recordPasses i q a ↔ (readRecord s.array a).passes i q = true := by
  unfold RawRecord.passes
  rw [Bool.and_eq_true, Bool.and_eq_true, Bool.and_eq_true, beq_iff_eq, beq_iff_eq]
  exact ⟨fun ⟨hcheck, hstream, hseq, hmark⟩ => ⟨⟨⟨beq_iff_eq.2 hcheck, beq_iff_eq.2 hmark⟩, hstream⟩, hseq⟩,
    fun ⟨⟨⟨hcheck, hmark⟩, hstream⟩, hseq⟩ => ⟨beq_iff_eq.1 hcheck, hstream, hseq, beq_iff_eq.1 hmark⟩⟩

theorem deliver_header (i : StreamId) (q : Nat) (e : Located) : ∃ n tag d, deliver i q e
    = be32 q ++ (be16 n ++ tag :: byteOf i.val :: d) := by
  cases e with
  | found r =>
    refine ⟨if r.passes i q then r.length else r.length + 0x8000, r.tag, r.payload, ?_⟩
    rw [deliver, List.append_assoc, List.append_assoc]
    rfl
  | unlocatable => exact ⟨0x8000, 0, [], rfl⟩

theorem toNat_streamByte (i : StreamId) : (byteOf i.val).toNat = i.val := by
  rw [toNat_byteOf]
  exact Nat.mod_eq_of_lt (Nat.lt_trans i.isLt (by decide))

/-- What FETCH delivers of the record that it has located. -/
theorem delivers_of {i : StreamId} {q x : Nat} {e : Located} (h : s.LocatedAt k x e) : s.Delivers i q k x (deliver i q e) := by
  refine ⟨?_, ?_, fun hu a ha => ?_, fun hn => ?_⟩
  · obtain ⟨n, tag, d, hd⟩ := deliver_header i q e
    rw [hd, fieldAt_be32]
  · obtain ⟨n, tag, d, hd⟩ := deliver_header i q e
    rw [hd]
    simp only [fieldAt_be32_skip, fieldAt_be16_skip, fieldAt_byte_skip, fieldAt_byte, toNat_streamByte]
  · have hlen : (readRecord s.array a).length = storedLength s.array a := rfl
    have hshort : storedLength s.array a ≤ 1012 := by
      rw [ha]
      exact (hu x (Nat.le_refl x)).2.1
    have hd : deliver i q e = be32 q ++ (be16 (if (readRecord s.array a).passes i q then (readRecord s.array a).length
        else (readRecord s.array a).length + 0x8000) ++ (readRecord s.array a).tag :: byteOf i.val :: (readRecord s.array a).payload) := by
      rw [h.found hu, ← ha]
      simp [deliver]
    rw [hd, hlen]
    simp only [fieldAt_be32_skip, fieldAt_be16_skip, fieldAt_be16, fieldAt_byte, recordPasses_iff]
    refine ⟨fun hp => ?_, fun hp => ?_, rfl, rfl⟩
    · rw [if_pos hp]
      omega
    · rw [if_neg hp]
      omega
  · rw [h.lost hn]
    refine ⟨rfl, ?_, ?_⟩
    · show fieldAt (be32 q ++ (be16 0x8000 ++ [0, byteOf i.val])) 4 2 = 0x8000
      simp only [fieldAt_be32_skip, fieldAt_be16]
      rfl
    · show fieldAt (be32 q ++ (be16 0x8000 ++ [0, byteOf i.val])) 6 1 = 0
      simp only [fieldAt_be32_skip, fieldAt_be16_skip, fieldAt_byte]
      rfl

end Records

theorem delivery_length (s : State) (i : StreamId) (q m : Nat) : (s.delivery i q m).length = m := by
  rw [State.delivery, List.length_map, List.length_range]

theorem delivery_get (s : State) (i : StreamId) (q : Nat) {m j : Nat} (hj : j < m) :
    (s.delivery i q m)[j]? = some (deliver i (q + j) (s.recordAt (s.streams[i]'i.isLt).chain (q + j))) := by
  rw [State.delivery, List.getElem?_map, List.getElem?_range hj]
  rfl

/-- The clause of O37 on the end marker (R77). -/
theorem endMarker_fields (i : StreamId) (q : Nat) : (endMarker i q).length = 8 ∧ fieldAt (endMarker i q) 0 4 = q % 2 ^ 32
      ∧ fieldAt (endMarker i q) 4 2 = 0 ∧ fieldAt (endMarker i q) 6 1 = 0 ∧ fieldAt (endMarker i q) 7 1 = i.val := by
  have hd : endMarker i q = be32 q ++ (be16 0 ++ [0, byteOf i.val]) := rfl
  rw [hd]
  simp only [fieldAt_be32_skip, fieldAt_be16_skip, fieldAt_byte_skip, fieldAt_byte, fieldAt_be16, fieldAt_be32, toNat_streamByte]
  exact ⟨rfl, trivial, rfl, rfl, trivial⟩

/-! ### The frame (R9, R10, R78) -/

section Frame

variable {b form c : Byte} {w : Word32} {i : StreamId} {n : Nat}

theorem fetch_refuses (h : Serving s) (hn : 8 ≤ n) {o : OutcomeCode}
    (ho : s.snapshotOf (.fetch b form w c) = Snapshot.refusal (.fetch b form w c) o) (hd : o ≠ .done) (hf : o.isFrameError = false) :
    OutputRefuses (.fetch b form w c n) s n 8 o :=
  outputRefuses_of (c := .fetch b form w c) h hn rfl ho hd hf

/-- The frame of a FETCH that is served. -/
theorem fetch_served (h : Serving s) (hb : b.toNat = i.val) (hn : 8 ≤ n) {q m : Nat}
    (hv : s.snapshotOf (.fetch b form w c) = s.fetched (.fetch b form w c) i q m) :
    ∃ t, exec (.fetch b form w c n) s = .next t
      ∧ Answers s t n 8 .done ((s.delivery i q m).flatten ++ endMarker i (q + m))
      ∧ (form = 0 → 1 ≤ (s.fetched (.fetch b form w c) i q m).counted n →
        s.CursorMoved t i (q + (s.fetched (.fetch b form w c) i q m).counted n))
      ∧ (form ≠ 0 ∨ (s.fetched (.fetch b form w c) i q m).counted n = 0 → { t with port := s.port } = s) := by
  have hrow : exec (.fetch b form w c n) s = .next ((State.advanceCursor b form n (s.snapshotOf (.fetch b form w c))
      (s.beginFrame.formVerdict (.fetch b form w c))).closeFrame .plain n (s.snapshotOf (.fetch b form w c)).verdict) := by
    have hr := outputFrame_serving (k := .plain) (act := State.advanceCursor b form n) (c := .fetch b form w c) h hn
    rw [snapshotOf_beginFrame, State.outputEnd, if_pos (by rw [hv]; rfl)] at hr
    exact hr
  have hport := outputAct_port n (.fetch b form w c) (s.snapshotOf (.fetch b form w c)) (s.beginFrame.formVerdict (.fetch b form w c))
  have ha := answers_closeFrame (s := s) (c := .fetch b form w c) (by rw [hv]; rfl) hport n
  have hu : { s.beginFrame.formVerdict (.fetch b form w c) with port := s.port } = s := by
    rw [beginFrame_eq s]
    rfl
  have hend := fetchEnd (form := form) hb hu n (s.fetched (.fetch b form w c) i q m)
  rw [hv] at hrow ha
  exact ⟨_, hrow, ha, hend⟩

end Frame

/-- Settles O37: the verdict by the locator's start, the delivery by the walk through its segment, the cursor by the records out. -/
theorem fetchAtTheCursor : Obligations.FetchAtTheCursor := by
  refine ⟨fun s b form c w n i start h hb hn hl h1 h16 hr hq => ?resolved,
    fun s b form c w n i v j hp hi hv hc hd hb hj => ?formed, fun s b form c w n h hn => ⟨fun hb => ?noStream,
      fun hb hbad => ?badArgument, fun hb hl h1 h16 hr => ?busy, ?markEmpty⟩,
    fun s i q m => ⟨delivery_length s i q m, fun j x us vs k hj hchain hus hx hlast => ?delivers⟩, endMarker_fields⟩
  case resolved =>
    obtain ⟨hexpired, hnotYet, hserved⟩ := fetch_resolved h.active hb hl h1 h16 hr hq
    refine ⟨fun hs => fetch_refuses h hn (hexpired hs) (by simp) rfl,
      fun ha hv hs hf => fetch_refuses h hn (hnotYet ha hv hs hf) (by simp) rfl, fun q m hstart hq1 hqv hql hm => ?_⟩
    subst hstart
    have hverdict := hserved (by omega) (by omega) (hql.imp_left fun h => by omega)
    rw [Int.toNat_natCast, ← hm] at hverdict
    obtain ⟨t, ht, hans, hmoves, hstays⟩ := fetch_served h hb hn hverdict
    refine ⟨?_, t, ht, hans, fun hf => hstays (.inl hf), fun j hf hj hout hnext => ?_⟩
    · rw [hverdict]
      refine ⟨rfl, rfl, rfl, ?_⟩
      show endsFrom 0 (s.delivery i q m) = _
      rw [endsFrom_eq, delivery_length]
      simp
    · have hcount : (s.fetched (.fetch b form w c) i q m).counted n = j :=
        counted_of (s.delivery i q m) (by rw [delivery_length]; exact hj) hout (by rw [delivery_length]; exact hnext)
      refine ⟨fun h0 => hstays (.inr (hcount.trans h0)), fun h1 => ?_⟩
      have hm := hmoves hf (hcount ▸ h1)
      rw [hcount] at hm
      exact ⟨hm.cursor, hm.unread, hm.frame, hm.others, hm.latch, hm.only⟩
  case formed =>
    have hrow := exec_formedRow (.inl hp) hi hv n
    rw [hc, hd, if_pos rfl] at hrow
    have hport := outputAct_port n (.fetch b form w c) v s
    obtain ⟨hmoves, hstays⟩ := fetchEnd (form := form) hb (s := s) rfl n v
    refine ⟨_, hrow, closeFrame_outcome _ _ _, ?_, ?_, ?_, ?_, fun hs => hstays (hs.imp_right fun h0 => hj.symm.trans h0),
      fun hf h1 => ?_⟩
    · rw [closeFrame_armLatch]
      rfl
    · rw [closeFrame_resetEnable]
      rfl
    · rw [closeFrame_receipt, hport]
    · rw [closeFrame_sout, hport]
    · have hcount : v.counted n = j := hj.symm
      have hm := hmoves hf (hcount ▸ h1)
      rw [hcount] at hm
      exact ⟨hm.cursor, hm.unread, hm.frame, hm.others, hm.only⟩
  case noStream => exact fetch_refuses h hn (fetch_noStream h.active hb) (by simp) rfl
  case badArgument => exact fetch_refuses h hn (fetch_badArgument h.active hb hbad) (by simp) rfl
  case busy => exact fetch_refuses h hn (fetch_busy (i := ⟨b.toNat, hb⟩) h.active rfl hl h1 h16 hr) (by simp) rfl
  case markEmpty =>
    rintro i hb rfl hw h1 h16 hr hm
    exact fetch_refuses h hn (fetch_markEmpty h.active hb hw h1 h16 hr hm) (by simp) rfl
  case delivers =>
    refine ⟨_, delivery_get s i q hj, ?_⟩
    rw [hchain]
    exact delivers_of s k (recordAt_of s k hus hx hlast)

end Sys2Proof.Machine
end

section
/-! The second phase of the recovery scan (R149 to R151): where it leaves every data segment, and what its record scan means. -/

namespace Sys2Proof.Machine

-- One proof after the other: the stacks of proofs elaborated side by side come near the memory that a check may take.
set_option Elab.async false

open Sys2Proof

variable {s : State} {k : DataSeg}

/-! ### The table of the second phase -/

/-- The bytes of a data segment as the scan reads them, its header, and its entry under the highest count read before it. -/
def scannedHeader (m : Memory) (k : DataSeg) : List Byte :=
  readBytes (segmentCells m k.index) (segmentBase k.index) Config.headerBytes

def scanOne (a : Anchored) (m : Memory) (draw : Nat) (best : Option Nat) (k : DataSeg) : Scanned :=
  classify a (segmentCells m k.index) k (scannedHeader m k) best (freeDraw draw k)

/-- The highest erase count that segments hold. -/
def highestCount (m : Memory) (best : Option Nat) (ks : List DataSeg) : Option Nat :=
  ks.foldl (fun b j => maxCount b (verifiedCount (scannedHeader m j))) best

theorem classifyAll_cons (a : Anchored) (m : Memory) (draw : Nat) (best : Option Nat) (k : DataSeg) (ks : List DataSeg) :
    classifyAll a m draw best (k :: ks)
      = (k, scanOne a m draw best k) :: classifyAll a m draw (maxCount best (verifiedCount (scannedHeader m k))) ks := rfl

theorem classifyAll_get (a : Anchored) (m : Memory) (draw : Nat) : ∀ (ks : List DataSeg) (best : Option Nat) (n : Nat) (k : DataSeg),
    ks[n]? = some k → (classifyAll a m draw best ks)[n]? = some (k, scanOne a m draw (highestCount m best (ks.take n)) k) := by
  intro ks
  induction ks with
  | nil => exact fun _ _ _ h => by cases h
  | cons j ks ih =>
    intro best n k h
    rw [classifyAll_cons]
    cases n with
    | zero =>
      rw [List.getElem?_cons_zero, Option.some.injEq] at h
      subst h
      rfl
    | succ n => exact ih _ n k h

theorem classifyAll_keys (a : Anchored) (m : Memory) (draw : Nat) : ∀ (ks : List DataSeg) (best : Option Nat),
    (classifyAll a m draw best ks).map (·.1) = ks := by
  intro ks
  induction ks with
  | nil => exact fun _ => rfl
  | cons j ks ih =>
    intro best
    rw [classifyAll_cons, List.map_cons, ih]

/-- The entry of a data segment in the scan of an array. -/
def scanEntry (m : Memory) (draw : Nat) (k : DataSeg) : Scanned :=
  scanOne (anchorPhase m) m draw (highestCount m none ((List.finRange 510).take k.val)) k

theorem scannedOf_get (m : Memory) (draw : Nat) (k : DataSeg) : (scannedOf m draw)[k.val]? = some (k, scanEntry m draw k) :=
  classifyAll_get _ m draw _ none k.val k (by simp)

theorem scannedOf_keys (m : Memory) (draw : Nat) : (scannedOf m draw).map (·.1) = List.finRange 510 := classifyAll_keys _ m draw _ none

theorem mem_scannedOf {m : Memory} {draw : Nat} {x : DataSeg × Scanned} : x ∈ scannedOf m draw ↔ x.2 = scanEntry m draw x.1 := by
  constructor
  · intro h
    obtain ⟨n, hn⟩ := List.mem_iff_getElem?.1 h
    have hkey : (List.finRange 510)[n]? = some x.1 := by
      rw [← scannedOf_keys m draw, List.getElem?_map, hn]
      rfl
    obtain ⟨hlt, hval⟩ := List.getElem?_eq_some_iff.1 hkey
    have hx : x.1.val = n := by rw [← hval, List.getElem_finRange]; rfl
    have hget := scannedOf_get m draw x.1
    rw [hx, hn, Option.some.injEq] at hget
    rw [hget]
  · intro h
    have hget := scannedOf_get m draw x.1
    rw [← h] at hget
    exact List.mem_of_getElem? hget

theorem scannedHeader_eq (s : State) (k : DataSeg) : scannedHeader s.array k = s.headerOf k := by
  unfold scannedHeader State.headerOf
  refine readBytes_segmentCells _ _ 32 _ fun b h1 h2 => ?_
  unfold segmentBase Config.segmentBytes at *
  omega

/-! ### The highest count read before a segment (R149, row of a BLANK header) -/

theorem maxCount_none (c : Option Nat) : maxCount none c = c := by cases c <;> rfl

theorem maxCount_bounds (b c : Option Nat) (y : Nat) :
    (b = some y ∨ c = some y → ∃ x, maxCount b c = some x ∧ y ≤ x)
      ∧ (maxCount b c = some y → b = some y ∨ c = some y) := by
  cases b with
  | none => exact ⟨fun h => ⟨y, by simpa [maxCount_none] using h, Nat.le_refl y⟩, fun h => .inr (by rwa [maxCount_none] at h)⟩
  | some x =>
    cases c with
    | none => exact ⟨fun h => ⟨y, by simpa [maxCount] using h, Nat.le_refl y⟩, fun h => .inl h⟩
    | some z =>
      simp only [maxCount, Option.some.injEq]
      refine ⟨fun h => ⟨max x z, rfl, by omega⟩, fun h => by omega⟩

theorem highestCount_bounds (m : Memory) : ∀ (ks : List DataSeg) (best : Option Nat),
    (∀ y, (best = some y ∨ ∃ j ∈ ks, verifiedCount (scannedHeader m j) = some y) →
        ∃ x, highestCount m best ks = some x ∧ y ≤ x)
      ∧ ∀ x, highestCount m best ks = some x → best = some x ∨ ∃ j ∈ ks, verifiedCount (scannedHeader m j) = some x := by
  intro ks
  induction ks with
  | nil => exact fun best => ⟨fun y h => ⟨y, h.elim id fun ⟨j, hj, _⟩ => absurd hj List.not_mem_nil, Nat.le_refl y⟩, fun x h => .inl h⟩
  | cons k ks ih =>
    intro best
    obtain ⟨hup, hfrom⟩ := ih (maxCount best (verifiedCount (scannedHeader m k)))
    refine ⟨fun y hy => ?_, fun x hx => ?_⟩
    · by_cases hm : best = some y ∨ verifiedCount (scannedHeader m k) = some y
      · obtain ⟨z, hz, hyz⟩ := (maxCount_bounds best (verifiedCount (scannedHeader m k)) y).1 hm
        obtain ⟨x, hx, hzx⟩ := hup z (.inl hz)
        exact ⟨x, hx, Nat.le_trans hyz hzx⟩
      · rw [not_or] at hm
        rcases hy with hy | ⟨j, hj, hc⟩
        · exact absurd hy hm.1
        · rcases List.mem_cons.1 hj with rfl | hj
          · exact absurd hc hm.2
          · exact hup y (.inr ⟨j, hj, hc⟩)
    · rcases hfrom x hx with h | ⟨j, hj, hc⟩
      · rcases (maxCount_bounds best (verifiedCount (scannedHeader m k)) x).2 h with h | h
        · exact .inl h
        · exact .inr ⟨k, List.mem_cons_self, h⟩
      · exact .inr ⟨j, List.mem_cons_of_mem k hj, hc⟩

theorem mem_take_finRange {j : DataSeg} : j ∈ (List.finRange 510).take k.val ↔ j < k := by
  rw [List.mem_take_iff_getElem]
  constructor
  · rintro ⟨n, hn, rfl⟩
    rw [List.getElem_finRange]
    exact Fin.lt_def.2 (by simpa using (lt_min_iff.1 hn).1)
  · intro h
    exact ⟨j.val, lt_min (Fin.lt_def.1 h) (by simp), by simp⟩

/-- The count that an erased segment with a BLANK header takes (R149). -/
theorem blankCount (s : State) (k : DataSeg) :
    (∀ j < k, ∀ y, verifiedCount (s.headerOf j) = some y →
        y ≤ (highestCount s.array none ((List.finRange 510).take k.val)).getD 0)
      ∧ ((highestCount s.array none ((List.finRange 510).take k.val)).getD 0 = 0
        ∨ ∃ j < k, verifiedCount (s.headerOf j) = some ((highestCount s.array none ((List.finRange 510).take k.val)).getD 0)) := by
  obtain ⟨hup, hfrom⟩ := highestCount_bounds s.array ((List.finRange 510).take k.val) none
  refine ⟨fun j hj y hy => ?_, ?_⟩
  · obtain ⟨x, hx, hyx⟩ := hup y (.inr ⟨j, mem_take_finRange.2 hj, by rwa [scannedHeader_eq]⟩)
    rw [hx]
    exact hyx
  · cases hh : highestCount s.array none ((List.finRange 510).take k.val) with
    | none => exact .inl rfl
    | some x =>
      obtain ⟨j, hj, hc⟩ := (hfrom x hh).resolve_left (by simp)
      rw [scannedHeader_eq] at hc
      exact .inr ⟨j, mem_take_finRange.1 hj, hc⟩

/-! ### The record scan (R151) -/

/-- What a scan from a position finds: records one after the other, each good, up to where it ends. -/
theorem scanFrom_means (cells : Memory) (k : DataSeg) (i : StreamId) : ∀ (n p e : Nat), p ≤ 4064 →
    (scanFrom cells k i n p e).used ≤ 4064 ∧ p ≤ (scanFrom cells k i n p e).used
      ∧ (∀ q, 1 ≤ q → e ≤ q → q ≤ (scanFrom cells k i n p e).last →
        ∃ x < (scanFrom cells k i n p e).used, goodRecord cells k i x q = true) := by
  intro n
  induction n with
  | zero => exact fun p e hp => ⟨hp, Nat.le_refl p, fun q h1 h2 h3 => absurd h3 (by show ¬ q ≤ e - 1; omega)⟩
  | succ n ih =>
    intro p e hp
    have hstop : ∀ d, (⟨e - 1, p, d⟩ : Scan).used ≤ 4064 ∧ p ≤ (⟨e - 1, p, d⟩ : Scan).used
        ∧ (∀ q, 1 ≤ q → e ≤ q → q ≤ (⟨e - 1, p, d⟩ : Scan).last →
          ∃ x < (⟨e - 1, p, d⟩ : Scan).used, goodRecord cells k i x q = true) := fun d =>
      ⟨hp, Nat.le_refl p, fun q h1 h2 h3 => absurd h3 (by show ¬ q ≤ e - 1; omega)⟩
    unfold scanFrom
    split
    · exact hstop _
    · split
      · exact hstop _
      · split
        · rename_i hgood
          have hg := hgood
          simp only [goodRecord, Bool.and_eq_true, decide_eq_true_eq] at hg
          have hfit : p + footprint (storedLength cells (recordAddr k p)) ≤ 4064 := hg.1.1.1.1.2
          have hpos : 0 < footprint (storedLength cells (recordAddr k p)) := by
            unfold footprint
            omega
          obtain ⟨h1, h2, h3⟩ := ih _ (e + 1) hfit
          refine ⟨h1, by omega, fun q hq he hl => ?_⟩
          rcases Nat.lt_or_eq_of_le he with he | rfl
          · exact h3 q hq he hl
          · exact ⟨p, by omega, hgood⟩
        · exact hstop _

theorem footprint_ge (n : Nat) (h : 1 ≤ n) : 16 ≤ footprint n := by
  unfold footprint
  omega

/-- A scan with positions enough that found no damage ends where no record header fits, or before bytes that all read FFh. -/
theorem scanFrom_clean (cells : Memory) (k : DataSeg) (i : StreamId) : ∀ (n p e : Nat), 4064 < p + 16 + 16 * n →
    (scanFrom cells k i n p e).damaged = false → (scanFrom cells k i n p e).used + 16 ≤ 4064 →
    erasedFrom cells k (scanFrom cells k i n p e).used = true := by
  intro n
  induction n with
  | zero => exact fun p e hp _ hu => absurd hu (by show ¬ p + 16 ≤ 4064; omega)
  | succ n ih =>
    intro p e hp
    unfold scanFrom
    split
    · rename_i hend
      exact fun _ hu => absurd hu (by show ¬ p + 16 ≤ 4064; exact Nat.not_le.2 hend)
    · split
      · exact fun hd _ => by simpa using hd
      · split
        · rename_i hgood
          have hg := hgood
          simp only [goodRecord, Bool.and_eq_true, decide_eq_true_eq] at hg
          have hpos := footprint_ge (storedLength cells (recordAddr k p)) hg.1.1.1.1.1.1
          exact ih _ (e + 1) (by omega)
        · exact fun hd => by cases hd

/-- What the record scan of an OPEN candidate means (R151). -/
theorem scanMeans (s : State) (i : StreamId) (k : DataSeg) : s.ScanMeans i k (s.scanOf i k) := by
  obtain ⟨hused, -, hrec⟩ := scanFrom_means (segmentCells s.array k.index) k i 255 0 (headerField (s.headerOf k) 15 4) (Nat.zero_le _)
  exact ⟨hused, hrec, scanFrom_clean _ k i 255 0 _ (by decide)⟩

/-! ### Candidates (R149, R150) -/

theorem epochsAgree_iff {a : Anchored} {h : List Byte} {i : StreamId} (hi : headerOwner h = some i) :
    epochsAgree a h = true ↔ a.current ≠ none ∧ headerField h 11 4 = (a.streams[i]'i.isLt).epoch := by
  unfold epochsAgree
  rw [hi]
  simp only [Bool.and_eq_true, beq_iff_eq, Option.isSome_iff_ne_none]
  exact and_congr_right fun _ => eq_comm

theorem epochsAgree_owner {a : Anchored} {h : List Byte} (he : epochsAgree a h = true) : ∃ i, headerOwner h = some i := by
  unfold epochsAgree at he
  split at he
  · exact ⟨_, by assumption⟩
  · cases he

/-- The entry that the scan makes of a segment whose header has an open stage. -/
structure Scanned.Measured (x : Scanned) (a : Anchored) (h : List Byte) (state : HeaderState) (closeStage : Bool) : Prop where
  header : x.seg.header = state
  repeats : x.seg.Repeats h
  location : x.seg.location = state.leaves
  release : x.seg.release = none
  candidate : x.candidate = epochsAgree a h
  closeStage : x.candidate = true → x.closeStage = closeStage

theorem classifyOpened_measured (a : Anchored) (cells : Memory) (k : DataSeg) (h : List Byte) (torn : Bool) (d : FreeDraw) :
    (classifyOpened a cells k h torn d).Measured a h .opened torn := by
  unfold classifyOpened
  split
  · rename_i hm he
    exact ⟨rfl, ⟨rfl, rfl, rfl, rfl⟩, rfl, rfl, he.symm, fun _ => rfl⟩
  · rename_i hm
    refine ⟨rfl, ⟨rfl, rfl, rfl, rfl⟩, rfl, rfl, ?_, fun hc => by cases hc⟩
    cases he : epochsAgree a h with
    | false => rfl
    | true =>
      obtain ⟨i, hi⟩ := epochsAgree_owner he
      exact absurd he (hm i hi)

theorem classifyOpened_scan {a : Anchored} {cells : Memory} {k : DataSeg} {h : List Byte} {torn : Bool} {d : FreeDraw} {i : StreamId}
    (hi : headerOwner h = some i) (he : epochsAgree a h = true) :
    (classifyOpened a cells k h torn d).seg.last = (scanSegment cells k i (headerField h 15 4)).last
      ∧ (classifyOpened a cells k h torn d).seg.bytesUsed = (scanSegment cells k i (headerField h 15 4)).used
      ∧ (classifyOpened a cells k h torn d).seg.poisoned = ((scanSegment cells k i (headerField h 15 4)).damaged || torn)
      ∧ (classifyOpened a cells k h torn d).damaged = (scanSegment cells k i (headerField h 15 4)).damaged := by
  unfold classifyOpened
  rw [hi, he]
  exact ⟨rfl, rfl, rfl, rfl⟩

theorem classifyClosed_measured (a : Anchored) (h : List Byte) (state : HeaderState) :
    (classifyClosed a h state).Measured a h state true := ⟨rfl, ⟨rfl, rfl, rfl, rfl⟩, rfl, rfl, rfl, fun _ => rfl⟩

/-- The header reads as one with an open stage. -/
def HeaderReading.measured : HeaderReading → Option (HeaderState × Bool)
  | .opened torn => some (.opened, torn)
  | .sealed => some (.sealed, true)
  | .retirePending => some (.retirePending, true)
  | _ => none

theorem scanEntry_eq (s : State) (draw : Nat) (k : DataSeg) : scanEntry s.array draw k
    = classify (anchorPhase s.array) (segmentCells s.array k.index) k (s.headerOf k)
      (highestCount s.array none ((List.finRange 510).take k.val)) (freeDraw draw k) := by
  unfold scanEntry scanOne
  rw [scannedHeader_eq]

/-- A segment with an open stage, as the scan leaves it. -/
theorem scanEntry_measured {draw : Nat} {state : HeaderState} {c : Bool} (h : (readHeader (s.headerOf k)).measured = some (state, c)) :
    (scanEntry s.array draw k).Measured (anchorPhase s.array) (s.headerOf k) state c := by
  rw [scanEntry_eq]
  unfold classify
  cases hr : readHeader (s.headerOf k) <;> rw [hr] at h <;> cases h
  · exact classifyOpened_measured _ _ _ _ _ _
  · exact classifyClosed_measured _ _ _
  · exact classifyClosed_measured _ _ _

/-- Any other segment is no candidate and has no owner. -/
theorem scanEntry_settled {draw : Nat} (h : (readHeader (s.headerOf k)).measured = none) :
    (scanEntry s.array draw k).candidate = false ∧ (scanEntry s.array draw k).seg.release = none
      ∧ ((scanEntry s.array draw k).seg.location = .pool ∨ (scanEntry s.array draw k).seg.location = .reclaim
        ∨ (scanEntry s.array draw k).seg.location = .retired) := by
  rw [scanEntry_eq]
  unfold classify
  cases hr : readHeader (s.headerOf k) <;> rw [hr] at h
  case opened | sealed | retirePending => cases h
  all_goals dsimp only
  case blank =>
    split
    · exact ⟨rfl, rfl, .inl rfl⟩
    · exact ⟨rfl, rfl, .inr (.inl rfl)⟩
  case invalid => exact ⟨rfl, rfl, .inr (.inl rfl)⟩
  case retired => exact ⟨rfl, rfl, .inr (.inr rfl)⟩
  case free =>
    split
    · exact ⟨rfl, rfl, .inr (.inr rfl)⟩
    · split
      · exact ⟨rfl, rfl, .inl rfl⟩
      · exact ⟨rfl, rfl, .inr (.inl rfl)⟩

theorem measured_eq_some {r : HeaderReading} : r.measured ≠ none ↔ (∃ torn, r = .opened torn) ∨ r = .sealed ∨ r = .retirePending := by
  cases r <;> simp [HeaderReading.measured]

/-- A candidate of the scan is a candidate of the stream that its entry names (R149). -/
theorem isCandidate_iff {draw : Nat} {i : StreamId} : s.isCandidate i k
    ↔ (scanEntry s.array draw k).candidate = true ∧ (scanEntry s.array draw k).seg.owner = some i := by
  cases hm : (readHeader (s.headerOf k)).measured with
  | none =>
    refine ⟨fun h => absurd hm (measured_eq_some.2 h.2.2.2), fun h => ?_⟩
    rw [(scanEntry_settled hm).1] at h
    cases h.1
  | some x =>
    have hx := scanEntry_measured (draw := draw) hm
    rw [hx.candidate, hx.repeats.owner]
    have hopen := measured_eq_some.1 (show (readHeader (s.headerOf k)).measured ≠ none by rw [hm]; simp)
    exact ⟨fun ⟨hc, ho, he, _⟩ => ⟨(epochsAgree_iff ho).2 ⟨hc, he⟩, ho⟩,
      fun ⟨he, ho⟩ => ⟨((epochsAgree_iff ho).1 he).1, ho, ((epochsAgree_iff ho).1 he).2, hopen⟩⟩

/-- The close stage of a candidate (R150). -/
theorem closeStage_iff {draw : Nat} (h : (scanEntry s.array draw k).candidate = true) :
    (scanEntry s.array draw k).closeStage = true ↔ s.hasCloseStage k := by
  unfold State.hasCloseStage
  cases hm : (readHeader (s.headerOf k)).measured with
  | none =>
    rw [(scanEntry_settled hm).1] at h
    cases h
  | some x =>
    rw [(scanEntry_measured hm).closeStage h]
    cases hr : readHeader (s.headerOf k) with
    | opened torn =>
      rw [hr] at hm
      cases hm
      simp
    | sealed =>
      rw [hr] at hm
      cases hm
      simp
    | retirePending =>
      rw [hr] at hm
      cases hm
      simp
    | _ =>
      rw [hr] at hm
      cases hm

end Sys2Proof.Machine
end

section
/-! The third phase of the recovery scan (R150 to R153): each stream's candidates in their order, the unbroken series that its chain
keeps, and the segment table that follows. -/

namespace Sys2Proof.Machine

-- One proof after the other: the stacks of proofs elaborated side by side come near the memory that a check may take.
set_option Elab.async false

open Sys2Proof

variable {s : State} {k : DataSeg} {i : StreamId}

/-! ### The rebuilt state by its parts -/

/-- The scan of the array at hand; kept folded, so that no proof runs it. -/
@[irreducible] def State.scan (s : State) : List (DataSeg × Scanned) := scannedOf s.array s.freeIndex

/-- A data segment's entry in that scan. -/
def State.entry (s : State) (k : DataSeg) : Scanned := scanEntry s.array s.freeIndex k

/-- A stream's anchored fields. -/
def State.imageOf (s : State) (i : StreamId) : StreamImage := (anchorPhase s.array).streams[i]'i.isLt

/-- What the third phase finds for a stream. -/
def State.found (s : State) (i : StreamId) : Rebuilt := rebuildChain i (s.imageOf i).frontier s.scan

/-- The candidates of a stream in their order, those that its frontier does not cover, and the series that its chain keeps. -/
def State.ordered (s : State) (i : StreamId) : List (DataSeg × Scanned) := orderCandidates (candidatesOf i s.scan)

def State.left (s : State) (i : StreamId) : List (DataSeg × Scanned) := uncovered (s.imageOf i).frontier (s.ordered i)

def State.keptSeries (s : State) (i : StreamId) : List (DataSeg × Scanned) := series (s.imageOf i).frontier (s.left i)

theorem found_chain (s : State) (i : StreamId) : (s.found i).chain = s.keptSeries i := rfl

theorem scan_eq (s : State) : s.scan = scannedOf s.array s.freeIndex := by
  unfold State.scan
  rfl

theorem mem_scan {x : DataSeg × Scanned} : x ∈ s.scan ↔ x.2 = s.entry x.1 := by
  rw [scan_eq]
  exact mem_scannedOf

theorem mem_ordered {x : DataSeg × Scanned} : x ∈ s.ordered i ↔ x.2 = s.entry x.1 ∧ s.isCandidate i x.1 := by
  unfold State.ordered
  rw [(orderCandidates_perm _).mem_iff, candidatesOf, List.mem_filter, mem_scan, Bool.and_eq_true, beq_iff_eq,
    isCandidate_iff (draw := s.freeIndex)]
  exact and_congr_right fun h => by
    rw [h]
    exact Iff.rfl

theorem keys_nodup (s : State) (i : StreamId) : ((candidatesOf i s.scan).map (·.1)).Nodup := by
  have h : (s.scan.map (·.1)).Nodup := by
    rw [scan_eq, scannedOf_keys]
    exact List.nodup_finRange _
  exact h.sublist (List.filter_sublist.map _)

theorem ordered_nodup (s : State) (i : StreamId) : ((s.ordered i).map (·.1)).Nodup :=
  ((orderCandidates_perm (candidatesOf i s.scan)).map (·.1)).nodup_iff.2 (keys_nodup s i)

theorem left_eq (s : State) (i : StreamId) : s.left i = (s.ordered i).filter fun x => decide ((s.imageOf i).frontier < x.2.seg.last)
    || ((s.ordered i).getLast? == some x && decide (x.2.seg.last = (s.imageOf i).frontier)) :=
  uncovered_eq_filter _ (ordered_nodup s i).of_map

theorem left_sublist (s : State) (i : StreamId) : (s.left i).Sublist (s.ordered i) := by
  rw [left_eq]
  exact List.filter_sublist

theorem kept_prefix (s : State) (i : StreamId) : s.keptSeries i <+: s.left i := series_prefix _ _

theorem mem_kept {x : DataSeg × Scanned} (h : x ∈ s.keptSeries i) : x.2 = s.entry x.1 ∧ s.isCandidate i x.1 :=
  mem_ordered.1 ((left_sublist s i).subset ((kept_prefix s i).subset h))

/-- A candidate that is left reaches the frontier (R150). -/
theorem left_reaches {x : DataSeg × Scanned} (h : x ∈ s.left i) : (s.imageOf i).frontier ≤ x.2.seg.last := by
  rw [left_eq, List.mem_filter, Bool.or_eq_true, Bool.and_eq_true, decide_eq_true_eq, decide_eq_true_eq] at h
  omega

/-! ### The series (R152) -/

theorem seriesAfter_joined : ∀ (l : List (DataSeg × Scanned)) (q n : Nat) (x y : DataSeg × Scanned),
    (seriesAfter q l)[n]? = some x → (seriesAfter q l)[n + 1]? = some y → y.2.seg.first = x.2.seg.last + 1 := by
  intro l
  induction l with
  | nil => exact fun q n x y h => by cases h
  | cons z zs ih =>
    intro q n x y hx hy
    unfold seriesAfter at hx hy
    split at hx
    · rename_i hz
      rw [if_pos hz] at hy
      cases n with
      | succ n => exact ih z.2.seg.last n x y hx hy
      | zero =>
        rw [List.getElem?_cons_zero, Option.some.injEq] at hx
        subst hx
        cases zs with
        | nil => cases hy
        | cons w ws =>
          rw [List.getElem?_cons_succ, seriesAfter] at hy
          split at hy
          · rename_i hw
            rw [List.getElem?_cons_zero, Option.some.injEq] at hy
            rw [← hy, hw]
          · cases hy
    · cases hx

theorem series_joined {d : Nat} {l : List (DataSeg × Scanned)} {n : Nat} {x y : DataSeg × Scanned} (hx : (series d l)[n]? = some x)
    (hy : (series d l)[n + 1]? = some y) : y.2.seg.first = x.2.seg.last + 1 := by
  cases l with
  | nil => cases hx
  | cons z zs =>
    simp only [series] at hx hy
    split at hx
    · rename_i hz
      rw [if_pos hz] at hy
      cases n with
      | succ n => exact seriesAfter_joined zs z.2.seg.last n x y hx hy
      | zero =>
        rw [List.getElem?_cons_zero, Option.some.injEq] at hx
        subst hx
        cases zs with
        | nil => cases hy
        | cons w ws =>
          rw [List.getElem?_cons_succ, seriesAfter] at hy
          split at hy
          · rename_i hw
            rw [List.getElem?_cons_zero, Option.some.injEq] at hy
            rw [← hy, hw]
          · cases hy
    · cases hx

theorem series_first {d : Nat} {l : List (DataSeg × Scanned)} {x : DataSeg × Scanned} (h : (series d l).head? = some x) :
    x.2.seg.first ≤ d + 1 := by
  cases l with
  | nil => cases h
  | cons z zs =>
    simp only [series] at h
    split at h
    · rename_i hz
      rw [List.head?_cons, Option.some.injEq] at h
      rwa [← h]
    · cases h

/-! ### The rebuilt state (R149 to R154) -/

/-- A stream's record with both sides set against its counts (R171). -/
def Stream.sided (t : Stream) : Stream := { t with heldAtOrAbove := t.heldSide, unreadAbove := t.unreadSide }

theorem setAllSides_eq (u : State) : u.setAllSides = { u with
    streams := tabulate fun i => (u.streams[i]'i.isLt).sided, poolBelow := u.setAllSides.poolBelow } := rfl

theorem State.raiseIf_getLsbD (s : State) (b : Bool) (e : Event) (n : Nat) :
    (s.raiseIf b e).eventLatch.getLsbD n = (s.eventLatch.getLsbD n || (b && n == e.bit)) := by
  cases b with
  | false => simp [State.raiseIf]
  | true => simp [State.raiseIf]

theorem recoveryEvents_getLsbD (s : State) (torn fault : Bool) (n : Nat) :
    (s.recoveryEvents torn fault).eventLatch.getLsbD n = (n == 11 || (torn && n == 12) || (fault && n == 13)) := by
  unfold State.recoveryEvents
  rw [State.raiseIf_getLsbD, State.raiseIf_getLsbD, State.raise_getLsbD]
  simp [Event.bit]

/-- The streams of a recovery with their sides set. -/
def sidedStreams (a : Anchored) (r : Vector Rebuilt 8) : Vector Stream 8 :=
  tabulate fun i => ((rebuiltStreams a r)[i]'i.isLt).sided

theorem sidedStreams_get (a : Anchored) (r : Vector Rebuilt 8) (i : StreamId) :
    (sidedStreams a r)[i]'i.isLt = (rebuildStream (a.streams[i]'i.isLt) (r[i]'i.isLt)).sided := by
  unfold sidedStreams rebuiltStreams
  rw [tabulate_get, tabulate_get]

/-- What the state before the completion's selection holds, but for the pool side. -/
theorem rebuiltBy_eq (a : Anchored) (all : List (DataSeg × Scanned)) (r : Vector Rebuilt 8) (s : State) :
    ∃ latch below, s.rebuiltBy a all r = { s with
      power := .active
      streams := sidedStreams a r
      segments := rebuiltSegments all r
      pool := segmentsIn (rebuiltSegments all r) .pool
      reclaim := segmentsIn (rebuiltSegments all r) .reclaim
      staging := []
      ledger := a.ledger (sealedAny a r)
      guard := a.guard (s.guard.working == .session)
      lowWater := a.lowWater
      vaultLocks := s.lockCells
      freeIndex := s.freeIndex + 1
      eventLatch := latch
      poolBelow := below }
    ∧ ∀ n, latch.getLsbD n = (n == 11 || ((r.toList.any fun x => x.torn) && n == 12) || (a.current.isNone && n == 13)) := by
  refine ⟨((s.rebuild a all r).recoveryEvents (r.toList.any fun x => x.torn) a.current.isNone).eventLatch,
    ((s.rebuild a all r).recoveryEvents (r.toList.any fun x => x.torn) a.current.isNone).setAllSides.poolBelow, ?_,
    recoveryEvents_getLsbD _ _ _⟩
  unfold State.rebuiltBy
  rw [setAllSides_eq]
  generalize ((s.rebuild a all r).recoveryEvents (r.toList.any fun x => x.torn) a.current.isNone).setAllSides.poolBelow = below
  rw [State.recoveryEvents_eq]
  generalize ((s.rebuild a all r).recoveryEvents (r.toList.any fun x => x.torn) a.current.isNone).eventLatch = latch
  rw [State.rebuild_eq]
  unfold sidedStreams
  generalize segmentsIn (rebuiltSegments all r) .pool = pool
  generalize segmentsIn (rebuiltSegments all r) .reclaim = reclaim
  generalize rebuiltSegments all r = segments
  generalize rebuiltStreams a r = streams
  rfl

/-! ### The segment table (R149, R150, R152) -/

theorem rebuildAll_get (s : State) (i : StreamId) : (rebuildAll (anchorPhase s.array) s.scan)[i]'i.isLt = s.found i := by
  unfold rebuildAll
  rw [tabulate_get]
  rfl

/-- The segments that a stream's chain keeps. -/
def State.keys (s : State) (i : StreamId) : List DataSeg := (s.keptSeries i).map (·.1)

theorem mem_chains {r : Vector Rebuilt 8} : k ∈ (r.toList.flatMap fun x => x.chain.map fun y => y.1)
    ↔ ∃ i : StreamId, k ∈ (r[i]'i.isLt).chain.map fun y => y.1 := by
  rw [List.mem_flatMap]
  constructor
  · rintro ⟨x, hx, hk⟩
    obtain ⟨n, hn, rfl⟩ := Vector.mem_iff_getElem.1 (Vector.mem_toList_iff.1 hx)
    exact ⟨⟨n, hn⟩, hk⟩
  · rintro ⟨i, hk⟩
    exact ⟨_, Vector.mem_toList_iff.2 (Vector.getElem_mem i.isLt), hk⟩

theorem rebuiltSegments_get (s : State) (k : DataSeg) :
    (rebuiltSegments s.scan (rebuildAll (anchorPhase s.array) s.scan))[k]'k.isLt
      = if ∃ i, k ∈ s.keys i then { (s.entry k).seg with location := .chain } else (s.entry k).seg := by
  have hget : s.scan[k.val]? = some (k, s.entry k) := by
    rw [scan_eq]
    exact scannedOf_get _ _ k
  have hmem : k ∈ ((rebuildAll (anchorPhase s.array) s.scan).toList.flatMap fun x => x.chain.map fun y => y.1) ↔ ∃ i, k ∈ s.keys i := by
    rw [mem_chains]
    exact exists_congr fun i => by
      rw [rebuildAll_get, found_chain]
      exact Iff.rfl
  unfold rebuiltSegments
  rw [tabulate_get, List.getD_eq_getElem?_getD, List.getElem?_map, hget]
  show placeScanned _ (k, s.entry k) = _
  unfold placeScanned
  exact if_congr hmem rfl rfl

/-- What the scan has made of streams and segment table. -/
structure State.Rebuilds (s t : State) : Prop where
  streams : ∀ i : StreamId, t.streams[i]'i.isLt = (rebuildStream (s.imageOf i) (s.found i)).sided
  kept : ∀ (i : StreamId) (k : DataSeg), k ∈ s.keys i → t.segments[k]'k.isLt = { (s.entry k).seg with location := .chain }
  other : ∀ k : DataSeg, (∀ i, k ∉ s.keys i) → t.segments[k]'k.isLt = (s.entry k).seg

section Rebuilds

variable {t : State} (h : s.Rebuilds t)

include h

theorem State.Rebuilds.only (k : DataSeg) : { t.segments[k]'k.isLt with location := (s.entry k).seg.location } = (s.entry k).seg := by
  by_cases hk : ∃ i, k ∈ s.keys i
  · obtain ⟨i, hk⟩ := hk
    rw [h.kept i k hk]
  · rw [h.other k fun i hi => hk ⟨i, hi⟩]

theorem State.Rebuilds.first (k : DataSeg) : (t.segments[k]'k.isLt).first = (s.entry k).seg.first := by
  have := congrArg Segment.first (h.only k)
  exact this

theorem State.Rebuilds.last (k : DataSeg) : (t.segments[k]'k.isLt).last = (s.entry k).seg.last := by
  have := congrArg Segment.last (h.only k)
  exact this

theorem State.Rebuilds.header (k : DataSeg) : (t.segments[k]'k.isLt).header = (s.entry k).seg.header := by
  have := congrArg Segment.header (h.only k)
  exact this

theorem State.Rebuilds.owner (k : DataSeg) : (t.segments[k]'k.isLt).owner = (s.entry k).seg.owner := by
  have := congrArg Segment.owner (h.only k)
  exact this

theorem State.Rebuilds.epoch (k : DataSeg) : (t.segments[k]'k.isLt).epoch = (s.entry k).seg.epoch := by
  have := congrArg Segment.epoch (h.only k)
  exact this

theorem State.Rebuilds.eraseCount (k : DataSeg) : (t.segments[k]'k.isLt).eraseCount = (s.entry k).seg.eraseCount := by
  have := congrArg Segment.eraseCount (h.only k)
  exact this

theorem State.Rebuilds.bytesUsed (k : DataSeg) : (t.segments[k]'k.isLt).bytesUsed = (s.entry k).seg.bytesUsed := by
  have := congrArg Segment.bytesUsed (h.only k)
  exact this

theorem State.Rebuilds.poisoned (k : DataSeg) : (t.segments[k]'k.isLt).poisoned = (s.entry k).seg.poisoned := by
  have := congrArg Segment.poisoned (h.only k)
  exact this

theorem State.Rebuilds.release (k : DataSeg) : (t.segments[k]'k.isLt).release = (s.entry k).seg.release := by
  have := congrArg Segment.release (h.only k)
  exact this

omit h in
theorem mem_keys (hk : k ∈ s.keys i) : (k, s.entry k) ∈ s.keptSeries i ∧ s.isCandidate i k := by
  obtain ⟨x, hx, rfl⟩ := List.mem_map.1 hk
  obtain ⟨hx2, hc⟩ := mem_kept hx
  rw [← hx2]
  exact ⟨hx, hc⟩

/-! ### Every data segment (R149) -/

theorem State.Rebuilds.settled (hm : (readHeader (s.headerOf k)).measured = none) : t.segments[k]'k.isLt = (s.entry k).seg :=
  h.other k fun _ hk => measured_eq_some.2 (mem_keys hk).2.2.2.2 hm

theorem State.Rebuilds.repeats {state : HeaderState} {c : Bool} (hm : (readHeader (s.headerOf k)).measured = some (state, c)) :
    (t.segments[k]'k.isLt).Repeats (s.headerOf k) := by
  obtain ⟨ho, he, hf, hc⟩ := (scanEntry_measured (draw := s.freeIndex) hm).repeats
  exact ⟨(h.owner k).trans ho, (h.epoch k).trans he, (h.first k).trans hf, (h.eraseCount k).trans hc⟩

theorem State.Rebuilds.location {state : HeaderState} {c : Bool} (hm : (readHeader (s.headerOf k)).measured = some (state, c)) :
    (t.segments[k]'k.isLt).location = .chain ∨ (t.segments[k]'k.isLt).location = state.leaves := by
  by_cases hk : ∃ i, k ∈ s.keys i
  · obtain ⟨i, hk⟩ := hk
    rw [h.kept i k hk]
    exact .inl rfl
  · rw [h.other k fun i hi => hk ⟨i, hi⟩]
    exact .inr (scanEntry_measured hm).location

/-- A closed segment: the fields of its close stage (R149). -/
theorem State.Rebuilds.closed {state : HeaderState} (hr : readHeader (s.headerOf k) = .sealed ∧ state = .sealed
      ∨ readHeader (s.headerOf k) = .retirePending ∧ state = .retirePending) :
    (t.segments[k]'k.isLt).header = state ∧ (t.segments[k]'k.isLt).Repeats (s.headerOf k)
      ∧ (t.segments[k]'k.isLt).last = headerField (s.headerOf k) 21 4
      ∧ (t.segments[k]'k.isLt).bytesUsed = headerField (s.headerOf k) 25 2 ∧ (t.segments[k]'k.isLt).poisoned = false
      ∧ ((t.segments[k]'k.isLt).location = .chain ∨ (t.segments[k]'k.isLt).location = state.leaves) := by
  have hm : (readHeader (s.headerOf k)).measured = some (state, true) := by
    rcases hr with ⟨hr, rfl⟩ | ⟨hr, rfl⟩ <;> rw [hr] <;> rfl
  have he : s.entry k = classifyClosed (anchorPhase s.array) (s.headerOf k) state := by
    unfold State.entry
    rw [scanEntry_eq]
    unfold classify
    rcases hr with ⟨hr, rfl⟩ | ⟨hr, rfl⟩ <;> rw [hr]
  refine ⟨(h.header k).trans (scanEntry_measured hm).header, h.repeats hm, ?_, ?_, ?_, h.location hm⟩
  · rw [h.last, he]
    rfl
  · rw [h.bytesUsed, he]
    rfl
  · rw [h.poisoned, he]
    rfl

/-- An entry that keeps nothing but its place, header state and count. -/
theorem State.Rebuilds.bare (hm : (readHeader (s.headerOf k)).measured = none) {l : Location} {state : HeaderState} {c : Option Nat}
    {n : Nat} (he : s.entry k = (bareSegment l state c n).settled) : (t.segments[k]'k.isLt).location = l
      ∧ (t.segments[k]'k.isLt).header = state ∧ (t.segments[k]'k.isLt).eraseCount = c := by
  rw [h.settled hm, he]
  exact ⟨rfl, rfl, rfl⟩

theorem segmentScanned (k : DataSeg) : s.SegmentScanned t k := by
  have hentry : s.entry k = classify (anchorPhase s.array) (segmentCells s.array k.index) k (s.headerOf k)
      (highestCount s.array none ((List.finRange 510).take k.val)) (freeDraw s.freeIndex k) := scanEntry_eq s s.freeIndex k
  unfold classify at hentry
  refine ⟨fun hr => ?retired, fun hr hc => ?worn, fun hr hc he ho => ?free, fun hr he => ?blank, fun hu => ?unusable,
    fun torn hr => ?opened, fun hr => ?sealed, fun hr => ?retirePending⟩
  case retired =>
    rw [hr] at hentry
    exact h.bare (by rw [hr]; rfl) hentry
  case worn =>
    rw [hr] at hentry
    exact h.bare (by rw [hr]; rfl) (hentry.trans (if_pos hc))
  case free =>
    rw [hr] at hentry
    refine h.bare (by rw [hr]; rfl) (hentry.trans ((if_neg (Nat.not_le.2 hc)).trans (if_pos ?_)))
    rw [Bool.and_eq_true]
    exact ⟨he, ho⟩
  case blank =>
    rw [hr] at hentry
    obtain ⟨h1, h2, h3⟩ := h.bare (by rw [hr]; rfl) (hentry.trans (if_pos he))
    obtain ⟨hbound, hfrom⟩ := blankCount s k
    exact ⟨h1, h2, _, h3, hbound, hfrom⟩
  case unusable =>
    rcases hu with ⟨hr, hc, hno⟩ | ⟨hr, hno⟩ | hr
    · rw [hr] at hentry
      refine h.bare (by rw [hr]; rfl) (hentry.trans ((if_neg (Nat.not_le.2 hc)).trans (if_neg ?_)))
      rw [Bool.and_eq_true]
      rintro ⟨he, ho⟩
      rcases hno with hno | hno
      · exact absurd (he.symm.trans hno) (by simp)
      · exact absurd (ho.symm.trans hno) (by simp)
    · rw [hr] at hentry
      exact h.bare (by rw [hr]; rfl) (hentry.trans (if_neg fun he => absurd (he.symm.trans hno) (by simp)))
    · rw [hr] at hentry
      exact h.bare (by rw [hr]; rfl) hentry
  case opened =>
    have hm : (readHeader (s.headerOf k)).measured = some (.opened, torn) := by rw [hr]; rfl
    exact ⟨(h.header k).trans (scanEntry_measured hm).header, h.repeats hm, h.location hm⟩
  case sealed => exact h.closed (.inl ⟨hr, rfl⟩)
  case retirePending => exact h.closed (.inr ⟨hr, rfl⟩)

end Rebuilds

end Sys2Proof.Machine
end

section
/-! What the recovery scan makes of a stream (R150 to R153), from the order of its candidates and the series that its chain keeps. -/

namespace Sys2Proof.Machine

-- One proof after the other: the stacks of proofs elaborated side by side come near the memory that a check may take.
set_option Elab.async false

open Sys2Proof

variable {s t : State} {k : DataSeg} {i : StreamId}

/-! ### Keys and entries -/

theorem kept_of_keys_get {n : Nat} (h : (s.keys i)[n]? = some k) : (s.keptSeries i)[n]? = some (k, s.entry k) := by
  rw [State.keys, List.getElem?_map, Option.map_eq_some_iff] at h
  obtain ⟨x, hx, rfl⟩ := h
  rw [hx, ← (mem_kept (List.mem_of_getElem? hx)).1]

theorem left_of_get {n : Nat} (h : ((s.left i).map (·.1))[n]? = some k) : (s.left i)[n]? = some (k, s.entry k) := by
  rw [List.getElem?_map, Option.map_eq_some_iff] at h
  obtain ⟨x, hx, rfl⟩ := h
  rw [hx, ← (mem_ordered.1 ((left_sublist s i).subset (List.mem_of_getElem? hx))).1]

theorem kept_last (h : (s.keys i).getLast? = some k) : (s.keptSeries i).getLast? = some (k, s.entry k) := by
  rw [List.getLast?_eq_getElem?] at h ⊢
  have hk := kept_of_keys_get h
  rwa [State.keys, List.length_map] at hk

theorem mem_left_keys : k ∈ (s.left i).map (·.1) ↔ (k, s.entry k) ∈ s.left i := by
  refine ⟨fun h => ?_, fun h => List.mem_map.2 ⟨_, h, rfl⟩⟩
  obtain ⟨x, hx, rfl⟩ := List.mem_map.1 h
  rw [← (mem_ordered.1 ((left_sublist s i).subset hx)).1]
  exact hx

theorem keys_prefix (s : State) (i : StreamId) : s.keys i <+: (s.left i).map (·.1) := (kept_prefix s i).map _

theorem left_keys_nodup (s : State) (i : StreamId) : ((s.left i).map (·.1)).Nodup :=
  (ordered_nodup s i).sublist ((left_sublist s i).map _)

theorem kept_length (s : State) (i : StreamId) : (s.keptSeries i).length = (s.left i).length ↔ s.keys i = (s.left i).map (·.1) := by
  constructor
  · intro h
    exact (keys_prefix s i).eq_of_length (by rw [State.keys, List.length_map, List.length_map, h])
  · intro h
    have := congrArg List.length h
    rwa [State.keys, List.length_map, List.length_map] at this

/-! ### Damage found (R151, R152) -/

/-- The entry of an OPEN candidate is its record scan's (R151). -/
theorem entry_opened {torn : Bool} (hc : s.isCandidate i k) (hr : readHeader (s.headerOf k) = .opened torn) :
    (s.entry k).seg.last = (s.scanOf i k).last ∧ (s.entry k).seg.bytesUsed = (s.scanOf i k).used
      ∧ (s.entry k).seg.poisoned = ((s.scanOf i k).damaged || torn) ∧ (s.entry k).damaged = (s.scanOf i k).damaged := by
  obtain ⟨hcur, howner, hepoch, -⟩ := hc
  have he : s.entry k = classifyOpened (anchorPhase s.array) (segmentCells s.array k.index) k (s.headerOf k) torn
      (freeDraw s.freeIndex k) := by
    unfold State.entry
    rw [scanEntry_eq]
    unfold classify
    rw [hr]
  rw [he]
  exact classifyOpened_scan howner ((epochsAgree_iff howner).2 ⟨hcur, hepoch⟩)

/-- Only an OPEN candidate's scan finds damage. -/
theorem entry_damaged (h : (s.entry k).damaged = true) : ∃ torn, readHeader (s.headerOf k) = .opened torn := by
  unfold State.entry at h
  rw [scanEntry_eq] at h
  unfold classify at h
  cases hr : readHeader (s.headerOf k) <;> rw [hr] at h <;> dsimp only at h
  case opened torn => exact ⟨torn, rfl⟩
  case retired | invalid | sealed | retirePending => cases h
  case free =>
    split at h
    · cases h
    · split at h <;> cases h
  case blank => split at h <;> cases h

/-- A stream has a torn finding just where a record scan found damage or the series is broken (R151, R152). -/
theorem found_torn_iff (s : State) (i : StreamId) : (s.found i).torn = true ↔ s.keys i ≠ (s.left i).map (·.1)
    ∨ ∃ k torn, s.isCandidate i k ∧ readHeader (s.headerOf k) = .opened torn ∧ (s.scanOf i k).damaged = true := by
  have ht : (s.found i).torn = ((candidatesOf i s.scan).any (fun x => x.2.damaged) || (s.keptSeries i).length != (s.left i).length) := rfl
  rw [ht, Bool.or_eq_true, bne_iff_ne, ne_eq, kept_length, or_comm, List.any_eq_true]
  refine or_congr_right ⟨fun ⟨x, hx, hd⟩ => ?_, fun ⟨k, torn, hc, hr, hd⟩ => ?_⟩
  · obtain ⟨hx2, hc⟩ := mem_ordered.1 ((orderCandidates_perm _).mem_iff.2 hx)
    rw [hx2] at hd
    obtain ⟨torn, hr⟩ := entry_damaged hd
    exact ⟨x.1, torn, hc, hr, (entry_opened hc hr).2.2.2.symm.trans hd⟩
  · exact ⟨(k, s.entry k), (orderCandidates_perm _).mem_iff.1 (mem_ordered.2 ⟨rfl, hc⟩), (entry_opened hc hr).2.2.2.trans hd⟩

/-- A break leaves a candidate out of the chain. -/
theorem exists_cut (h : s.keys i ≠ (s.left i).map (·.1)) : ∃ k, (k, s.entry k) ∈ s.left i ∧ k ∉ s.keys i := by
  obtain ⟨rest, hrest⟩ := keys_prefix s i
  cases rest with
  | nil => exact absurd (by rw [← hrest, List.append_nil]) h
  | cons k ks =>
    have hk : k ∈ (s.left i).map (·.1) := by
      rw [← hrest]
      exact List.mem_append_right _ List.mem_cons_self
    refine ⟨k, mem_left_keys.1 hk, fun hin => ?_⟩
    have hn := left_keys_nodup s i
    rw [← hrest, List.nodup_append] at hn
    exact hn.2.2 k hin k List.mem_cons_self rfl

/-- A candidate that ends above the frontier is left. -/
theorem mem_left_of (hc : s.isCandidate i k) (hl : (s.imageOf i).frontier < (s.entry k).seg.last) : (k, s.entry k) ∈ s.left i := by
  rw [left_eq, List.mem_filter]
  refine ⟨mem_ordered.2 ⟨rfl, hc⟩, ?_⟩
  rw [Bool.or_eq_true]
  exact .inl (decide_eq_true hl)

theorem isCandidate_unique {j : StreamId} (h : s.isCandidate i k) (h' : s.isCandidate j k) : i = j :=
  Option.some.inj (h.2.1.symm.trans h'.2.1)

/-! ### The stream as it is rebuilt -/

section Rebuilds

variable (h : s.Rebuilds t)

include h

theorem State.Rebuilds.chain (i : StreamId) : (t.streams[i]'i.isLt).chain = s.keys i := by
  rw [h.streams i]
  rfl

theorem State.Rebuilds.durable (i : StreamId) : (t.streams[i]'i.isLt).durableFrontier = (s.imageOf i).frontier := by
  rw [h.streams i]
  rfl

theorem State.Rebuilds.notices (i : StreamId) : (t.streams[i]'i.isLt).notices = if (s.found i).torn then 0x80 else 0 := by
  rw [h.streams i]
  show (if (s.found i).torn then 1#8 <<< Notice.torn.bit else 0) = _
  split <;> rfl

theorem State.Rebuilds.torn_iff (i : StreamId) : (t.streams[i]'i.isLt).notices = 0x80 ↔ (s.found i).torn = true := by
  rw [h.notices i]
  cases (s.found i).torn <;> simp

theorem State.Rebuilds.dropped (hc : s.isCandidate i k) (hk : k ∉ s.keys i) : (t.segments[k]'k.isLt).location
    = if readHeader (s.headerOf k) = .retirePending then .retired else .reclaim := by
  rw [h.other k fun j hj => hk (isCandidate_unique (mem_keys hj).2 hc ▸ hj)]
  rcases hc.2.2.2 with ⟨torn, hr⟩ | hr | hr
  · rw [hr, if_neg (by simp)]
    exact (scanEntry_measured (state := .opened) (c := torn) (by rw [hr]; rfl)).location
  · rw [hr, if_neg (by simp)]
    exact (scanEntry_measured (state := .sealed) (c := true) (by rw [hr]; rfl)).location
  · rw [hr, if_pos rfl]
    exact (scanEntry_measured (state := .retirePending) (c := true) (by rw [hr]; rfl)).location

/-- The order of the scan is the one by R150. -/
theorem precedes_of_before {x y : DataSeg × Scanned} (hx : x ∈ s.ordered i) (hy : y ∈ s.ordered i) (hb : Scanned.before x y = true) :
    s.precedes t x.1 y.1 := by
  obtain ⟨hx2, hxc⟩ := mem_ordered.1 hx
  obtain ⟨hy2, hyc⟩ := mem_ordered.1 hy
  have hcx := closeStage_iff (s := s) ((isCandidate_iff (draw := s.freeIndex)).1 hxc).1
  have hcy := closeStage_iff (s := s) ((isCandidate_iff (draw := s.freeIndex)).1 hyc).1
  have hh := before_iff.1 hb
  rw [hx2, hy2] at hh
  unfold State.precedes Segment.holdsNone
  rw [h.first, h.first, h.last, h.last, ← hcx, ← hcy]
  exact hh

theorem State.Rebuilds.seriesRebuilt (i : StreamId) : s.SeriesRebuilt t i ((s.ordered i).map (·.1)) ((s.left i).map (·.1)) := by
  refine ⟨fun k => ?members, ?ordered, ?remaining, ?kept, fun k hk => ?cut, ?torn⟩
  case members =>
    rw [List.mem_map]
    exact ⟨fun ⟨x, hx, he⟩ => he ▸ (mem_ordered.1 hx).2, fun hc => ⟨(k, s.entry k), mem_ordered.2 ⟨rfl, hc⟩, rfl⟩⟩
  case ordered =>
    rw [List.pairwise_map]
    exact (orderCandidates_sorted (keys_nodup s i)).imp_of_mem fun hx hy hb => precedes_of_before h hx hy hb
  case remaining =>
    rw [left_eq, List.filter_map]
    refine congrArg (List.map _) (List.filter_congr fun x hx => ?_)
    have hx2 := (mem_ordered.1 hx).1
    have hlast : ((s.ordered i).getLast? == some x) = (((s.ordered i).map (·.1)).getLast? == some x.1) := by
      rw [List.getLast?_map]
      cases hl : (s.ordered i).getLast? with
      | none => rfl
      | some y =>
        have hy2 := (mem_ordered.1 (List.mem_of_getLast? hl)).1
        rw [Bool.eq_iff_iff, beq_iff_eq, Option.map_some, beq_iff_eq, Option.some.injEq, Option.some.injEq]
        exact ⟨congrArg Prod.fst, fun he => Prod.ext he (by rw [hy2, hx2, he])⟩
    simp only [Function.comp]
    rw [hlast, h.durable, h.last, hx2]
  case kept =>
    rw [h.chain]
    exact keys_prefix s i
  case cut =>
    rw [h.chain] at hk ⊢
    have hk' := left_of_get hk
    rw [State.keys, List.length_map] at hk'
    obtain ⟨hempty, hlast⟩ := series_cut (d := (s.imageOf i).frontier) hk'
    refine ⟨fun he => ?_, fun j hj => ?_⟩
    · rw [h.durable, h.first]
      exact hempty (List.map_eq_nil_iff.1 he)
    · rw [h.first, h.last]
      exact hlast _ (kept_last hj)
  case torn =>
    rw [h.torn_iff, found_torn_iff, h.chain]

theorem streamRebuilt (i : StreamId) : s.StreamRebuilt t i := by
  have htorn := (h.torn_iff i).trans (found_torn_iff s i)
  refine ⟨fun k hk => ?candidates, fun k hk => ?first, fun n k j hk hj => ?joined, fun k hk => ?uncovered, fun k hk => ?lastCommitted,
    fun he => ?emptied, fun k torn hc hr => ?scanned, ⟨_, _, h.seriesRebuilt i⟩, fun k hc hk => ?dropped, ?notices,
    fun k torn hc hr hd => htorn.2 (.inr ⟨k, torn, hc, hr, hd⟩), fun k hc hk hl => htorn.2 (.inl fun he => ?broken), fun hn => ?torn⟩
  case candidates =>
    rw [h.chain] at hk
    refine ⟨(mem_keys hk).2, ?_⟩
    rw [h.kept i k hk]
  case first =>
    rw [h.chain, List.head?_eq_getElem?] at hk
    rw [h.first, h.durable]
    exact series_first (x := (k, s.entry k)) (by rw [List.head?_eq_getElem?]; exact kept_of_keys_get hk)
  case joined =>
    rw [h.chain] at hk hj
    rw [h.first, h.last]
    exact series_joined (kept_of_keys_get hk) (kept_of_keys_get hj)
  case uncovered =>
    rw [h.chain] at hk
    rw [h.durable, h.last]
    exact left_reaches ((kept_prefix s i).subset (mem_keys hk).1)
  case lastCommitted =>
    rw [h.chain] at hk
    rw [h.last, h.streams]
    show ((s.keptSeries i).getLast?).elim _ _ = _
    rw [kept_last hk]
    rfl
  case emptied =>
    rw [h.chain, State.keys, List.map_eq_nil_iff] at he
    rw [h.durable, h.streams]
    show ((s.keptSeries i).getLast?).elim (s.imageOf i).frontier _ = _
    rw [he]
    rfl
  case scanned =>
    obtain ⟨hlast, hused, hpoisoned, -⟩ := entry_opened hc hr
    exact ⟨(h.last k).trans hlast, (h.bytesUsed k).trans hused, (h.poisoned k).trans hpoisoned, scanMeans s i k⟩
  case dropped =>
    rw [h.chain] at hk
    exact h.dropped hc hk
  case notices =>
    rw [h.notices]
    split
    · exact .inr rfl
    · exact .inl rfl
  case broken =>
    rw [h.chain, he] at hk
    rw [h.durable, h.last] at hl
    exact hk (mem_left_keys.2 (mem_left_of hc hl))
  case torn =>
    rcases htorn.1 hn with hcut | ⟨k, torn, hc, hr, hd⟩
    · obtain ⟨k, hleft, hk⟩ := exists_cut hcut
      refine ⟨k, (mem_ordered.1 ((left_sublist s i).subset hleft)).2, .inr ⟨?_, ?_⟩⟩
      · rwa [h.chain]
      · rw [h.durable, h.last]
        exact left_reaches hleft
    · exact ⟨k, hc, .inl ⟨torn, hr, hd⟩⟩

end Rebuilds

end Sys2Proof.Machine
end

section
/-! The completion of the recovery scan (R145, R148, R154): the anchored values, the events, the places of the segments. Settles O47. -/

namespace Sys2Proof.Machine

-- One proof after the other: the stacks of proofs elaborated side by side come near the memory that a check may take.
set_option Elab.async false

open Sys2Proof

variable {s t : State} {k : DataSeg} {i : StreamId}

/-! ### The state that recovery leaves -/

/-- What recovery leaves of the scan, but for the streams and the segment table. -/
structure State.Completes (s t : State) : Prop extends s.Rebuilds t where
  ledger : t.ledger = (anchorPhase s.array).ledger (sealedAny (anchorPhase s.array) (rebuildAll (anchorPhase s.array) s.scan))
  guard : t.guard = (anchorPhase s.array).guard (s.guard.working == .session)
  lowWater : t.lowWater = (anchorPhase s.array).lowWater
  pool : t.pool = t.segmentsAt .pool
  reclaim : t.reclaim = t.segmentsAt .reclaim
  below : t.poolBelow = t.poolSide
  latch : ∀ n, t.eventLatch.getLsbD n = (n == 11 || ((List.finRange 8).any (fun i => (s.found i).torn) && n == 12)
    || ((anchorPhase s.array).current.isNone && n == 13))
  selected : t.Selected s.engine.preempted
  rest : { t with streams := s.streams, segments := s.segments, pool := s.pool, reclaim := s.reclaim, engine := s.engine
                  ledger := s.ledger, guard := s.guard, lowWater := s.lowWater, poolBelow := s.poolBelow
                  eventLatch := s.eventLatch }
    = { s with power := .active, staging := [], vaultLocks := s.lockCells, freeIndex := s.freeIndex + 1 }

theorem rebuiltBy_poolBelow (a : Anchored) (all : List (DataSeg × Scanned)) (r : Vector Rebuilt 8) (s : State) :
    (s.rebuiltBy a all r).poolBelow = (s.rebuiltBy a all r).poolSide := by
  unfold State.rebuiltBy
  generalize (s.rebuild a all r).recoveryEvents (r.toList.any fun x => x.torn) a.current.isNone = v
  rfl

theorem any_torn (s : State) : ((rebuildAll (anchorPhase s.array) s.scan).toList.any fun x => x.torn)
    = (List.finRange 8).any fun i => (s.found i).torn := by
  rw [Bool.eq_iff_iff, List.any_eq_true, List.any_eq_true]
  constructor
  · rintro ⟨x, hx, ht⟩
    obtain ⟨n, hn, rfl⟩ := Vector.mem_iff_getElem.1 (Vector.mem_toList_iff.1 hx)
    exact ⟨⟨n, hn⟩, List.mem_finRange _, by rw [← rebuildAll_get]; exact ht⟩
  · rintro ⟨i, -, ht⟩
    rw [← rebuildAll_get] at ht
    exact ⟨_, Vector.mem_toList_iff.2 (Vector.getElem_mem i.isLt), ht⟩

theorem completes (s : State) : s.Completes s.recovered := by
  rw [State.recovered_eq, State.rebuilt, ← scan_eq]
  obtain ⟨latch, below, hu, hlatch⟩ := rebuiltBy_eq (anchorPhase s.array) s.scan (rebuildAll (anchorPhase s.array) s.scan) s
  have hbelow := rebuiltBy_poolBelow (anchorPhase s.array) s.scan (rebuildAll (anchorPhase s.array) s.scan) s
  generalize s.rebuiltBy (anchorPhase s.array) s.scan (rebuildAll (anchorPhase s.array) s.scan) = u at *
  have hst : u.staging = [] := by rw [hu]
  have hsel := select_selected u
  have hen : u.engine = s.engine := by rw [hu]
  have hsegs : ∀ k : DataSeg, u.segments[k]'k.isLt = if ∃ i, k ∈ s.keys i then { (s.entry k).seg with location := .chain }
      else (s.entry k).seg := fun k => by
    rw [← rebuiltSegments_get, hu]
  rw [hen] at hsel
  have ht := select_of_unstaged hst
  generalize u.select.engine = e at ht
  rw [ht] at hsel ⊢
  refine ⟨⟨fun i => ?_, fun i k hk => ?_, fun k hk => ?_⟩, ?_, ?_, ?_, ?_, ?_, hbelow, fun n => ?_, hsel, ?_⟩
  · show u.streams[i]'i.isLt = _
    rw [hu]
    refine (sidedStreams_get _ _ i).trans ?_
    rw [rebuildAll_get]
    rfl
  · exact (hsegs k).trans (if_pos ⟨i, hk⟩)
  · exact (hsegs k).trans (if_neg fun ⟨i, hi⟩ => hk i hi)
  · show u.ledger = _
    rw [hu]
  · show u.guard = _
    rw [hu]
  · show u.lowWater = _
    rw [hu]
  · show u.pool = segmentsIn u.segments .pool
    rw [hu]
  · show u.reclaim = segmentsIn u.segments .reclaim
    rw [hu]
  · show u.eventLatch.getLsbD n = _
    rw [hu, ← any_torn]
    exact hlatch n
  · rw [hu]

/-! ### The anchored values (R37, R134, R145, R148) -/

theorem sealCorrected_iff {v : StreamImage} {q : Nat} :
    sealCorrected v q = true ↔ (v.state = .idle ∨ v.state = .opened) ∧ q = 0xFFFFFFFE := by
  unfold sealCorrected
  rw [Bool.and_eq_true, Bool.or_eq_true, beq_iff_eq, beq_iff_eq, beq_iff_eq]
  exact Iff.rfl

theorem anchorPhase_unanchored {m : Memory} (h : (anchorPhase m).current = none) : anchorPhase m = Anchored.default := by
  unfold anchorPhase at h ⊢
  split at h
  · rfl
  · cases h
  · cases h
  · split at h <;> cases h

section Completes

variable (h : s.Completes t)

include h

theorem State.Completes.lastCommitted (i : StreamId) :
    (t.streams[i]'i.isLt).lastCommitted = (s.found i).lastCommitted (s.imageOf i).frontier := by
  rw [h.streams i]
  rfl

theorem State.Completes.sealedAny_iff : sealedAny (anchorPhase s.array) (rebuildAll (anchorPhase s.array) s.scan) = true
    ↔ ∃ i : StreamId, ((s.imageOf i).state = .idle ∨ (s.imageOf i).state = .opened)
      ∧ (t.streams[i]'i.isLt).lastCommitted = 0xFFFFFFFE := by
  unfold sealedAny
  rw [List.any_eq_true]
  refine ⟨fun ⟨i, _, hi⟩ => ⟨i, ?_⟩, fun ⟨i, hi⟩ => ⟨i, List.mem_finRange i, ?_⟩⟩
  · rw [h.lastCommitted, ← sealCorrected_iff, ← rebuildAll_get]
    exact hi
  · rw [h.lastCommitted, ← sealCorrected_iff, ← rebuildAll_get] at hi
    exact hi

theorem State.Completes.anchored : t.AnchoredTo (anchorPhase s.array) where
  current := by rw [h.ledger]; rfl
  nextFree := by rw [h.ledger]; rfl
  generation := by rw [h.ledger]; rfl
  anchorErases := by rw [h.ledger]; rfl
  imageNeeded := by
    refine Iff.trans ?_ (or_congr_right h.sealedAny_iff)
    rw [h.ledger, ← Option.isNone_iff_eq_none, ← Bool.or_eq_true]
    exact Iff.rfl
  state i := by
    refine Eq.trans ?_ (if_congr (sealCorrected_iff (v := s.imageOf i)) rfl rfl)
    rw [h.lastCommitted, h.streams i]
    rfl
  policy i := by rw [h.streams i]; rfl
  quota i := by rw [h.streams i]; rfl
  highWater i := by rw [h.streams i]; rfl
  backlog i := by rw [h.streams i]; rfl
  epoch i := by rw [h.streams i]; rfl
  durableFrontier i := by rw [h.streams i]; rfl
  lockMode := by rw [h.guard]; rfl
  appendLocks := by rw [h.guard]; rfl
  formatInhibit := by rw [h.guard]; rfl
  lowWater := h.lowWater

/-- With no current anchor segment the defaults stand, and no segment is a candidate (R145). -/
theorem State.Completes.unanchored (hc : t.ledger.current = none) :
    t.AnchoredTo Anchored.default ∧ ∀ i : StreamId, (t.streams[i]'i.isLt).chain = [] := by
  have hcur : (anchorPhase s.array).current = none := h.anchored.current.symm.trans hc
  refine ⟨anchorPhase_unanchored hcur ▸ h.anchored, fun i => ?_⟩
  rw [h.toRebuilds.chain, List.eq_nil_iff_forall_not_mem]
  exact fun k hk => (mem_keys hk).2.1 hcur

/-! ### The places of the segments (R149) -/

theorem State.Completes.places (k : DataSeg) : (t.segments[k]'k.isLt).release = none
    ∧ ((t.segments[k]'k.isLt).location = .chain ∧ (∃ i, k ∈ s.keys i)
      ∨ ((t.segments[k]'k.isLt).location = .pool ∨ (t.segments[k]'k.isLt).location = .reclaim
          ∨ (t.segments[k]'k.isLt).location = .retired)
        ∧ ∀ i, k ∉ s.keys i) := by
  have hentry : (s.entry k).seg.release = none ∧ ((s.entry k).seg.location = .pool ∨ (s.entry k).seg.location = .reclaim
      ∨ (s.entry k).seg.location = .retired) := by
    cases hm : (readHeader (s.headerOf k)).measured with
    | none =>
      obtain ⟨-, hr, hl⟩ := scanEntry_settled (draw := s.freeIndex) hm
      exact ⟨hr, hl⟩
    | some x =>
      have hx := scanEntry_measured (draw := s.freeIndex) hm
      have hleaves : x.1.leaves = .reclaim ∨ x.1.leaves = .retired := by
        unfold HeaderState.leaves
        split
        · exact .inr rfl
        · exact .inl rfl
      exact ⟨hx.release, .inr (hleaves.imp hx.location.trans hx.location.trans)⟩
  by_cases hk : ∃ i, k ∈ s.keys i
  · obtain ⟨i, hi⟩ := hk
    rw [h.kept i k hi]
    exact ⟨hentry.1, .inl ⟨rfl, i, hi⟩⟩
  · have hn : ∀ i, k ∉ s.keys i := fun i hi => hk ⟨i, hi⟩
    rw [h.other k hn]
    exact ⟨hentry.1, .inr ⟨hentry.2, hn⟩⟩

/-- Every data segment has its place, with none under erasure. -/
theorem State.Completes.placed : t.PlacedWith none where
  pool_nodup := by
    rw [h.pool]
    exact (List.nodup_finRange _).filter _
  reclaim_nodup := by
    rw [h.reclaim]
    exact (List.nodup_finRange _).filter _
  chain_nodup i := by
    rw [h.toRebuilds.chain]
    exact (left_keys_nodup s i).sublist (keys_prefix s i).sublist
  each k := by
    obtain ⟨hrelease, hplace⟩ := h.places k
    have howner : ∀ i, k ∈ s.keys i → (t.segments[k]'k.isLt).owner = some i := fun i hi => by
      rw [h.toRebuilds.owner]
      exact ((isCandidate_iff (draw := s.freeIndex)).1 (mem_keys hi).2).2
    refine ⟨?_, ?_, fun i => ?_, fun hl => ?_, ?_, ?_⟩
    · rw [h.pool, mem_segmentsAt]
    · rw [h.reclaim, mem_segmentsAt]
    · rw [h.toRebuilds.chain]
      rcases hplace with ⟨hl, j, hj⟩ | ⟨hl, hn⟩
      · exact ⟨fun hi => ⟨hl, howner i hi⟩, fun ⟨_, ho⟩ => Option.some.inj ((howner j hj).symm.trans ho) ▸ hj⟩
      · exact ⟨fun hi => absurd hi (hn i), fun ⟨hc, _⟩ => by rw [hc] at hl; simp at hl⟩
    · rcases hplace with ⟨-, j, hj⟩ | ⟨hn, -⟩
      · rw [howner j hj]
        simp
      · rw [hl] at hn
        simp at hn
    · rw [hrelease]
      rcases hplace with ⟨hl, -⟩ | ⟨hl | hl | hl, -⟩ <;> rw [hl] <;> simp
    · rcases hplace with ⟨hl, -⟩ | ⟨hl | hl | hl, -⟩ <;> rw [hl] <;> simp

end Completes

/-! ### The completion (R154) -/

/-- With nothing in the lowest 8 KiB no anchor segment is valid (R134). -/
theorem anchorPhase_erased {m : Memory} (h : ∀ x ∈ m, 8192 ≤ x.1) : (anchorPhase m).current = none := by
  have hread : ∀ b : AnchorSeg, readAnchor m b = none := fun b => readAnchor_erased fun x hx => by
    have hlow := h x hx
    have hb := b.isLt
    unfold Config.segmentBytes
    omega
  unfold anchorPhase
  rw [hread, hread]
  rfl

/-- The device that has recovered is sound, and every data segment has its place. -/
theorem recovered_sound (hp : s.power = .recovering) (hs : s.engineSound = true) :
    s.recovered.engineSound = true ∧ s.recovered.Placed := by
  obtain ⟨hsound, hidle⟩ := idle_of_engineSound hs (by rw [hp]; simp)
  have hok := engineOk_recovered hsound
  have hc := completes s
  have hpower : s.recovered.power = .active := congrArg State.power hc.rest
  refine ⟨hok.engineSound hpower, (placed_iff hok.sound).2 ?_⟩
  have hslot : s.engine.preempted = none := by
    by_contra hn
    exact ((Engine.sound_iff.1 hsound).2.2.2 hn).1 ((Engine.sound_iff.1 hsound).1.1 hidle)
  obtain ⟨herase, hfirst⟩ := hc.selected.erasing (Engine.sound_slot hsound)
  refine ⟨?_, hfirst⟩
  rw [herase, hslot]
  exact hc.placed

/-- Settles O47: the scan's streams and segment table, the anchored values, the events, and the selection at its end. -/
theorem recoveryCompletes : Obligations.RecoveryCompletes := by
  intro s hp
  have h := completes s
  have hrest := h.rest
  have hnotices := h.toRebuilds.torn_iff
  refine ⟨s.recovered, if_pos hp, congrArg State.power hrest, ?port, ?array, ?vault, ?lockCells, ?vaultLocks,
    congrArg State.staging hrest, ?eventEnable, ?done, ?torn, ?fault, fun b hb => ?events, h.pool, h.reclaim, fun k => ?places,
    fun i => ?streams, ?below, ?working, ?captured, ?halted, ?notes, h.selected, h.anchored, h.unanchored, fun he => ?erased,
    fun a c g note hi hr => anchorPhase_holds hi hr ▸ h.anchored, segmentScanned h.toRebuilds, streamRebuilt h.toRebuilds,
    recovered_sound hp⟩
  case port =>
    have hkept := congrArg State.port hrest
    exact hkept
  case array =>
    have hkept := congrArg State.array hrest
    exact hkept
  case vault =>
    have hkept := congrArg State.vault hrest
    exact hkept
  case lockCells =>
    have hkept := congrArg State.lockCells hrest
    exact hkept
  case vaultLocks =>
    have hkept := congrArg State.vaultLocks hrest
    exact hkept
  case eventEnable =>
    have hkept := congrArg State.eventEnable hrest
    exact hkept
  case done => simp [h.latch]
  case torn =>
    rw [h.latch 12]
    simp only [hnotices]
    simp
  case fault =>
    rw [h.latch 13, h.anchored.current]
    simp
  case events =>
    rw [h.latch] at hb
    simp at hb
    omega
  case places =>
    obtain ⟨-, ⟨hl, -⟩ | ⟨hl | hl | hl, -⟩⟩ := h.places k <;> rw [hl] <;> simp
  case streams =>
    rw [h.streams i]
    exact ⟨rfl, rfl, rfl, rfl, rfl, rfl, rfl, rfl, rfl⟩
  case below => exact h.below
  case working =>
    rw [h.guard]
    show (if (s.guard.working == .session) = true then LockMode.session else _) = _
    simp only [beq_iff_eq]
    rfl
  case captured =>
    rw [h.ledger]
    rfl
  case halted =>
    rw [h.ledger]
    rfl
  case notes =>
    rw [h.ledger, Ledger.lowestNote, List.find?_eq_none]
    simp [Anchored.ledger]
  case erased =>
    rw [h.anchored.current]
    exact anchorPhase_erased he

end Sys2Proof.Machine
end

section
/-! The invariants right after reset, and once recovery has completed on it (R147, R162). Settles O3. -/

namespace Sys2Proof.Machine

-- One proof after the other: the stacks of proofs elaborated side by side come near the memory that a check may take.
set_option Elab.async false

open Sys2Proof

variable {s t : State}

/-- The selection never takes a FORMAT job (R111). -/
theorem State.Selected.formatRuns {slot : Option (DataSeg × Nat)} (h : t.Selected slot) : t.engine.formatRuns = false := by
  have hjob : ∀ j, t.engine.job = j → (∀ b w, j ≠ some (.format b w)) → t.engine.formatRuns = false := by
    rintro j rfl hj
    unfold Engine.formatRuns
    split
    · exact absurd (by assumption) (hj _ _)
    · rfl
  by_cases ht : t.ledger.trigger = true
  · obtain ⟨-, -, w, -, hj⟩ := h.ledger ht
    exact hjob _ hj (by simp)
  rw [Bool.not_eq_true] at ht
  by_cases hst : t.staging = []
  · rcases hsl : slot with _ | ⟨k, n⟩
    · cases hr : t.reclaim with
      | nil => exact hjob _ (h.idle ht hst hsl hr).2.2 (by simp)
      | cons k ks => exact hjob _ (h.reclaim ht hst hsl k ks hr).2.2 (by simp)
    · exact hjob _ (h.preempted ht hst k n hsl).2.2 (by simp)
  · obtain ⟨c, hj⟩ := (h.commit ht hst).2.2.job
    exact hjob _ hj (by simp)

/-- Without a chain the last committed sequence is the frontier (R153). -/
theorem lastCommitted_of_empty {i : StreamId} (h : s.keptSeries i = []) :
    (s.found i).lastCommitted (s.imageOf i).frontier = (s.imageOf i).frontier := by
  show ((s.keptSeries i).getLast?).elim (s.imageOf i).frontier _ = _
  rw [h]
  rfl

theorem exec_recoveryComplete (h : s.power = .recovering) : exec .recoveryComplete s = .next s.recovered := if_pos h

theorem recovered_power (s : State) : s.recovered.power = .active := congrArg State.power (completes s).rest

theorem reset_array : State.reset.array = [] := rfl

/-- With no current anchor segment recovery leaves empty chains, and with no verdict at hand the relations of R29 hold. -/
theorem recovered_related (hc : s.recovered.ledger.current = none) (hn : s.port.snapshot = none) : s.recovered.Related := by
  have h := completes s
  have hchain := (h.unanchored hc).2
  have hrest := h.rest
  have hstaging : s.recovered.staging = [] := congrArg State.staging hrest
  have hport : s.recovered.port = s.port := by
    have hkept := congrArg State.port hrest
    exact hkept
  have hcounts : ∀ i : StreamId, (s.recovered.streams[i]'i.isLt).volatileFrontier = (s.imageOf i).frontier
      ∧ (s.recovered.streams[i]'i.isLt).durableFrontier = (s.imageOf i).frontier
      ∧ (s.recovered.streams[i]'i.isLt).nextSeq = (s.recovered.streams[i]'i.isLt).lastCommitted + 1
      ∧ (s.recovered.streams[i]'i.isLt).cursor = (s.imageOf i).frontier + 1 := fun i => by
    rw [h.streams i]
    exact ⟨rfl, rfl, rfl, rfl⟩
  refine related_iff.2 ⟨fun i => ⟨?ordered, ?staged, fun k hk => ?chained, fun c hcap => ?captured⟩, fun n b f c w i hv => ?fetching⟩
  case ordered =>
    have hkeys : s.keptSeries i = [] := by
      have hk := hchain i
      rwa [h.toRebuilds.chain, State.keys, List.map_eq_nil_iff] at hk
    have hlast := lastCommitted_of_empty hkeys
    rw [← h.lastCommitted] at hlast
    obtain ⟨hvolatile, hdurable, hnext, hcursor⟩ := hcounts i
    rw [Stream.ordered_iff]
    omega
  case staged =>
    obtain ⟨-, -, hnext, -⟩ := hcounts i
    have hzero : (s.recovered.streams[i]'i.isLt).nextSeq - ((s.recovered.streams[i]'i.isLt).lastCommitted + 1) = 0 := by omega
    unfold State.stagedInOrder State.stagedOf
    rw [hstaging, hzero]
    rfl
  case chained =>
    rw [hchain i] at hk
    cases hk
  case captured =>
    rw [h.ledger] at hcap
    cases hcap
  case fetching =>
    rw [hport, hn] at hv
    cases hv

/-- Settles O3: reset by its values, the completed recovery by what a completion leaves on an array with nothing in it. -/
theorem invariantsHoldAtReset : Obligations.InvariantsHoldAtReset := by
  have hsound : State.reset.engineSound = true := rfl
  obtain ⟨hs, hplaced⟩ := recovered_sound (s := State.reset) rfl hsound
  have h := completes State.reset
  have hcurrent : State.reset.recovered.ledger.current = none :=
    h.anchored.current.trans (anchorPhase_erased fun x hx => by
      rw [reset_array] at hx
      cases hx)
  have hpower : State.reset.recovered.power = .active := recovered_power _
  refine ⟨rfl, rfl, hsound, _, exec_recoveryComplete rfl, by rw [hpower]; rfl, h.selected.formatRuns, hs, hplaced,
      recovered_related hcurrent rfl⟩

end Sys2Proof.Machine
end

section
/-! FORMAT on the data segments (R157): the segments that it passes over, and the steps of the others. Settles O59. -/

namespace Sys2Proof.Machine

-- One proof after the other: the stacks of proofs elaborated side by side come near the memory that a check may take.
set_option Elab.async false

open Sys2Proof

variable {s t u : State}

/-! ### Segments that join the retired list without a pulse (R157) -/

/-- The segments chosen have left pool, reclaim queue and chains for the retired list, and nothing else has changed but the event
latch. -/
structure State.Passed (p : DataSeg → Bool) (s t : State) : Prop where
  segments : ∀ j : DataSeg, t.segments[j]'j.isLt
    = if p j then { (s.segments[j]'j.isLt) with location := .retired, release := none } else s.segments[j]'j.isLt
  pool : t.pool = s.pool.filter fun j => !p j
  chain : ∀ i : StreamId, (t.streams[i]'i.isLt).chain = (s.streams[i]'i.isLt).chain.filter fun j => !p j
  stream : ∀ i : StreamId, { (t.streams[i]'i.isLt) with chain := (s.streams[i]'i.isLt).chain } = s.streams[i]'i.isLt
  raised : t.eventLatch.getLsbD 8 = (s.eventLatch.getLsbD 8 || (List.finRange 510).any p)
  rest : t = { s with
    segments := t.segments, pool := t.pool, reclaim := t.reclaim, streams := t.streams, eventLatch := t.eventLatch }

theorem any_or {α : Type} (l : List α) (p q : α → Bool) : (l.any p || l.any q) = l.any fun a => p a || q a := by
  rw [Bool.eq_iff_iff]
  simp only [Bool.or_eq_true, List.any_eq_true, ← exists_or, ← and_or_left]

theorem State.Passed.refl (s : State) : State.Passed (fun _ => false) s s where
  segments _ := rfl
  pool := by simp
  chain _ := by simp
  stream _ := rfl
  raised := by simp
  rest := rfl

theorem State.Passed.congr {p q : DataSeg → Bool} (h : State.Passed p s t) (e : ∀ j, p j = q j) : State.Passed q s t :=
  (funext e : p = q) ▸ h

theorem State.Passed.trans {p q : DataSeg → Bool} (h : State.Passed p s t) (h' : State.Passed q t u) :
    State.Passed (fun j => p j || q j) s u where
  segments j := by
    rw [h'.segments, h.segments]
    cases p j <;> cases q j <;> rfl
  pool := by
    rw [h'.pool, h.pool, List.filter_filter]
    simp [Bool.and_comm]
  chain i := by
    rw [h'.chain, h.chain, List.filter_filter]
    simp [Bool.and_comm]
  stream i := by
    have h1 := h.stream i
    rw [← h'.stream i] at h1
    exact h1
  raised := by
    rw [h'.raised, h.raised, Bool.or_assoc, any_or]
  rest := by
    have h1 := h'.rest
    rw [h.rest] at h1
    exact h1

theorem State.passed_retire (s : State) (k : DataSeg) : State.Passed (· == k) s ((s.unlist k).retire k) where
  segments j := by
    unfold State.retire
    rw [State.raise_segments]
    by_cases hj : j = k
    · subst hj
      rw [State.updSegment_same]
      simp [State.unlist]
    · rw [State.updSegment_other _ k j _ (Ne.symm hj), beq_false_of_ne hj]
      rfl
  pool := rfl
  chain i := congrArg Stream.chain (tabulate_get _ i)
  stream i := by
    have h : (((s.unlist k).retire k).streams[i]'i.isLt)
      = { (s.streams[i]'i.isLt) with chain := (s.streams[i]'i.isLt).chain.filter (· != k) } := tabulate_get _ i
    rw [h]
  raised := by
    have hk : (List.finRange 510).any (· == k) = true := by simp
    rw [State.retire, State.raise_getLsbD, hk, Bool.or_true]
    simp [Event.bit]
  rest := rfl

/-! ### The segments on FORMAT's way (R157) -/

/-- Of a list of segments, those that FORMAT takes to the retired list on its way to the first that it erases. -/
def State.passes (s : State) (ks : List DataSeg) (j : DataSeg) : Bool :=
  decide (j ∈ ks.takeWhile fun n => (s.segments[n]'n.isLt).notErased) && (s.segments[j]'j.isLt).location != .retired

theorem State.passes_cons {k j : DataSeg} {ks : List DataSeg} (h : (s.segments[k]'k.isLt).notErased = true) :
    s.passes (k :: ks) j = ((j == k && (s.segments[j]'j.isLt).location != .retired) || s.passes ks j) := by
  unfold State.passes
  rw [List.takeWhile_cons, h, if_pos rfl, ← Bool.and_or_distrib_right]
  simp [beq_eq_decide]

/-- FORMAT takes the segments that it passes over to the retired list. -/
theorem State.formatNext_passed (ks : List DataSeg) (s : State) : State.Passed (s.passes ks) s (s.formatNext ks).1 := by
  induction ks generalizing s with
  | nil => exact (State.Passed.refl s).congr fun j => by simp [State.passes]
  | cons k ks ih =>
    unfold State.formatNext
    split
    case isTrue h =>
      refine (ih s).congr fun j => ?_
      rw [State.passes_cons (Segment.notErased_iff.2 (.inl h))]
      by_cases hj : j = k
      · subst hj
        simp [State.passes, h, -Fin.getElem_fin]
      · rw [beq_false_of_ne hj]
        rfl
    case isFalse h =>
      split
      case isTrue hp =>
        refine ((s.passed_retire k).trans (ih _)).congr fun j => ?_
        rw [State.passes_cons (Segment.notErased_iff.2 (.inr hp))]
        unfold State.passes
        simp only [State.retire_notErased hp]
        by_cases hj : j = k
        · subst hj
          simp [h, -Fin.getElem_fin]
        · rw [(s.passed_retire k).segments, beq_false_of_ne hj]
          rfl
      case isFalse hp =>
        refine (State.Passed.refl s).congr fun j => ?_
        have hn : (s.segments[k]'k.isLt).notErased = false := by
          rw [Bool.eq_false_iff, ne_eq, Segment.notErased_iff]
          exact not_or.2 ⟨h, hp⟩
        simp [State.passes, hn, -Fin.getElem_fin]

/-- An ascending list reaches a member just where all up to it go on. -/
theorem mem_takeWhile_ascending {n : Nat} {p : Fin n → Bool} {l : List (Fin n)} (h : l.Pairwise (· < ·)) {j : Fin n} :
    j ∈ l.takeWhile p ↔ j ∈ l ∧ ∀ m ∈ l, m ≤ j → p m = true := by
  induction l with
  | nil => simp
  | cons k l ih =>
    rw [List.pairwise_cons] at h
    cases hk : p k with
    | false =>
      rw [List.takeWhile_cons_of_neg (by simp [hk])]
      refine iff_of_false (by simp) fun ⟨hj, hall⟩ => ?_
      have := hall k List.mem_cons_self ((List.mem_cons.1 hj).elim (fun e => e ▸ le_refl k) fun hj => le_of_lt (h.1 j hj))
      rw [hk] at this
      cases this
    | true =>
      rw [List.takeWhile_cons_of_pos hk, List.mem_cons, List.mem_cons, ih h.2]
      constructor
      · rintro (rfl | ⟨hj, hall⟩)
        · refine ⟨.inl rfl, fun m hm hle => ?_⟩
          rcases List.mem_cons.1 hm with rfl | hm
          · exact hk
          · exact absurd (h.1 m hm) (not_lt_of_ge hle)
        · refine ⟨.inr hj, fun m hm hle => ?_⟩
          rcases List.mem_cons.1 hm with rfl | hm
          · exact hk
          · exact hall m hm hle
      · rintro ⟨rfl | hj, hall⟩
        · exact .inl rfl
        · exact .inr ⟨hj, fun m hm => hall m (List.mem_cons_of_mem _ hm)⟩

theorem mem_allSegments_drop {start : Nat} {j : DataSeg} : j ∈ allSegments.drop start ↔ start ≤ j.val := by
  rw [allSegments, List.mem_drop_iff_getElem]
  constructor
  · rintro ⟨i, hi, rfl⟩
    simp
  · intro h
    exact ⟨j.val - start, by have := j.isLt; simp; omega, by ext; simp; omega⟩

theorem allSegments_drop_ascending (start : Nat) : (allSegments.drop start).Pairwise (· < ·) :=
  (List.pairwise_lt_finRange 510).sublist (List.drop_sublist _ _)

/-- On its way from an index on, FORMAT takes just the segments to the retired list that the statement names. -/
theorem State.passes_drop (s : State) (start : Nat) (j : DataSeg) : s.passes (allSegments.drop start) j = s.passedOver start j := by
  rw [Bool.eq_iff_iff]
  simp only [State.passes, State.passedOver, Bool.and_eq_true, Bool.or_eq_true, decide_eq_true_eq, List.all_eq_true,
    mem_takeWhile_ascending (allSegments_drop_ascending start), mem_allSegments_drop, List.mem_finRange, true_implies,
    Fin.getElem_fin]
  constructor
  · rintro ⟨⟨hj, hall⟩, hloc⟩
    refine ⟨⟨hj, hloc⟩, fun n => ?_⟩
    rcases Nat.lt_or_ge n.val start with h | h
    · exact .inl (.inl h)
    · rcases lt_or_ge j n with h' | h'
      · exact .inl (.inr h')
      · exact .inr (hall n h h')
  · rintro ⟨⟨hj, hloc⟩, hall⟩
    exact ⟨⟨hj, fun n h h' => (hall n).resolve_left fun e => e.elim (fun e => absurd e (Nat.not_lt_of_ge h))
      fun e => absurd e (not_lt_of_ge h')⟩, hloc⟩

theorem State.formatNext_drop (s : State) (start : Nat) :
    State.Passed (s.passedOver start) s (s.formatNext (allSegments.drop start)).1 :=
  State.Passed.congr (p := s.passes (allSegments.drop start)) (q := s.passedOver start) (s.formatNext_passed _) (s.passes_drop start)

theorem State.formatNext_all (s : State) : State.Passed (s.passedOver 0) s (s.formatNext allSegments).1 := by
  have h := s.formatNext_drop 0
  rwa [List.drop_zero] at h

/-- What FORMAT passes over depends on the segments from the index on alone. -/
theorem State.passedOver_congr {start : Nat} (h : ∀ n : DataSeg, start ≤ n.val →
      (t.segments[n]'n.isLt).notErased = (s.segments[n]'n.isLt).notErased
        ∧ ((t.segments[n]'n.isLt).location != .retired) = ((s.segments[n]'n.isLt).location != .retired)) (j : DataSeg) :
    t.passedOver start j = s.passedOver start j := by
  unfold State.passedOver
  rcases Nat.lt_or_ge j.val start with hj | hj
  · simp [Nat.not_le_of_gt hj]
  · have hall : (fun n : DataSeg => decide (n.val < start) || decide (j < n) || (t.segments[n]'n.isLt).notErased)
        = fun n : DataSeg => decide (n.val < start) || decide (j < n) || (s.segments[n]'n.isLt).notErased := by
      funext n
      rcases Nat.lt_or_ge n.val start with hn | hn
      · rw [decide_eq_true hn, Bool.true_or, Bool.true_or, Bool.true_or]
      · rw [(h n hn).1]
    rw [hall, (h j hj).2]

theorem State.passedOver_below {start : Nat} {j : DataSeg} (h : j.val < start) : s.passedOver start j = false := by
  simp [State.passedOver, Nat.not_le_of_gt h]

theorem State.passedOver_notErased {start : Nat} {j : DataSeg} (h : s.passedOver start j = true) :
    (s.segments[j]'j.isLt).location ≠ .retired ∧ (s.segments[j]'j.isLt).header = .retirePending := by
  simp only [State.passedOver, Bool.and_eq_true, Bool.or_eq_true, decide_eq_true_eq, List.all_eq_true, List.mem_finRange,
    true_implies, bne_iff_ne, ne_eq, Fin.getElem_fin] at h
  obtain ⟨⟨hj, hloc⟩, hall⟩ := h
  have hn := (hall j).resolve_left fun e => e.elim (fun e => absurd e (Nat.not_lt_of_ge hj)) (lt_irrefl _)
  exact ⟨hloc, (Segment.notErased_iff.1 hn).resolve_left hloc⟩

/-- The work that FORMAT finds from an index on. -/
theorem State.formatNext_proceeds (s : State) (start : Nat) :
    (∀ n : DataSeg, start ≤ n.val → (∀ j : DataSeg, start ≤ j.val → j < n → (s.segments[j]'j.isLt).notErased = true) →
      (s.segments[n]'n.isLt).notErased = false → (s.formatNext (allSegments.drop start)).2 = .segment n (.pulse 0))
    ∧ ((∀ j : DataSeg, start ≤ j.val → (s.segments[j]'j.isLt).notErased = true) →
      (s.formatNext (allSegments.drop start)).2 = .anchorErase 0) := by
  rw [State.formatNext_work]
  constructor
  · intro n hn hbefore hnot
    cases h : (allSegments.drop start).find? fun k => !(s.segments[k]'k.isLt).notErased with
    | none =>
      have := List.find?_eq_none.1 h n (mem_allSegments_drop.2 hn)
      rw [hnot] at this
      exact absurd rfl this
    | some k =>
      obtain ⟨hk, as, bs, hl, has⟩ := List.find?_eq_some_iff_append.1 h
      have hsorted := hl ▸ allSegments_drop_ascending start
      have hfrom : start ≤ k.val := mem_allSegments_drop.1 (hl ▸ by simp)
      rw [List.pairwise_append, List.pairwise_cons] at hsorted
      rcases List.mem_append.1 (hl ▸ mem_allSegments_drop.2 hn) with hm | hm
      · have := has n hm
        rw [hnot] at this
        cases this
      · rcases List.mem_cons.1 hm with rfl | hm
        · rfl
        · have := hbefore k hfrom (hsorted.2.1.1 n hm)
          rw [this] at hk
          cases hk
  · intro hall
    rw [List.find?_eq_none.2 fun j hj => by rw [hall j (mem_allSegments_drop.1 hj)]; decide]

end Sys2Proof.Machine
end

section
/-! The FORMAT steps on the data segments (R157). Settles O59. -/

namespace Sys2Proof.Machine

-- One proof after the other: the stacks of proofs elaborated side by side come near the memory that a check may take.
set_option Elab.async false

open Sys2Proof

variable {s t u : State}

/-! ### A FORMAT step that leaves work (R157; log 29) -/

/-- FORMAT goes on: the segments chosen have joined the retired list, and the job has the work given. -/
structure State.GoesOn (p : DataSeg → Bool) (w : FormatWork) (s t : State) : Prop where
  segments : ∀ j : DataSeg, t.segments[j]'j.isLt
    = if p j then { (s.segments[j]'j.isLt) with location := .retired, release := none } else s.segments[j]'j.isLt
  pool : t.pool = s.pool.filter fun j => !p j
  chain : ∀ i : StreamId, (t.streams[i]'i.isLt).chain = (s.streams[i]'i.isLt).chain.filter fun j => !p j
  stream : ∀ i : StreamId, { (t.streams[i]'i.isLt) with chain := (s.streams[i]'i.isLt).chain } = s.streams[i]'i.isLt
  raised : t.eventLatch.getLsbD 8 = (s.eventLatch.getLsbD 8 || (List.finRange 510).any p)
  engine : t.engine = { s.engine with job := some (.format true w), resumeLock := false }
  array : t.array = s.array
  ledger : t.ledger = s.ledger
  poolBelow : t.poolBelow = s.poolBelow
  sync : t.sync = s.sync

theorem State.Passed.goesOn {p : DataSeg → Bool} (h : State.Passed p s t) (w : FormatWork) :
    State.GoesOn p w s ((t.setJob (.format true w)).endStep .inside) where
  segments := h.segments
  pool := h.pool
  chain := h.chain
  stream := h.stream
  raised := h.raised
  engine := by
    have he := congrArg State.engine h.rest
    rw [endStep_inside]
    exact congrArg (fun e : Engine => { e with job := some (.format true w), resumeLock := false }) he
  array := by
    have he := congrArg State.array h.rest
    exact he
  ledger := by
    have he := congrArg State.ledger h.rest
    exact he
  poolBelow := by
    have he := congrArg State.poolBelow h.rest
    exact he
  sync := by
    have he := congrArg State.sync h.rest
    exact he

/-- A job that has started passes over no segment here. -/
theorem State.formatOn_started (s : State) (w : FormatWork) :
    s.formatOn true w = { s with engine := { s.engine with job := some (.format true w), resumeLock := false } } := rfl

theorem State.formatOn_goesOn (s : State) (b : Bool) (w : FormatWork) :
    State.GoesOn (fun j => !b && s.passedOver 0 j) w s (s.formatOn b w) := by
  cases b with
  | true => exact ((State.Passed.refl s).congr fun _ => rfl).goesOn w
  | false => exact ((s.formatNext_all).congr fun _ => rfl).goesOn w

theorem State.formatAfter_goesOn (s : State) (k : DataSeg) : State.GoesOn (s.passedOver (k.val + 1))
    (s.formatNext (allSegments.drop (k.val + 1))).2 s (s.formatAfter k) :=
  (s.formatNext_drop (k.val + 1)).goesOn _

theorem formatWhen_due {j : Job} (act : State → State) (h : s.due j = true) : s.formatWhen (s.due j) act = .next (act s) := by
  rw [State.formatWhen, h, if_pos rfl]

/-! ### The erase pulse -/

/-- A segment under FORMAT's erase has left its place. -/
theorem State.formatTake_same (s : State) (k : DataSeg) : ((s.formatTake k).segments[k]'k.isLt)
    = { (s.segments[k]'k.isLt) with location := .erasing, release := none } :=
  State.updSegment_same (s.unlist k) k fun g => { g with location := .erasing, release := none }

theorem State.formatTake_other (s : State) {k j : DataSeg} (h : j ≠ k) :
    ((s.formatTake k).segments[j]'j.isLt) = s.segments[j]'j.isLt :=
  State.updSegment_other (s.unlist k) k j _ (Ne.symm h)

theorem State.formatTake_stream (s : State) (k : DataSeg) (i : StreamId) : ((s.formatTake k).streams[i]'i.isLt)
    = { (s.streams[i]'i.isLt) with chain := (s.streams[i]'i.isLt).chain.filter (· != k) } :=
  tabulate_get _ i

/-- Taking a segment that FORMAT erases leaves what it passes over. -/
theorem State.formatTake_passedOver {k : DataSeg} (hh : (s.segments[k]'k.isLt).header ≠ .retirePending)
    (hl : (s.segments[k]'k.isLt).location ≠ .retired) (j : DataSeg) :
    (s.formatTake k).passedOver 0 j = s.passedOver 0 j := by
  refine State.passedOver_congr (fun n _ => ?_) j
  by_cases hn : n = k
  · subst hn
    have hold : (s.segments[n]'n.isLt).notErased = false := by
      rw [Bool.eq_false_iff, ne_eq, Segment.notErased_iff]
      exact not_or.2 ⟨hl, hh⟩
    have hnew : ((s.formatTake n).segments[n]'n.isLt).notErased = false := by
      rw [Bool.eq_false_iff, ne_eq, Segment.notErased_iff, State.formatTake_same]
      exact not_or.2 ⟨fun e => (by cases e), hh⟩
    refine ⟨hnew.trans hold.symm, ?_⟩
    rw [State.formatTake_same, bne_iff_ne.2 hl]
    rfl
  · rw [State.formatTake_other s hn]
    exact ⟨rfl, rfl⟩

theorem State.formatTake_eraseCount (s : State) (k j : DataSeg) :
    ((s.formatTake k).segments[j]'j.isLt).eraseCount = (s.segments[j]'j.isLt).eraseCount := by
  by_cases h : j = k
  · subst h
    rw [State.formatTake_same]
  · rw [State.formatTake_other s h]

theorem exec_formatErasePulse {r : Residue} {b : Bool} {k : DataSeg} {n : Nat}
    (hd : s.due (.format b (.segment k (.pulse n))) = true) :
    exec (.formatErasePulse r) s = .next (s.formatPulse r b k n) := by
  simp only [exec, execFormatErasePulse, (due_iff.1 hd).2.2, formatWhen_due _ hd]

/-- One erase pulse of a FORMAT job. -/
theorem formatPulse_result {k : DataSeg} {b : Bool} (r : Residue) (n : Nat)
    (hd : s.due (.format b (.segment k (.pulse n))) = true) (hh : (s.segments[k]'k.isLt).header ≠ .retirePending)
    (hl : (s.segments[k]'k.isLt).location ≠ .retired) :
    ∃ t, exec (.formatErasePulse r) s = .next t ∧ t.array = erasePulse s.array k.index r
        ∧ (t.segments[k]'k.isLt) = { (s.segments[k]'k.isLt) with location := .erasing, release := none } ∧ k ∉ t.pool
        ∧ (∀ i : StreamId, k ∉ (t.streams[i]'i.isLt).chain
            ∧ { (t.streams[i]'i.isLt) with chain := (s.streams[i]'i.isLt).chain } = s.streams[i]'i.isLt)
        ∧ t.ledger = s.ledger ∧ t.poolBelow = s.poolBelow ∧ t.sync = s.sync ∧ t.engine.state = s.engine.state
        ∧ (b = true → (∀ j : DataSeg, j ≠ k → (t.segments[j]'j.isLt) = s.segments[j]'j.isLt) ∧ t.pool = s.pool.filter (· != k)
            ∧ t.eventLatch = s.eventLatch
            ∧ ∀ i : StreamId, (t.streams[i]'i.isLt).chain = (s.streams[i]'i.isLt).chain.filter (· != k))
        ∧ (b = false → s.PassesOver t k 0 ∧ t.pool = s.pool.filter (fun j => j != k && !s.passedOver 0 j)
            ∧ t.eventLatch.getLsbD 8 = (s.eventLatch.getLsbD 8 || (List.finRange 510).any (s.passedOver 0))
            ∧ ∀ i : StreamId, (t.streams[i]'i.isLt).chain
              = (s.streams[i]'i.isLt).chain.filter (fun j => j != k && !s.passedOver 0 j))
        ∧ (segmentErased t.array k.index = true → ∃ c, s.CountRaised k c
            ∧ t.engine = { s.engine with job := some (.format true (.segment k (.freeStage c))), resumeLock := false })
        ∧ (segmentErased t.array k.index = false → n < 11 → t.engine
            = { s.engine with job := some (.format true (.segment k (.pulse (n + 1)))), resumeLock := false })
        ∧ (segmentErased t.array k.index = false → 11 ≤ n → t.engine
            = { s.engine with job := some (.format true (.segment k (.retire 0x02 false))), resumeLock := false }) := by
  have hsame := State.formatTake_same { s with array := erasePulse s.array k.index r } k
  have hother := fun j => State.formatTake_other { s with array := erasePulse s.array k.index r } (k := k) (j := j)
  have hstream := State.formatTake_stream { s with array := erasePulse s.array k.index r } k
  have hover : ∀ j, (State.formatTake k { s with array := erasePulse s.array k.index r }).passedOver 0 j = s.passedOver 0 j :=
    State.formatTake_passedOver (s := { s with array := erasePulse s.array k.index r }) hh hl
  have hcount := (countRaised_nextCount (State.formatTake k { s with array := erasePulse s.array k.index r }) k).congr (s := s)
    (State.formatTake_eraseCount { s with array := erasePulse s.array k.index r } k)
  have hk : s.passedOver 0 k = false := by
    rw [Bool.eq_false_iff]
    exact fun h => hh (State.passedOver_notErased h).2
  have hpool : (State.formatTake k { s with array := erasePulse s.array k.index r }).pool = s.pool.filter (· != k) := rfl
  have hrest : (State.formatTake k { s with array := erasePulse s.array k.index r }).engine = s.engine
    ∧ (State.formatTake k { s with array := erasePulse s.array k.index r }).ledger = s.ledger
    ∧ (State.formatTake k { s with array := erasePulse s.array k.index r }).poolBelow = s.poolBelow
    ∧ (State.formatTake k { s with array := erasePulse s.array k.index r }).sync = s.sync
    ∧ (State.formatTake k { s with array := erasePulse s.array k.index r }).eventLatch = s.eventLatch
    ∧ (State.formatTake k { s with array := erasePulse s.array k.index r }).array = erasePulse s.array k.index r :=
    ⟨rfl, rfl, rfl, rfl, rfl, rfl⟩
  refine ⟨_, exec_formatErasePulse hd, ?_⟩
  unfold State.formatPulse
  dsimp only
  generalize State.formatTake k { s with array := erasePulse s.array k.index r } = v at *
  obtain ⟨hengine, hledger, hbelow, hsync, hlatch, harray⟩ := hrest
  have hgo := v.formatOn_goesOn b (.segment k (v.afterPulse k n))
  obtain ⟨hpass, hlast, hnext⟩ := afterPulse_cases v k n
  have hchain : ∀ i : StreamId, (v.streams[i]'i.isLt).chain = (s.streams[i]'i.isLt).chain.filter (· != k) := fun i => by
    rw [hstream]
  have hnot : (!b && v.passedOver 0 k) = false := by rw [hover, hk, Bool.and_false]
  refine ⟨hgo.array.trans harray, ?_, ?_, fun i => ⟨?_, ?_⟩, hgo.ledger.trans hledger, hgo.poolBelow.trans hbelow,
    hgo.sync.trans hsync, ?_, fun hb => ?_, fun hb => ?_, ?_⟩
  · rw [hgo.segments, hnot]
    exact hsame
  · rw [hgo.pool, hpool]
    simp
  · rw [hgo.chain, hchain]
    simp
  · have h1 := hgo.stream i
    rw [hstream] at h1
    exact congrArg (fun x : Stream => { x with chain := (s.streams[i]'i.isLt).chain }) h1
  · rw [hgo.engine, hengine]
  · subst hb
    exact ⟨fun j hj => hother j hj, hpool, hlatch, hchain⟩
  · subst hb
    refine ⟨⟨fun j hj => ?_, fun j hj hp => ?_⟩, ?_, ?_, fun i => ?_⟩
    · have hne : j ≠ k := by
        rintro rfl
        rw [hk] at hj
        cases hj
      have h1 := hgo.segments j
      rw [hover, hj, hother j hne] at h1
      exact h1
    · have h1 := hgo.segments j
      rw [hover, hp, hother j hj] at h1
      exact h1
    · rw [hgo.pool, hpool, List.filter_filter]
      simp only [hover, Bool.not_false, Bool.true_and, Bool.and_comm]
    · rw [hgo.raised, hlatch]
      simp only [hover, Bool.not_false, Bool.true_and]
    · rw [hgo.chain, hchain, List.filter_filter]
      simp only [hover, Bool.not_false, Bool.true_and, Bool.and_comm]
  · rw [hgo.array, hgo.engine, hengine]
    refine ⟨fun h => ⟨_, hcount, by rw [hpass h]⟩, fun h hn => by rw [hnext h hn], fun h hn => by rw [hlast h hn]⟩

/-! ### The free stage and the retire write -/

/-- Once a segment is disposed of, the job goes on with those after it; `v` is the state of its disposal. -/
structure State.GoesAfter (k : DataSeg) (s v t : State) : Prop where
  pool : t.pool = v.pool.filter fun j => !s.passedOver (k.val + 1) j
  chain : ∀ i : StreamId, (t.streams[i]'i.isLt).chain
    = (s.streams[i]'i.isLt).chain.filter fun j => !s.passedOver (k.val + 1) j
  stream : ∀ i : StreamId, { (t.streams[i]'i.isLt) with chain := (s.streams[i]'i.isLt).chain } = s.streams[i]'i.isLt
  segment : t.segments[k]'k.isLt = v.segments[k]'k.isLt
  raised : t.eventLatch.getLsbD 8 = (v.eventLatch.getLsbD 8 || (List.finRange 510).any (s.passedOver (k.val + 1)))
  passes : s.PassesOver t k (k.val + 1)
  proceeds : s.FormatProceeds t (k.val + 1)
  job : ∃ w, t.engine.job = some (.format true w)
  state : t.engine.state = s.engine.state
  array : t.array = v.array
  ledger : t.ledger = v.ledger
  poolBelow : t.poolBelow = v.poolBelow
  sync : t.sync = v.sync

theorem State.formatAfter_goesAfter {v : State} {k : DataSeg}
    (hseg : ∀ j : DataSeg, j ≠ k → v.segments[j]'j.isLt = s.segments[j]'j.isLt) (hstreams : v.streams = s.streams)
    (he : v.engine = s.engine) : State.GoesAfter k s v (v.formatAfter k) := by
  have hgo := v.formatAfter_goesOn k
  have hne : ∀ j : DataSeg, k.val + 1 ≤ j.val → j ≠ k := fun j hj e => by
    rw [e] at hj
    omega
  have hover : ∀ j, v.passedOver (k.val + 1) j = s.passedOver (k.val + 1) j :=
    State.passedOver_congr fun n hn => by
      rw [hseg n (hne n hn)]
      exact ⟨rfl, rfl⟩
  obtain ⟨hwork, hanchors⟩ := v.formatNext_proceeds (k.val + 1)
  have hk : s.passedOver (k.val + 1) k = false := State.passedOver_below (Nat.lt_succ_self _)
  refine {
    pool := by rw [hgo.pool]; simp only [hover]
    chain := fun i => by rw [hgo.chain, hstreams]; simp only [hover]
    stream := fun i => by
      have h1 := hgo.stream i
      rw [hstreams] at h1
      exact h1
    segment := by rw [hgo.segments, hover, hk]; rfl
    raised := by rw [hgo.raised, funext hover]
    passes := ⟨fun j hj => ?_, fun j hj hp => ?_⟩
    proceeds := ⟨fun n hn hbefore hnot => ?_, fun hall => ?_⟩
    job := ⟨_, by rw [hgo.engine]⟩
    state := by rw [hgo.engine, he]
    array := hgo.array
    ledger := hgo.ledger
    poolBelow := hgo.poolBelow
    sync := hgo.sync }
  · have hjk : j ≠ k := by
      rintro rfl
      rw [hk] at hj
      cases hj
    have h1 := hgo.segments j
    rw [hover, hj, hseg j hjk] at h1
    exact h1
  · have h1 := hgo.segments j
    rw [hover, hp, hseg j hj] at h1
    exact h1
  · rw [hgo.engine, he, hwork n hn (fun j hj hjn => by rw [hseg j (hne j hj)]; exact hbefore j hj hjn)
      (by rw [hseg n (hne n hn)]; exact hnot)]
  · rw [hgo.engine, he, hanchors fun j hj => by rw [hseg j (hne j hj)]; exact hall j hj]

theorem exec_formatFreeStage {p : Pulses} {b : Bool} {k : DataSeg} {c : Nat}
    (hd : s.due (.format b (.segment k (.freeStage c))) = true) :
    exec (.formatFreeStageStep p) s = .next (s.formatFreeStage p b k c) := by
  simp only [exec, execFormatFreeStageStep, (due_iff.1 hd).2.2, formatWhen_due _ hd]

theorem formatFreeStage_spec {p : Pulses} {b : Bool} {k : DataSeg} {c : Nat} {m : Memory} {ok : Bool}
    (hp : program s.array (freeStageItem k (some c)) p = (m, ok)) :
    s.formatFreeStage p b k c = if returnsToPool c ok then ((s.counted m ok k c).toPool k).formatAfter k
      else (s.counted m ok k c).formatOn b (.segment k (.retire (retireCause ok) true)) := by
  obtain ⟨hprog, hok⟩ := programmed_eq (s := s) (w := ErasePhase.work k (.freeStage c)) rfl hp
  unfold State.formatFreeStage
  dsimp only
  rw [hprog, hok]
  rfl

theorem State.counted_other (s : State) (m : Memory) (ok : Bool) {k j : DataSeg} (c : Nat) (h : j ≠ k) :
    ((s.counted m ok k c).segments[j]'j.isLt) = s.segments[j]'j.isLt :=
  State.updSegment_other { s with array := m } k j _ (Ne.symm h)

theorem State.toPool_other (s : State) {k j : DataSeg} (h : j ≠ k) :
    ((s.toPool k).segments[j]'j.isLt) = s.segments[j]'j.isLt :=
  State.updSegment_other s k j (fun g => { g.erased with location := .pool, header := .free }) (Ne.symm h)

theorem filter_passedOver_of_none {l : List DataSeg} {start : Nat}
    (h : ∀ j ∈ l, (s.segments[j]'j.isLt).header ≠ .retirePending) : (l.filter fun j => !s.passedOver start j) = l := by
  rw [List.filter_eq_self]
  intro j hj
  rw [Bool.not_eq_true', Bool.eq_false_iff]
  exact fun hp => h j hj (State.passedOver_notErased hp).2

/-- The free stage of a FORMAT job. -/
theorem formatFreeStage_result {k : DataSeg} {b : Bool} (p : Pulses) (c : Nat) (m : Memory) (ok : Bool)
    (hd : s.due (.format b (.segment k (.freeStage c))) = true) (hp : program s.array (freeStageItem k (some c)) p = (m, ok)) :
    ∃ t, exec (.formatFreeStageStep p) s = .next t ∧ t.array = m ∧ (t.segments[k]'k.isLt).eraseCount = some c
        ∧ t.ledger = s.ledger ∧ t.poolBelow = s.poolBelow ∧ t.sync = s.sync ∧ t.engine.state = s.engine.state
        ∧ (∀ i : StreamId, { (t.streams[i]'i.isLt) with chain := (s.streams[i]'i.isLt).chain } = s.streams[i]'i.isLt)
        ∧ (ok = true → c < 120000 → (t.segments[k]'k.isLt).location = .pool ∧ (t.segments[k]'k.isLt).header = .free ∧ k ∈ t.pool
            ∧ (t.segments[k]'k.isLt).owner = none ∧ (t.segments[k]'k.isLt).poisoned = false ∧ (t.segments[k]'k.isLt).bytesUsed = 0
            ∧ ((∀ j ∈ s.pool, (s.segments[j]'j.isLt).header ≠ .retirePending) → t.pool = s.pool ++ [k])
            ∧ t.pool = s.pool.filter (fun j => !s.passedOver (k.val + 1) j) ++ [k]
            ∧ (∀ i : StreamId, (t.streams[i]'i.isLt).chain
              = (s.streams[i]'i.isLt).chain.filter fun j => !s.passedOver (k.val + 1) j)
            ∧ t.eventLatch.getLsbD 8 = (s.eventLatch.getLsbD 8 || (List.finRange 510).any (s.passedOver (k.val + 1)))
            ∧ s.PassesOver t k (k.val + 1) ∧ s.FormatProceeds t (k.val + 1)
            ∧ ∃ w, t.engine.job = some (.format true w))
        ∧ (ok = false ∨ 120000 ≤ c →
            t.engine.job = some (.format true (.segment k (.retire (if ok then 0x01 else 0x02) true)))) := by
  refine ⟨_, exec_formatFreeStage hd, ?_⟩
  rw [formatFreeStage_spec hp]
  have hcounted := s.counted_same m ok k c
  have hother := fun j => s.counted_other m ok (k := k) (j := j) c
  have hrest : (s.counted m ok k c).engine = s.engine ∧ (s.counted m ok k c).ledger = s.ledger
    ∧ (s.counted m ok k c).poolBelow = s.poolBelow ∧ (s.counted m ok k c).sync = s.sync
    ∧ (s.counted m ok k c).eventLatch = s.eventLatch ∧ (s.counted m ok k c).array = m
    ∧ (s.counted m ok k c).streams = s.streams ∧ (s.counted m ok k c).pool = s.pool := ⟨rfl, rfl, rfl, rfl, rfl, rfl, rfl, rfl⟩
  generalize s.counted m ok k c = v at *
  obtain ⟨hengine, hledger, hbelow, hsync, hlatch, harray, hstreams, hpool⟩ := hrest
  by_cases hr : returnsToPool c ok = true
  · obtain ⟨ho, hc⟩ := returnsToPool_iff.1 hr
    rw [if_pos hr]
    have hgo : State.GoesAfter k s (v.toPool k) ((v.toPool k).formatAfter k) :=
      State.formatAfter_goesAfter (fun j hj => (v.toPool_other hj).trans (hother j hj)) hstreams hengine
    have hk : s.passedOver (k.val + 1) k = false := State.passedOver_below (Nat.lt_succ_self _)
    have hlist : ((v.toPool k).formatAfter k).pool = s.pool.filter (fun j => !s.passedOver (k.val + 1) j) ++ [k] := by
      rw [hgo.pool, show (v.toPool k).pool = v.pool ++ [k] from rfl, hpool, List.filter_append]
      simp [hk]
    have hseg := hgo.segment
    rw [State.toPool_same, hcounted] at hseg
    refine ⟨hgo.array.trans harray, by rw [hseg]; rfl, hgo.ledger.trans hledger, hgo.poolBelow.trans hbelow,
      hgo.sync.trans hsync, hgo.state, hgo.stream, fun _ _ => ?_, fun h => ?_⟩
    · rw [hseg]
      refine ⟨rfl, rfl, by rw [hlist]; simp, rfl, rfl, rfl, fun h => ?_, hlist, hgo.chain, ?_, hgo.passes, hgo.proceeds, hgo.job⟩
      · rw [hlist, filter_passedOver_of_none h]
      · rw [hgo.raised, show (v.toPool k).eventLatch = v.eventLatch from rfl, hlatch]
    · rcases h with h | h
      · rw [ho] at h
        cases h
      · omega
  · rw [if_neg hr]
    have hgo := v.formatOn_goesOn b (.segment k (.retire (retireCause ok) true))
    refine ⟨hgo.array.trans harray, ?_, hgo.ledger.trans hledger, hgo.poolBelow.trans hbelow, hgo.sync.trans hsync, ?_,
      fun i => ?_, fun ho hc => absurd (returnsToPool_iff.2 ⟨ho, hc⟩) hr, fun _ => by rw [hgo.engine]; rfl⟩
    · rw [hgo.segments, hcounted]
      split <;> rfl
    · rw [hgo.engine, hengine]
    · have h1 := hgo.stream i
      rw [hstreams] at h1
      exact h1

theorem exec_formatRetire {p : Pulses} {b : Bool} {k : DataSeg} {d : Byte} {e : Bool}
    (hd : s.due (.format b (.segment k (.retire d e))) = true) :
    exec (.formatRetireStep p) s = .next (s.formatRetire p k d e) := by
  simp only [exec, execFormatRetireStep, (due_iff.1 hd).2.2, formatWhen_due _ hd]

theorem formatRetire_spec {p : Pulses} {k : DataSeg} {d : Byte} {e : Bool} {m : Memory} {ok : Bool}
    (hp : program s.array (retireItem k d) p = (m, ok)) :
    s.formatRetire p k d e = (State.endRetire k e ok { s with array := m }).formatAfter k := by
  obtain ⟨hprog, hok⟩ := programmed_eq (s := s) (w := ErasePhase.work k (.retire d e)) rfl hp
  unfold State.formatRetire
  dsimp only
  rw [hprog, hok]

theorem State.endRetire_other (s : State) {k j : DataSeg} (b ok : Bool) (h : j ≠ k) :
    ((s.endRetire k b ok).segments[j]'j.isLt) = s.segments[j]'j.isLt := by
  rw [State.endRetire, State.retire, State.raise_segments, State.updSegment_other _ k j _ (Ne.symm h),
    State.updSegment_other _ k j _ (Ne.symm h)]

/-- The retire write of a FORMAT job. -/
theorem formatRetire_result {k : DataSeg} {b : Bool} (p : Pulses) (cause : Byte) (erased : Bool) (m : Memory) (ok : Bool)
    (hd : s.due (.format b (.segment k (.retire cause erased))) = true) (hp : program s.array (retireItem k cause) p = (m, ok)) :
    ∃ t, exec (.formatRetireStep p) s = .next t ∧ t.array = m ∧ (t.segments[k]'k.isLt).location = .retired
        ∧ (t.segments[k]'k.isLt).header = (if ok then .retired else (s.segments[k]'k.isLt).header)
        ∧ t.eventLatch.getLsbD 8 = true
        ∧ t.ledger = s.ledger ∧ t.poolBelow = s.poolBelow ∧ t.sync = s.sync ∧ t.engine.state = s.engine.state
        ∧ (∀ i : StreamId, { (t.streams[i]'i.isLt) with chain := (s.streams[i]'i.isLt).chain } = s.streams[i]'i.isLt)
        ∧ t.pool = s.pool.filter (fun j => !s.passedOver (k.val + 1) j)
        ∧ (∀ i : StreamId, (t.streams[i]'i.isLt).chain
          = (s.streams[i]'i.isLt).chain.filter fun j => !s.passedOver (k.val + 1) j)
        ∧ s.PassesOver t k (k.val + 1) ∧ s.FormatProceeds t (k.val + 1)
        ∧ ∃ w, t.engine.job = some (.format true w) := by
  refine ⟨_, exec_formatRetire hd, ?_⟩
  rw [formatRetire_spec hp]
  have hseg := endRetire_same { s with array := m } k erased ok
  have hbit : (State.endRetire k erased ok { s with array := m }).eventLatch.getLsbD 8 = true := by
    rw [State.endRetire, State.retire, State.raise_getLsbD]
    simp [Event.bit]
  have hgo : State.GoesAfter k s (State.endRetire k erased ok { s with array := m })
      ((State.endRetire k erased ok { s with array := m }).formatAfter k) :=
    State.formatAfter_goesAfter (fun j hj => State.endRetire_other { s with array := m } erased ok hj) rfl rfl
  refine ⟨hgo.array, ?_, ?_, ?_, hgo.ledger, hgo.poolBelow, hgo.sync, hgo.state, hgo.stream, hgo.pool, hgo.chain, hgo.passes,
    hgo.proceeds, hgo.job⟩
  · rw [hgo.segment, hseg]
  · rw [hgo.segment, hseg]
  · rw [hgo.raised, hbit, Bool.true_or]

/-- Settles O59: the pulse, the free stage and the retire write of a FORMAT job. -/
theorem formatSegmentStepsResult : Obligations.FormatSegmentStepsResult := fun _ _ _ =>
  ⟨fun r n hd hh hl => formatPulse_result r n hd hh hl, fun p c m ok hd hp => formatFreeStage_result p c m ok hd hp,
    fun p d e m ok hd hp => formatRetire_result p d e m ok hd hp⟩

end Sys2Proof.Machine
end

section
/-! FORMAT on the anchor segments, its image and its completion (R27, R135, R143, R144, R158, R179). Settles O60. -/

namespace Sys2Proof.Machine

-- One proof after the other: the stacks of proofs elaborated side by side come near the memory that a check may take.
set_option Elab.async false

open Sys2Proof

variable {s t u : State}

/-! ### What FORMAT's image holds (R145, R158, R179) -/

theorem Guard.formatted_permanent {g : Guard} (h : g.anchored = .permanent) : g.formatted = { g with working := .permanent } :=
  if_pos h

theorem Guard.formatted_default {g : Guard} (h : g.anchored ≠ .permanent) :
    g.formatted = { working := .opened, anchored := .opened, appendLocks := 0, formatInhibit := false } :=
  if_neg h

/-- FORMAT's image records the guard of completion as it stands at the capture. -/
theorem State.formatCapture_records (s : State) : s.formatCapture.content.records s.guard.formatted = true := by
  simp [ImageContent.records, State.formatCapture, State.formatContent]

theorem State.formatCapture_stream (s : State) (i : StreamId) :
    (s.formatCapture.content.streams[i]'i.isLt) = StreamImage.default :=
  tabulate_get _ i

/-! ### Completion (R27, R158, R171, R179) -/

theorem Stream.sided_formatted : Stream.formatted.sided = Stream.formatted := by decide

/-- The state that FORMAT's completion leaves, before the engine selects. -/
def State.formattedState (l : Ledger) (s : State) : State := State.setAllSides { s with
  streams := Vector.replicate 8 Stream.formatted
  guard := s.guard.formatted
  lowWater := 8
  ledger := l
  port := { s.port with receipt := none }
  sync := none }

theorem State.formattedState_stream (s : State) (l : Ledger) (i : StreamId) :
    ((s.formattedState l).streams[i]'i.isLt) = Stream.formatted := by
  rw [State.formattedState, setAllSides_eq, tabulate_get]
  have h : (Vector.replicate 8 Stream.formatted)[i]'i.isLt = Stream.formatted := Vector.getElem_replicate _
  exact (congrArg Stream.sided h).trans Stream.sided_formatted

theorem setPoolSide_poolBelow {v : State} (h : v.lowWater = 8) :
    v.setPoolSide.poolBelow = decide (v.setPoolSide.available < 8) := by
  show decide (v.available < (v.lowWater : Int)) = decide (v.available < 8)
  rw [h]
  rfl

theorem State.formattedState_poolBelow (s : State) (l : Ledger) :
    (s.formattedState l).poolBelow = decide ((s.formattedState l).available < 8) :=
  setPoolSide_poolBelow rfl

/-- What FORMAT's completion leaves of the other items. -/
structure State.FormatLeaves (s t : State) : Prop where
  array : t.array = s.array
  segments : t.segments = s.segments
  pool : t.pool = s.pool
  reclaim : t.reclaim = s.reclaim
  staging : t.staging = []
  eventLatch : t.eventLatch = s.eventLatch
  eventEnable : t.eventEnable = s.eventEnable

theorem State.formatted_ends (h : s.staging = []) (l : Ledger) :
    s.FormatEnds (s.formatted l) l ∧ s.FormatLeaves (s.formatted l) := by
  have hsel : (s.formatted l).Selected s.engine.preempted := endStep_selected (s.formattedState l)
  have heq : s.formatted l = { s.formattedState l with engine := (s.formatted l).engine } := by
    exact select_of_unstaged (s := State.idle { s.formattedState l with
      engine := { (s.formattedState l).engine with resumeLock := false } }) h
  have hstream := s.formattedState_stream l
  have hbelow := s.formattedState_poolBelow l
  have hother : (s.formattedState l).guard = s.guard.formatted ∧ (s.formattedState l).lowWater = 8 ∧ (s.formattedState l).ledger = l
    ∧ (s.formattedState l).port = { s.port with receipt := none } ∧ (s.formattedState l).sync = none
    ∧ (s.formattedState l).staging = s.staging := ⟨rfl, rfl, rfl, rfl, rfl, rfl⟩
  have hleft : (s.formattedState l).array = s.array ∧ (s.formattedState l).segments = s.segments
    ∧ (s.formattedState l).pool = s.pool ∧ (s.formattedState l).reclaim = s.reclaim
    ∧ (s.formattedState l).eventLatch = s.eventLatch ∧ (s.formattedState l).eventEnable = s.eventEnable := ⟨rfl, rfl, rfl, rfl, rfl, rfl⟩
  generalize s.formattedState l = v at *
  generalize s.formatted l = t at *
  obtain ⟨hguard, hlow, hledger, hport, hsync, hstaging⟩ := hother
  obtain ⟨harray, hseg, hpool, hreclaim, hlatch, henable⟩ := hleft
  generalize t.engine = e at heq
  subst heq
  exact ⟨⟨hstream, hguard, hlow, hledger, hport, hsync, hbelow, hsel⟩,
    ⟨harray, hseg, hpool, hreclaim, hstaging.trans h, hlatch, henable⟩⟩

/-- FORMAT's completion takes guard, port and preempted slot from the state before the step. -/
theorem State.FormatEnds.before {l : Ledger} (h : u.FormatEnds t l) (hg : u.guard = s.guard) (hp : u.port = s.port)
    (he : u.engine.preempted = s.engine.preempted) : s.FormatEnds t l :=
  ⟨h.streams, hg ▸ h.guard, h.lowWater, h.ledger, hp ▸ h.port, h.sync, h.poolSide, he ▸ h.selected⟩

/-- The completion with the ledger halted. -/
theorem State.formatHalt_ends (h : s.staging = []) : s.FormatEnds s.formatHalt s.ledger.formatHalted
    ∧ s.formatHalt.eventLatch.getLsbD 15 = true
    ∧ s.formatHalt.array = s.array ∧ s.formatHalt.segments = s.segments ∧ s.formatHalt.pool = s.pool := by
  obtain ⟨hends, hleaves⟩ := State.formatted_ends (s := s.raise .ledgerHalt) h s.ledger.formatHalted
  refine ⟨hends.before rfl rfl rfl, ?_, hleaves.array, hleaves.segments, hleaves.pool⟩
  rw [State.formatHalt, hleaves.eventLatch, State.raise_getLsbD]
  simp [Event.bit]

/-! ### Erase pulses on the anchor segments -/

/-- A step on an anchor segment takes the RETIRE_PENDING segments that no other precedes to the retired list where it is the job's
first, and leaves the data segments otherwise (log 29). -/
structure State.AnchorTurn (b : Bool) (s t : State) : Prop where
  segments : ∀ j : DataSeg, t.segments[j]'j.isLt = if !b && s.passedOver 0 j
    then { (s.segments[j]'j.isLt) with location := .retired, release := none } else s.segments[j]'j.isLt
  started : b = true → t.segments = s.segments ∧ t.pool = s.pool

/-- Such a step goes on with the work given; the streams keep all but their chains. -/
structure State.AnchorGoesOn (b : Bool) (w : FormatWork) (s t : State) : Prop extends State.AnchorTurn b s t where
  stream : ∀ i : StreamId, { (t.streams[i]'i.isLt) with chain := (s.streams[i]'i.isLt).chain } = s.streams[i]'i.isLt
  streams : b = true → t.streams = s.streams
  job : t.engine.job = some (.format true w)

theorem State.passedOver_of_segments {v : State} (h : v.segments = s.segments) (start : Nat) (j : DataSeg) :
    v.passedOver start j = s.passedOver start j :=
  State.passedOver_congr (fun n _ => by rw [h]; exact ⟨rfl, rfl⟩) j

theorem State.formatOn_anchor {v : State} (b : Bool) (w : FormatWork) (hseg : v.segments = s.segments) (hpool : v.pool = s.pool)
    (hstreams : v.streams = s.streams) : State.AnchorGoesOn b w s (v.formatOn b w) := by
  have hgo := v.formatOn_goesOn b w
  refine ⟨⟨fun j => ?_, ?_⟩, fun i => ?_, ?_, by rw [hgo.engine]⟩
  · rw [hgo.segments, State.passedOver_of_segments hseg, hseg]
  · rintro rfl
    exact ⟨hseg, hpool⟩
  · have h1 := hgo.stream i
    rw [hstreams] at h1
    exact h1
  · rintro rfl
    exact hstreams

/-- What an erase pulse on an anchor segment leaves. -/
structure State.AnchorPulsed (b : Bool) (a : AnchorSeg) (m : Memory) (n : Nat) (passed again : FormatWork) (s t : State) : Prop where
  array : t.array = m
  turn : State.AnchorTurn b s t
  passes : segmentErased m a.val = true → State.AnchorGoesOn b passed s t
    ∧ t.ledger = { s.ledger with
        anchorErases := s.ledger.anchorErases.set a.val (min ((s.ledger.anchorErases[a]'a.isLt) + 1) 0xFFFFFE) }
  again : segmentErased m a.val = false → n < 11 → State.AnchorGoesOn b again s t ∧ t.ledger = s.ledger
  halts : segmentErased m a.val = false → 11 ≤ n → t.eventLatch.getLsbD 15 = true ∧ s.FormatEnds t s.ledger.formatHalted

/-- The state in which the twelfth pulse that fails halts the ledger. -/
def State.formatTurned (b : Bool) (s : State) : State := if b then s else (s.formatNext allSegments).1

theorem State.formatTurned_passed {v : State} (h : v.segments = s.segments) (b : Bool) :
    State.Passed (fun j => !b && s.passedOver 0 j) v (v.formatTurned b) := by
  cases b with
  | true => exact (State.Passed.refl v).congr fun _ => rfl
  | false => exact v.formatNext_all.congr fun j => State.passedOver_of_segments h 0 j

theorem State.anchorPulse_spec (s : State) (b : Bool) (a : AnchorSeg) (r : Residue) (n : Nat) (passed again : FormatWork) :
    s.anchorPulse r b a n passed again
      = if segmentErased (erasePulse s.array a.val r) a.val then
          (State.countAnchorErase a { s with array := erasePulse s.array a.val r }).formatOn b passed
        else if 12 ≤ n + 1 then (State.formatTurned b { s with array := erasePulse s.array a.val r }).formatHalt
        else State.formatOn b again { s with array := erasePulse s.array a.val r } := rfl

theorem State.anchorPulsed (hs : s.staging = []) (b : Bool) (a : AnchorSeg) (r : Residue) (n : Nat) (passed again : FormatWork) :
    State.AnchorPulsed b a (erasePulse s.array a.val r) n passed again s (s.anchorPulse r b a n passed again) := by
  rw [State.anchorPulse_spec]
  generalize erasePulse s.array a.val r = m
  cases he : segmentErased m a.val with
  | true =>
    rw [if_pos rfl]
    have hgo : State.AnchorGoesOn b passed s ((State.countAnchorErase a { s with array := m }).formatOn b passed) :=
      State.formatOn_anchor b passed rfl rfl rfl
    have hon := (State.countAnchorErase a { s with array := m }).formatOn_goesOn b passed
    exact ⟨hon.array, hgo.toAnchorTurn, fun _ => ⟨hgo, hon.ledger⟩, fun h => absurd (he.symm.trans h) (by decide),
      fun h => absurd (he.symm.trans h) (by decide)⟩
  | false =>
    rw [if_neg (by decide)]
    by_cases hn : 12 ≤ n + 1
    · rw [if_pos hn]
      have hp := State.formatTurned_passed (s := s) (v := { s with array := m }) rfl b
      have hrest := hp.rest
      generalize hu : State.formatTurned b { s with array := m } = u at *
      have hledger : u.ledger = s.ledger := by
        have h1 := congrArg State.ledger hrest
        exact h1
      have hguard : u.guard = s.guard := by
        have h1 := congrArg State.guard hrest
        exact h1
      have hport : u.port = s.port := by
        have h1 := congrArg State.port hrest
        exact h1
      have hengine : u.engine = s.engine := by
        have h1 := congrArg State.engine hrest
        exact h1
      have hstaging : u.staging = s.staging := by
        have h1 := congrArg State.staging hrest
        exact h1
      have harray : u.array = m := by
        have h1 := congrArg State.array hrest
        exact h1
      obtain ⟨hends, hlatch, ha, hseg, hpool⟩ := State.formatHalt_ends (hstaging.trans hs)
      refine ⟨ha.trans harray, ⟨fun j => ?_, ?_⟩, fun h => absurd (he.symm.trans h) (by decide), fun _ h => by omega,
        fun _ _ => ⟨hlatch, hledger ▸ hends.before hguard hport (by rw [hengine])⟩⟩
      · have h1 := hp.segments j
        rw [hseg]
        exact h1
      · rintro rfl
        subst hu
        exact ⟨hseg, hpool⟩
    · rw [if_neg hn]
      have hgo : State.AnchorGoesOn b again s (State.formatOn b again { s with array := m }) :=
        State.formatOn_anchor b again rfl rfl rfl
      have hon := State.formatOn_goesOn { s with array := m } b again
      exact ⟨hon.array, hgo.toAnchorTurn, fun h => absurd (he.symm.trans h) (by decide), fun _ _ => ⟨hgo, hon.ledger⟩, fun _ h => by omega⟩

/-- A RETIRE_PENDING segment that no other precedes is in the retired list after the job's first step (log 29). -/
theorem State.AnchorTurn.retires (h : State.AnchorTurn false s t) {k : DataSeg} (hk : (s.segments[k]'k.isLt).header = .retirePending)
    (hbefore : ∀ j < k, (s.segments[j]'j.isLt).location = .retired ∨ (s.segments[j]'j.isLt).header = .retirePending) :
    (t.segments[k]'k.isLt).location = .retired := by
  rw [h.segments]
  by_cases hl : (s.segments[k]'k.isLt).location = .retired
  · split
    · rfl
    · exact hl
  · have hover : s.passedOver 0 k = true := by
      simp only [State.passedOver, Bool.and_eq_true, Bool.or_eq_true, decide_eq_true_eq, List.all_eq_true, bne_iff_ne, ne_eq]
      refine ⟨⟨Nat.zero_le _, hl⟩, fun j _ => ?_⟩
      rcases lt_trichotomy j k with hj | rfl | hj
      · exact .inr (Segment.notErased_iff.2 (hbefore j hj))
      · exact .inr (Segment.notErased_iff.2 (.inr hk))
      · exact .inl (.inr hj)
    rw [hover, if_pos (by decide)]

theorem exec_formatAnchorPulse {r : Residue} {b : Bool} {w : FormatWork} (hw : w.isAnchorErase = true)
    (hd : s.due (.format b w) = true) : exec (.formatAnchorErasePulse r) s = .next (s.formatAnchorPulse r b w) := by
  simp only [exec, execFormatAnchorErasePulse, (due_iff.1 hd).2.2, hw, Bool.true_and, formatWhen_due _ hd]

/-- An erase pulse on anchor segment 1. -/
theorem formatAnchorErase_result (hs : s.staging = []) (b : Bool) (r : Residue) (n : Nat)
    (hd : s.due (.format b (.anchorErase n)) = true) :
    ∃ t, exec (.formatAnchorErasePulse r) s = .next t ∧ t.array = erasePulse s.array 1 r
        ∧ (b = false → ∀ k : DataSeg, (s.segments[k]'k.isLt).header = .retirePending →
            (∀ j < k, (s.segments[j]'j.isLt).location = .retired ∨ (s.segments[j]'j.isLt).header = .retirePending) →
            (t.segments[k]'k.isLt).location = .retired)
        ∧ (b = true → t.segments = s.segments ∧ t.pool = s.pool)
        ∧ (segmentErased t.array 1 = true ∨ n < 11 →
            ∀ i : StreamId, { (t.streams[i]'i.isLt) with chain := (s.streams[i]'i.isLt).chain } = s.streams[i]'i.isLt)
        ∧ (segmentErased t.array 1 = true → t.engine.job = some (.format true (.compactErase 1 0))
            ∧ t.ledger = { s.ledger with
                anchorErases := s.ledger.anchorErases.set 1 (min (s.ledger.anchorErases[1] + 1) 0xFFFFFE) })
        ∧ (segmentErased t.array 1 = false → n < 11 → t.engine.job = some (.format true (.anchorErase (n + 1)))
            ∧ t.ledger = s.ledger)
        ∧ (segmentErased t.array 1 = false → 11 ≤ n → t.eventLatch.getLsbD 15 = true
            ∧ s.FormatEnds t s.ledger.formatHalted) := by
  have h := State.anchorPulsed hs b 1 r n (.compactErase 1 0) (.anchorErase (n + 1))
  refine ⟨_, exec_formatAnchorPulse rfl hd, h.array, ?_, h.turn.started, ?_, ?_, ?_, ?_⟩
  · rintro rfl k hk hbefore
    exact h.turn.retires hk hbefore
  · rw [show (s.formatAnchorPulse r b (.anchorErase n)).array = erasePulse s.array 1 r from h.array]
    intro he
    cases hb : segmentErased (erasePulse s.array 1 r) 1 with
    | true => exact (h.passes hb).1.stream
    | false => exact (h.again hb (he.resolve_left (by rw [hb]; decide))).1.stream
  · rw [show (s.formatAnchorPulse r b (.anchorErase n)).array = erasePulse s.array 1 r from h.array]
    intro he
    obtain ⟨hgo, hledger⟩ := h.passes he
    exact ⟨hgo.job, hledger⟩
  · rw [show (s.formatAnchorPulse r b (.anchorErase n)).array = erasePulse s.array 1 r from h.array]
    intro he hn
    obtain ⟨hgo, hledger⟩ := h.again he hn
    exact ⟨hgo.job, hledger⟩
  · rw [show (s.formatAnchorPulse r b (.anchorErase n)).array = erasePulse s.array 1 r from h.array]
    exact h.halts

/-- An erase pulse on anchor segment 0. -/
theorem formatCompactErase_result (hs : s.staging = []) (r : Residue) (v n : Nat)
    (hd : s.due (.format true (.compactErase v n)) = true) :
    ∃ t, exec (.formatAnchorErasePulse r) s = .next t ∧ t.array = erasePulse s.array 0 r ∧ t.segments = s.segments
        ∧ (segmentErased t.array 0 = true → t.engine.job = some (.format true (.compactCapture v)) ∧ t.streams = s.streams
            ∧ t.ledger = { s.ledger with
                anchorErases := s.ledger.anchorErases.set 0 (min (s.ledger.anchorErases[0] + 1) 0xFFFFFE) })
        ∧ (segmentErased t.array 0 = false → n < 11 → t.engine.job = some (.format true (.compactErase v (n + 1)))
            ∧ t.streams = s.streams ∧ t.ledger = s.ledger)
        ∧ (segmentErased t.array 0 = false → 11 ≤ n → t.eventLatch.getLsbD 15 = true
            ∧ s.FormatEnds t s.ledger.formatHalted) := by
  have h := State.anchorPulsed hs true 0 r n (.compactCapture v) (.compactErase v (n + 1))
  have harray : (s.formatAnchorPulse r true (.compactErase v n)).array = erasePulse s.array 0 r := h.array
  refine ⟨_, exec_formatAnchorPulse rfl hd, harray, (h.turn.started rfl).1, ?_⟩
  rw [harray]
  refine ⟨fun he => ?_, fun he hn => ?_, h.halts⟩
  · obtain ⟨hgo, hledger⟩ := h.passes he
    exact ⟨hgo.job, hgo.streams rfl, hledger⟩
  · obtain ⟨hgo, hledger⟩ := h.again he hn
    exact ⟨hgo.job, hgo.streams rfl, hledger⟩

/-! ### The units of FORMAT's image -/

/-- What a unit of FORMAT's image leads to. -/
def State.formatUnitEnd (ok : Bool) (c : Captured) (v : Nat) (s : State) : State :=
  if ok = true then
    if c.part < 7 then (s.updLedger fun l => l.atPart (c.part + 1)).formatOn true (.compactImage v)
    else if c.content.records s.guard.formatted = true then s.formatted (s.ledger.formatted c.generation)
    else s.formatRetry v
  else s.formatAttemptFailed v

theorem formatUnit_spec {w : ArrayWork} {item : Item} {p : Pulses} {m : Memory} {ok : Bool} {c : Captured} (v : Nat)
    (hc : s.ledger.captured = some c) (hw : w = .program item) (hp : program s.array item p = (m, ok)) :
    s.formatUnit w p v = State.formatUnitEnd ok c v { s with array := m } := by
  obtain ⟨hprog, hok⟩ := programmed_eq hw hp
  unfold State.formatUnit
  dsimp only
  rw [hprog, hok, capturedOr_some hc]
  rfl

theorem exec_formatUnit {p : Pulses} {b : Bool} {w : FormatWork} (hw : w.isImage = true)
    (hd : s.due (.format b w) = true) : exec (.formatImageUnitStep p) s = .next (s.formatImageUnit p w) := by
  simp only [exec, execFormatImageUnitStep, (due_iff.1 hd).2.2, hw, Bool.true_and, formatWhen_due _ hd]

theorem exec_formatCapture {p : Pulses} {v : Nat} {m : Memory} {ok : Bool} (hd : s.due (.format true (.compactCapture v)) = true)
    (hp : program s.array (unitItem 0 0 s.formatCapture.fields) p = (m, ok)) :
    exec (.formatImageUnitStep p) s
      = .next (State.formatUnitEnd ok s.formatCapture v { s.captureImage s.formatCapture with array := m }) := by
  have harray : (s.captureImage s.formatCapture).array = s.array := rfl
  have hspec := formatUnit_spec (s := s.captureImage s.formatCapture) (c := s.formatCapture)
    (w := s.formatWork (.compactCapture v)) v rfl rfl (harray.symm ▸ hp)
  rw [exec_formatUnit rfl hd, State.formatImageUnit, hspec]

theorem exec_formatImage {p : Pulses} {v : Nat} {c : Captured} {m : Memory} {ok : Bool}
    (hd : s.due (.format true (.compactImage v)) = true) (hc : s.ledger.captured = some c)
    (hp : program s.array (unitItem 0 c.part c.fields) p = (m, ok)) :
    exec (.formatImageUnitStep p) s = .next (State.formatUnitEnd ok c v { s with array := m }) := by
  rw [exec_formatUnit rfl hd, State.formatImageUnit,
    formatUnit_spec (w := s.formatWork (.compactImage v)) v hc rfl ((capturedOr_some hc s.formatCapture).symm ▸ hp)]

/-- An attempt whose image does not stand (R143, log 19). -/
theorem State.formatRetry_eq (s : State) (v : Nat) : s.formatRetry v = { s with
    ledger := { s.ledger with captured := none, imageNeeded := true }
    engine := { s.engine with job := some (.format true (.compactErase v 0)), resumeLock := false } } := rfl

theorem formatUnitEnd_failed (c : Captured) (v : Nat) :
    (v = 1 → s.formatUnitEnd false c v = s.formatRetry 2) ∧ (v ≠ 1 → s.formatUnitEnd false c v = s.formatHalt) :=
  ⟨fun h => if_pos h, fun h => if_neg h⟩

theorem formatUnitEnd_next {c : Captured} (v : Nat) (h : c.part < 7) : s.formatUnitEnd true c v = { s with
    ledger := s.ledger.atPart (c.part + 1)
    engine := { s.engine with job := some (.format true (.compactImage v)), resumeLock := false } } := by
  rw [State.formatUnitEnd, if_pos rfl, if_pos h]
  rfl

theorem formatUnitEnd_complete {c : Captured} (v : Nat) (h : c.part = 7) (hr : c.content.records s.guard.formatted = true) :
    s.formatUnitEnd true c v = s.formatted (s.ledger.formatted c.generation) := by
  rw [State.formatUnitEnd, if_pos rfl, if_neg (by omega), if_pos hr]

theorem formatUnitEnd_retry {c : Captured} (v : Nat) (h : c.part = 7) (hr : c.content.records s.guard.formatted = false) :
    s.formatUnitEnd true c v = s.formatRetry v := by
  rw [State.formatUnitEnd, if_pos rfl, if_neg (by omega), if_neg (by rw [hr]; decide)]

/-- The unit at which FORMAT's image is captured. -/
theorem formatCapture_result (hs : s.staging = []) (p : Pulses) (v : Nat) (m : Memory)
    (hd : s.due (.format true (.compactCapture v)) = true) :
    (program s.array (unitItem 0 0 s.formatCapture.fields) p = (m, true) →
        ∃ t, exec (.formatImageUnitStep p) s = .next t ∧ t.array = m ∧ t.streams = s.streams
          ∧ t.engine.job = some (.format true (.compactImage v))
          ∧ t.ledger = { s.ledger with
              captured := some { s.formatCapture with part := 1 }, imageNeeded := false
              pendingNotes := Vector.replicate 8 false })
      ∧ (program s.array (unitItem 0 0 s.formatCapture.fields) p = (m, false) →
        ∃ t, exec (.formatImageUnitStep p) s = .next t ∧ t.array = m
          ∧ (v = 1 → t.engine.job = some (.format true (.compactErase 2 0)) ∧ t.streams = s.streams
              ∧ t.ledger.captured = none ∧ t.ledger.imageNeeded = true)
          ∧ (v ≠ 1 → t.eventLatch.getLsbD 15 = true ∧ s.FormatEnds t s.ledger.formatHalted)) := by
  constructor
  · intro hp
    refine ⟨_, exec_formatCapture hd hp, ?_⟩
    rw [formatUnitEnd_next v (show s.formatCapture.part < 7 from Nat.zero_lt_succ _)]
    exact ⟨rfl, rfl, rfl, rfl⟩
  · intro hp
    refine ⟨_, exec_formatCapture hd hp, ?_⟩
    obtain ⟨hretry, hhalt⟩ := formatUnitEnd_failed (s := { s.captureImage s.formatCapture with array := m }) s.formatCapture v
    by_cases hv : v = 1
    · rw [hretry hv, State.formatRetry_eq]
      exact ⟨rfl, fun _ => ⟨rfl, rfl, rfl, rfl⟩, fun h => absurd hv h⟩
    · rw [hhalt hv]
      obtain ⟨hends, hlatch, harray, -⟩ := State.formatHalt_ends (s := { s.captureImage s.formatCapture with array := m }) hs
      exact ⟨harray, fun h => absurd h hv, fun _ => ⟨hlatch, hends.before rfl rfl rfl⟩⟩

/-- A later unit of FORMAT's image. -/
theorem formatImage_result (hs : s.staging = []) (p : Pulses) (v : Nat) (c : Captured) (m : Memory)
    (hd : s.due (.format true (.compactImage v)) = true) (hc : s.ledger.captured = some c) :
    (c.part < 7 → program s.array (unitItem 0 c.part c.fields) p = (m, true) →
        ∃ t, exec (.formatImageUnitStep p) s = .next t ∧ t.array = m ∧ t.streams = s.streams
          ∧ t.engine.job = some (.format true (.compactImage v))
          ∧ t.ledger = { s.ledger with captured := some { c with part := c.part + 1 } })
      ∧ (c.part = 7 → c.content.records s.guard.formatted = true → program s.array (unitItem 0 7 c.fields) p = (m, true) →
        ∃ t, exec (.formatImageUnitStep p) s = .next t ∧ t.array = m
          ∧ s.FormatEnds t { current := some 0, nextFree := 8, generation := c.generation, imageNeeded := false
                             pendingNotes := Vector.replicate 8 false, captured := none
                             anchorErases := s.ledger.anchorErases, halted := false }
          ∧ t.eventLatch = s.eventLatch ∧ t.eventEnable = s.eventEnable
          ∧ (s.reclaim = [] → s.engine.preempted = none → t.engine.state = .idle ∧ t.engine.job = none))
      ∧ (c.part = 7 → c.content.records s.guard.formatted = false → program s.array (unitItem 0 7 c.fields) p = (m, true) →
        ∃ t, exec (.formatImageUnitStep p) s = .next t ∧ t.array = m ∧ t.streams = s.streams ∧ t.guard = s.guard
          ∧ t.engine.job = some (.format true (.compactErase v 0))
          ∧ t.ledger = { s.ledger with captured := none, imageNeeded := true })
      ∧ (program s.array (unitItem 0 c.part c.fields) p = (m, false) →
        ∃ t, exec (.formatImageUnitStep p) s = .next t ∧ t.array = m
          ∧ (v = 1 → t.engine.job = some (.format true (.compactErase 2 0)) ∧ t.streams = s.streams
              ∧ t.ledger = { s.ledger with captured := none, imageNeeded := true })
          ∧ (v ≠ 1 → t.eventLatch.getLsbD 15 = true ∧ s.FormatEnds t s.ledger.formatHalted)) := by
  refine ⟨fun hpart hp => ?_, fun hpart hr hp => ?_, fun hpart hr hp => ?_, fun hp => ?_⟩
  · refine ⟨_, exec_formatImage hd hc hp, ?_⟩
    rw [formatUnitEnd_next v hpart]
    exact ⟨rfl, rfl, rfl, by rw [Ledger.atPart, hc]; rfl⟩
  · rw [← hpart] at hp
    refine ⟨_, exec_formatImage hd hc hp, ?_⟩
    rw [formatUnitEnd_complete (s := { s with array := m }) v hpart hr]
    obtain ⟨hends, hleaves⟩ := State.formatted_ends (s := { s with array := m }) hs (s.ledger.formatted c.generation)
    refine ⟨hleaves.array, hends.before rfl rfl rfl, hleaves.eventLatch, hleaves.eventEnable, fun hre hpre => ?_⟩
    have htrigger : (State.formatted (s.ledger.formatted c.generation) { s with array := m }).ledger.trigger = false := by
      rw [hends.ledger]
      rfl
    obtain ⟨hstate, -, hjob⟩ := hends.selected.idle htrigger hleaves.staging hpre (hleaves.reclaim.trans hre)
    exact ⟨hstate, hjob⟩
  · rw [← hpart] at hp
    refine ⟨_, exec_formatImage hd hc hp, ?_⟩
    rw [formatUnitEnd_retry (s := { s with array := m }) v hpart hr, State.formatRetry_eq]
    exact ⟨rfl, rfl, rfl, rfl, rfl⟩
  · refine ⟨_, exec_formatImage hd hc hp, ?_⟩
    obtain ⟨hretry, hhalt⟩ := formatUnitEnd_failed (s := { s with array := m }) c v
    by_cases hv : v = 1
    · rw [hretry hv, State.formatRetry_eq]
      exact ⟨rfl, fun _ => ⟨rfl, rfl, rfl⟩, fun h => absurd hv h⟩
    · rw [hhalt hv]
      obtain ⟨hends, hlatch, harray, -⟩ := State.formatHalt_ends (s := { s with array := m }) hs
      exact ⟨harray, fun h => absurd h hv, fun _ => ⟨hlatch, hends.before rfl rfl rfl⟩⟩

/-- Settles O60: the anchor segments, the image and the completion of a FORMAT job. -/
theorem formatAnchorStepsResult : Obligations.FormatAnchorStepsResult :=
  ⟨fun s => ⟨rfl, rfl, rfl, rfl, s.formatCapture_records, s.formatCapture_stream, Guard.formatted_permanent, Guard.formatted_default⟩,
    fun _ hs => ⟨fun b r n hd => formatAnchorErase_result hs b r n hd, fun r v n hd => formatCompactErase_result hs r v n hd,
      fun p v m hd => formatCapture_result hs p v m hd, fun p v c m hd hc => formatImage_result hs p v c m hd hc⟩⟩

end Sys2Proof.Machine
end
